-- ==== Sys2Proof/Word.lean ====
section
/-! DEFINITION. Words, bytes, bit fields and byte order (R6), and the small index types of the package. -/

namespace Sys2Proof

abbrev Byte := BitVec 8
/-- A scalar register of a control core, and any other 64-bit word. -/
abbrev Word64 := BitVec 64
/-- A word under the 144-bit storage code (R235). -/
abbrev Word144 := BitVec 144

/-- The two host ports: 0 is port A on brim 0, 1 is port B on brim 2. -/
abbrev Port := Fin 2
/-- Towers T0 to T3, and with them brims, cache dies and crowns 0 to 3. -/
abbrev Tower := Fin 4
/-- Position codes of R13: 0 brim, 1 H5, 2 H4, 3 H3, 4 H2, 5 H1, 6 cache die, 7 crown. -/
abbrev Pos := Fin 8
/-- Horizons by number less one: 0 is H1, 4 is H5. -/
abbrev Horizon := Fin 5
/-- Cores 0 to 575; crown n holds cores 144 n to 144 n + 143. -/
abbrev Core := Fin 576
/-- Fabric links 0 to 13. -/
abbrev Link := Fin 14
/-- The control-core threads F, B and U. -/
inductive Thr where
  | F | B | U
deriving DecidableEq, Repr

/-- The two matrix arrays of a core, which are also the two halves of its vector engine. -/
inductive Arr where
  | F | B
deriving DecidableEq, Repr

/-- Bits `hi` down to `lo` of a number, as an unsigned integer (R12). -/
def bits (v hi lo : Nat) : Nat := (v >>> lo) % 2 ^ (hi + 1 - lo)

/-- One bit of a number. -/
def bit (v i : Nat) : Bool := v.testBit i

/-- The two's complement value of the low `w` bits. -/
def signed (w v : Nat) : Int :=
  let u := v % 2 ^ w
  if u < 2 ^ (w - 1) then (u : Int) else (u : Int) - (2 ^ w : Nat)

/-- The low `w` bits of an integer, as an unsigned number. -/
def wrapInt (w : Nat) (x : Int) : Nat := (x % ((2 ^ w : Nat) : Int)).toNat

/-- Clamp to a closed range (R12, `sat`). -/
def clampNat (lo hi v : Nat) : Nat := if v < lo then lo else if hi < v then hi else v
def clampInt (lo hi v : Int) : Int := if v < lo then lo else if hi < v then hi else v

/-- Add with a stop at the top value. -/
def satAdd (width v n : Nat) : Nat := min (v + n) (2 ^ width - 1)

/-- `n` bytes of a number, least significant first (R6). -/
def leBytes : Nat → Nat → List Byte
  | 0, _ => []
  | n + 1, v => BitVec.ofNat 8 v :: leBytes n (v / 256)

/-- The number some bytes hold, least significant first (R6). -/
def leNat : List Byte → Nat
  | [] => 0
  | b :: r => b.toNat + 256 * leNat r

/-- The number in bytes `at` to `at + n - 1` of a layout; bytes beyond the end count as zero. -/
def fieldNat (bs : List Byte) (at_ n : Nat) : Nat := leNat ((bs.drop at_).take n)

/-- A list made exactly `n` long: cut, or filled with zero bytes. -/
def padBytes (n : Nat) (bs : List Byte) : List Byte := bs.take n ++ List.replicate (n - bs.length) 0

end Sys2Proof
end

