-- ==== Sys2Proof/Config.lean ====
section
/-! DEFINITION. What an implementation fixes and the spec leaves open: opaque constants, with no body to evaluate.
Every free value of the model is one of these; notes/assumptions says which rule leaves each open. -/

namespace Sys2Proof

/-- A fresh free 64-bit value: the model applies it to a counter of `State` that each use advances. Nothing is known
of it. [DESIGN CHOICE: log entries 6 and 12] -/
opaque Config.freeValue : Nat → Word64

/-- Where a meaning needs many free values at once: each use has its own, by the counter and the place of the value. -/
inductive FreeUse where
  /-- LEN_EST with PERM zero (R297) -/
  | lenEst
  /-- a poisoned gradient in the statistics of a FACTORED entry (R270) -/
  | gradient
  /-- the rescale of a column of zeros (R275) -/
  | intCol
  /-- a register that a job's operands do not hold (R206) -/
  | jobReg
  /-- an element that no element of the second stream meets (R177) -/
  | second
  /-- a poisoned field of a stage's parameter block (R184 to R186) -/
  | blockField
  /-- the pounce of a RESCALE (R186) -/
  | pounce
  /-- a tile whose last row is short, transposed (R182) -/
  | transpose
  /-- a poisoned record of the image (R313, R315, R273) or state record (R260) -/
  | record
  deriving DecidableEq, Repr

/-- DESIGN CHOICE: log entry 12. -/
opaque Config.freeAt : FreeUse → Nat → Nat → Word64

/-- Fresh free bytes (nonces, challenges, payloads the manual does not lay out), by the same counter; the model takes
as many as the manual gives the field. [DESIGN CHOICE: log entry 12] -/
opaque Config.freeBytes : Nat → List Byte

/-- The check field of 128 data bits under the 144-bit storage code (R235): the manual gives the code's guarantees and not its
matrix. [DESIGN CHOICE: log entry 8] -/
opaque Config.checkField : BitVec 128 → BitVec 16

/-- The stepping of this device, four bits (DEV_ID.STEPPING is "Per device"). [DESIGN CHOICE: log entry 4] -/
opaque Config.stepping : BitVec 4

/-- The lowest and highest link-layer versions this package supports (R295). [DESIGN CHOICE: log entry 17] -/
opaque Config.linkVerMin : BitVec 4
/-- DESIGN CHOICE: log entry 17. -/
opaque Config.linkVerMax : BitVec 4

/-- The result of a FUNC stage within the error R180 allows: the function's number, and the operand as a lane float's code.
[DESIGN CHOICE: log entry 12] -/
opaque Config.funcResult : Nat → BitVec 64 → BitVec 64

/-- SLH-DSA verification (R447): parameter set (0 SHAKE-256s, 1 SHAKE-256f), public key, message, signature.
[DESIGN CHOICE: log entry 32] -/
opaque Config.slhVerify : Nat → List Byte → List Byte → List Byte → Bool

/-- SLH-DSA-SHAKE-256f signing, hedged (R460, R464): the seeds of the key, the message, and the number of the signature.
[DESIGN CHOICE: log entry 32] -/
opaque Config.slhSign : List Byte → List Byte → Nat → List Byte

/-- The public key of the SLH-DSA-SHAKE-256f key pair that three seeds give (R459). [DESIGN CHOICE: log entry 32] -/
opaque Config.slhPublic : List Byte → List Byte

/-- Irhal's manufacturing public key, and its signature over the body of the device certificate (R460).
[DESIGN CHOICE: log entry 32] -/
opaque Config.makerKey : List Byte
/-- DESIGN CHOICE: log entry 32. -/
opaque Config.makerSign : List Byte → List Byte

/-- Fuses that nothing changes (R448): the unique device secret, the key hashes by slot, the hardware epoch.
[DESIGN CHOICE: log entry 4] -/
opaque Config.uds : List Byte
/-- DESIGN CHOICE: log entry 4. -/
opaque Config.keyHash : Nat → List Byte
/-- DESIGN CHOICE: log entry 4. -/
opaque Config.hwe : BitVec 8

/-- Measurement 0, and measurement 4 as a function of the floors by type and the revocation bits: the manual does not lay out
what is hashed (R461). [DESIGN CHOICE: log entry 32] -/
opaque Config.romDigest : List Byte
/-- DESIGN CHOICE: log entry 32. -/
opaque Config.fuseDigest : Nat → Nat → Nat → Nat → List Byte

/-- The key slot and the public key that an unlock token's signature is checked with: the manual does not say where the token
carries them (R465). [DESIGN CHOICE: log entry 27] -/
opaque Config.tokenSlot : List Byte → Nat
/-- DESIGN CHOICE: log entry 27. -/
opaque Config.tokenKey : List Byte → List Byte

/-- The serial number of this device, eight bytes' worth. [DESIGN CHOICE: log entry 4] -/
opaque Config.serial : BitVec 64

/-- What the Device Serial Number capability of the functions shows (R418). [DESIGN CHOICE: log entry 30] -/
opaque Config.pcieSerial : BitVec 64

/-- The factory weights of the power estimate (R389), in joules per event at the reference voltage: domain and counter; a
numerator and a denominator. [DESIGN CHOICE: log entries 19 and 32] -/
opaque Config.powerWeight : Nat → Nat → Int × Nat

/-- The reference voltage V0 of R389, in millivolts. [DESIGN CHOICE: log entries 19 and 32] -/
opaque Config.powerV0 : Nat
/-- Which of a domain's rails, counted from its first, gives the domain's voltage V (R389), where its rails differ.
[DESIGN CHOICE: log entries 19 and 32] -/
opaque Config.domainRail : Nat → Nat

/-- The factory leakage table of the power estimate (R389), in watts: domain, VCORE in millivolts, and the hottest effective
temperature of the domain (a numerator and denominator in °C) where it is known. [DESIGN CHOICE: log entries 19 and 32] -/
opaque Config.powerLeakage : Nat → Nat → Option (Int × Nat) → Int × Nat

/-- The part of that leakage that is a die's (R389, the power map): tower, position, and the same inputs.
[DESIGN CHOICE: log entries 19 and 32] -/
opaque Config.dieLeakage : Nat → Nat → Nat → Option (Int × Nat) → Int × Nat

/-- Is a quantity shown in a register's whole units rounded up? The manual gives the units and not the rounding.
[DESIGN CHOICE: log entry 19] -/
opaque Config.roundsUp : Int → Nat → Bool

end Sys2Proof
end

