-- ==== Sys2Proof/Types.lean ====
section
/-! DEFINITION. The data that commands carry and the state holds: register accesses, originators, decode outcomes,
packets and frames, and the values the outside world gives. -/

namespace Sys2Proof

/-- Which part of a 64-bit register an access covers (R11). -/
inductive RegPart where
  | whole | lower | upper
deriving DecidableEq, Repr

/-- One write of a register that has a command of its own: the port it came through, the part it covers, and the
value written (32 bits for a half). -/
structure RegAccess where
  port : Port
  part : RegPart
  value : Nat
deriving DecidableEq, Repr

/-- The originators of R469. -/
inductive Orig where
  | core (n : Core)
  | port (p : Port)
  | dma (p : Port) (c : Fin 8)
  | tier (t : Tower)
  | update (t : Tower)
  | router (b : Tower)
  | mgmt
deriving DecidableEq, Repr

/-- A counter bank of R193 and R279: a core's, a crown's, or an update unit's. -/
inductive Bank where
  | core (n : Core)
  | crown (n : Tower)
  | update (t : Tower)
deriving DecidableEq, Repr

/-- The capability block of a link's partner (R295): HB_COORD and HB_PLANE as the partner's registers hold them. -/
structure Capability where
  product : Nat
  stepping : Nat
  link : Nat
  coord : Nat
  plane : Nat
  verMin : Nat
  verMax : Nat
deriving DecidableEq, Repr

/-- Bits of a word that have changed since it was encoded (R234 to R237): the address of the word, the bits of its 144 that
differ, and whether they changed in storage or only on the path to the consumer. A hit marked `later` is not the command's own: the
next read of the word that no operand speaks for meets it. -/
structure EccHit where
  addr : Nat
  error : Word144
  onPath : Bool
  later : Bool := false
deriving DecidableEq, Repr

/-- A matrix array of a core. -/
structure ArrayId where
  core : Core
  arr : Arr
deriving DecidableEq, Repr

/-- A channel of an input of the routers: a link, or 14 + b for the injection port of brim b (R286, R291). -/
structure InputVc where
  input : Fin 18
  vc : Fin 32
deriving DecidableEq, Repr

/-- A RED channel of an input of the routers (R286, R291). -/
structure InputRed where
  input : Fin 18
  chan : Fin 8
deriving DecidableEq, Repr

/-- An entry of a brim's combining store, by its place (R330). -/
structure StoreId where
  brim : Tower
  index : Nat
deriving DecidableEq, Repr

/-- A landing window: its bucket and the low byte of its step (R338). -/
structure WindowId where
  bucket : Nat
  step8 : Fin 256
deriving DecidableEq, Repr

/-- What goes wrong as a guarded copy is added to a chunk: the pieces at which the addition fails twice (R329), and the words of the
chunk's landing entries that decode as uncorrectable (R330). -/
structure CopyAdds where
  faults : List (Fin 16) := []
  bad : List Nat := []
deriving DecidableEq, Repr

/-- The same for every chunk that lands at a deadline, by its bucket chunk number (R329, R330). -/
structure LandAdds where
  faults : List (Nat × Fin 16) := []
  bad : List (Nat × Nat) := []
deriving DecidableEq, Repr

/-- A lane of a tower's update unit (R262). -/
structure LaneId where
  t : Tower
  lane : Fin 32
deriving DecidableEq, Repr

/-- A page copied between the tiers, and the words of the copy whose bits changed (R237, R244). -/
structure PageCopy where
  page : Nat
  hits : List EccHit
deriving DecidableEq, Repr

/-- A row copied by a tower's tier manager: the words of it, by their place in the row, whose bits changed (R237, R250). -/
structure RowCopy where
  t : Tower
  errors : List (Nat × Word144)
deriving DecidableEq, Repr

/-- What a receiver did with a part of a write that a lost through domain cut off (R29). -/
inductive CutOutcome where
  | old | new | poison
deriving DecidableEq, Repr

/-- Who waits for a write that is in flight: a control-core thread, another package (its coordinate and tag), a DMA channel,
or no agent that the model shows. -/
inductive CutSink where
  | thread (c : Core) (th : Thr)
  | fabric (b : Tower) (src tag : Nat)
  | dma (p : Port) (ch : Fin 8)
  | none
deriving DecidableEq, Repr

/-- A part of a write that was in flight when a through domain was lost. -/
structure Cut where
  orig : Orig
  addr : Nat
  data : List Byte
  outcome : CutOutcome
  sink : CutSink
deriving DecidableEq, Repr

/-- The two directions of a silt link: toward the crown, or toward the brim. -/
inductive SiltDir where
  | up | down
deriving DecidableEq, Repr

/-- What the outside world gives for data that a TLP or packet carries: a byte, or none where the data is poisoned. -/
abbrev DataByte := Option Byte

/-- Where a register write that an engine of the package performs comes from. -/
inductive Writer where
  /-- a host write through BAR0 -/
  | host (p : Port)
  /-- a store of a control-core thread -/
  | thread (th : Thr)
deriving DecidableEq, Repr

/-- The count of one activity counter over a 2 µs sample (R389): the die, the domain and the counter's place in the
domain's row of the table. -/
structure Activity where
  t : Tower
  p : Pos
  domain : Fin 7
  counter : Nat
  count : Nat
deriving DecidableEq, Repr

/-- The conditions of R416. -/
inductive CoolAlarm where
  | flow | inlet | outlet
deriving DecidableEq, Repr

/-- A reset of a port from outside (R420): PERST asserted, PERST deasserted, or a hot reset. -/
inductive PortResetKind where
  | assert | release | hot
deriving DecidableEq, Repr

/-- The capabilities of a function (R418). -/
inductive PcieCap where
  | express | powerManagement | msix | aer | resizableBar | serialNumber
deriving DecidableEq, Repr

/-- A request by which system software sets a function up: a read of a 32-bit register of the header, by its offset, or of a
capability, by its number in it; a write of what the manual names there: Memory Space Enable, the BAR2 size in GiB, the addresses
of BAR0, BAR2 and BAR4, the payload and read request sizes as 128 × 2^n bytes, MSI-X on and masked (R418, R419, R421, R431, R435);
and accesses to the MSI-X table and the PBA in BAR4, by 32-bit word (R426). -/
inductive CfgReq where
  | read (reg : Nat)
  | readCap (cap : PcieCap) (word : Nat)
  | memEnable (on : Bool)
  | bar2Size (log2Gib : Fin 9)
  | bar (k : Fin 3) (addr : Nat)
  | transfers (payload : Fin 3) (readRequest : Fin 6)
  | msixControl (enable mask : Bool)
  | tableRead (v : Fin 2048) (word : Fin 4)
  | tableWrite (v : Fin 2048) (word : Fin 4) (value : Nat)
  | pbaRead (word : Fin 64)
deriving DecidableEq, Repr

/-- What a power-fail sequence finds: the fraction of the second, and whether each write of its flush passes its read-back in brims 0 and 2,
in order (R473, R475); both do where none is listed. -/
structure FlushFacts where
  fraction : Fin 25000000
  writes : List (Bool × Bool) := []
deriving DecidableEq, Repr

/-- A place in the doorbell slots of BAR4 (R426): a queue, and the byte of its slot at which a write begins. -/
structure SlotPlace where
  q : Fin 1024
  off : Fin 64 := 0
deriving DecidableEq, Repr

/-- Where a fetch engine stands in its weighted round robin (R429): whether a new round begins with the command, and the OPs of the
commands at the heads of other queues, as the engine has seen them. -/
structure FetchRound where
  begins : Bool
  heads : List (Nat × Nat) := []
deriving DecidableEq, Repr

/-- What the regulator stage answers for a rail (R388): MFR_VOUT_MIN and MFR_VOUT_MAX in mV, MFR_IOUT_MAX and
IOUT_OC_FAULT_LIMIT in A, and the phases counted. -/
structure RailFacts where
  vmin : Nat
  vmax : Nat
  iout : Nat
  limit : Nat
  phases : Nat
deriving DecidableEq, Repr

/-- The copy of the boot state record that the ROM takes at boot (R442): the one with the higher sequence number, the other one
where the first fails its CRC, or neither. -/
inductive RecordCopy where
  | newer | older | neither
deriving DecidableEq, Repr

/-- What a boot finds outside the package's own state (R388, R414, R443, R444): the rails in PWR_RAIL's order, where they
answer; the coolant sensors; towers that fail to come up; the step, from 4 on, that the management controller completes last, where it
stops before step 8; and which copy of the boot state record passes its CRC (R442). -/
structure BootFacts where
  rails : List (Option RailFacts)
  inlet : Bool
  outlet : Bool
  failedTowers : List Tower
  hangs : Option (Fin 4)
  record : RecordCopy
  /-- whether each write of the flush that a warm reset begins passes its read-back in brims 0 and 2, in order (R473); both do where
  none is listed -/
  flush : List (Bool × Bool) := []
  /-- rails that are missing at boot step 7 (R498) -/
  missing : List (Fin 10) := []
deriving DecidableEq, Repr

/-- Accesses of the JTAG port (R465). -/
inductive JtagOp where
  | boundaryScan | idcode | dieRegister | scan
  | siltTest (on : Bool)
deriving DecidableEq, Repr

end Sys2Proof
end

