-- ==== Sys2Proof/Machine/Code.lean ====
section
/-! DEFINITION. The 144-bit storage code (R234 to R236): the 36 symbols of a word, the lane group that carries it, the
encoding of data and of poison, and the four outcomes of decoding. The manual gives the code's guarantees and not its check
matrix, so the check field of data is a free function of them. -/

namespace Sys2Proof.Machine

/-! ### Symbols, lanes and subarrays (R235) -/

/-- Data bits 127:0 of a word under the code. -/
def wordData (w : Word144) : BitVec 128 := w.extractLsb' 0 128

/-- Check bits 143:128. -/
def wordCheck (w : Word144) : BitVec 16 := w.extractLsb' 128 16

/-- Symbol i: bits 4i + 3 to 4i; symbols 0 to 31 are data, 32 to 35 check. -/
def wordSymbol (w : Word144) (i : Fin 36) : BitVec 4 := w.extractLsb' (4 * i.val) 4

/-- The symbol that a data lane of a lane group carries: lanes 4i to 4i + 3 carry symbol i. -/
def laneSymbol (lane : Fin 144) : Fin 36 := ⟨lane.val / 4, by omega⟩

/-- The lanes that carry a symbol. -/
def symbolLanes (i : Fin 36) : List (Fin 144) := (List.finRange 144).filter fun l => laneSymbol l == i

/-- The subarray of a DRAM word that a symbol comes from, of the 36 the word spans: each symbol comes from one.
[DESIGN CHOICE: log entry 8] -/
def symbolSubarray (i : Fin 36) : Fin 36 := i

/-- A word with a pattern in one symbol and zeros elsewhere. -/
def symbolError (i : Fin 36) (e : BitVec 4) : Word144 := e.setWidth 144 <<< (4 * i.val)

/-- What a failed TSV puts on a word: the bit of its lane. -/
def laneError (lane : Fin 144) : Word144 := 1#144 <<< lane.val

/-- The symbols in which a word is not zero. -/
def symbolsHit (e : Word144) : List (Fin 36) := (List.finRange 36).filter fun i => wordSymbol e i != 0

/-! ### Encoding -/

/-- A word from its data and its check field. -/
def wordOf (d : BitVec 128) (c : BitVec 16) : Word144 := c ++ d

/-- The check field of data; zero for zero data. [DESIGN CHOICE: log entry 8] -/
def checkBits (d : BitVec 128) : BitVec 16 := Config.checkField d ^^^ Config.checkField 0

/-- Data under the code. -/
def encode144 (d : BitVec 128) : Word144 := wordOf d (checkBits d)

/-- The syndrome of a word: zero for every word that `encode144` gives. -/
def syndrome (w : Word144) : BitVec 16 := wordCheck w ^^^ checkBits (wordData w)

/-- The poison syndrome (R236). -/
def poisonSyndrome : BitVec 16 := 0x9C35

/-- The poison encoding: 128 zero data bits with the check field 0x9C35 (R236). -/
def poisonWord : Word144 := wordOf 0 poisonSyndrome

/-- What storage holds of a word: its data, or poison. -/
def storedWord (poisoned : Bool) (d : BitVec 128) : Word144 := if poisoned then poisonWord else encode144 d

/-! ### Decoding (R236) -/

/-- The outcomes of decoding a word. -/
inductive Decoded where
  | clean (d : BitVec 128)
  | corrected (d : BitVec 128)
  | poison
  | uncorrectable
deriving DecidableEq, Repr

/-- The word of the code that differs from a word in exactly one symbol, if there is one. -/
def oneSymbolFrom (w : Word144) : Option Word144 :=
  ((List.finRange 36).flatMap fun i => (List.range 15).map fun e => w ^^^ symbolError i (BitVec.ofNat 4 (e + 1))).find?
    fun v => syndrome v == 0

/-- Decode a stored word of which some bits have changed. The code's guarantees come first: a word of the code with one symbol
in error is corrected and with two is uncorrectable; poison with one symbol in error is no other syndrome's, and with two its
syndrome is neither zero nor the poison syndrome. Beyond them the syndrome decides. [DESIGN CHOICE: log entry 8] -/
def decode144 (poisoned : Bool) (d : BitVec 128) (error : Word144) : Decoded :=
  match poisoned, (symbolsHit error).length with
  | false, 0 => .clean d
  | true, 0 => .poison
  | false, 1 => .corrected d
  | false, 2 => .uncorrectable
  | true, 1 => .uncorrectable
  | true, 2 => match oneSymbolFrom (poisonWord ^^^ error) with
    | some v => .corrected (wordData v)
    | none => .uncorrectable
  | _, _ =>
    let w := storedWord poisoned d ^^^ error
    if syndrome w = 0 then .clean (wordData w)
    else if syndrome w = poisonSyndrome then .poison
    else match oneSymbolFrom w with
      | some v => .corrected (wordData v)
      | none => .uncorrectable

/-- A consumer treats the word as poison (R237). -/
def Decoded.bad : Decoded → Bool
  | .poison | .uncorrectable => true
  | _ => false

end Sys2Proof.Machine
end

