-- ==== Sys2Proof/Machine/Events.lean ====
section
/-! DEFINITION. The event codes and severities of R470, the units of SOURCE and the payload packing of R468 and R469. -/

namespace Sys2Proof.Machine

/-- The events of R470. -/
inductive Event where
  | recorderCleared | suppressionSummary | powerOn | powerFail | warmReset | towerReset | jobReset | portReset | functionLevelReset | lowPowerEntry | lowPowerExit | rejectedWrite | mramFlushFailure | recordsLost
  | throughDomainLost | throughDomainRestored | towerIsolated | siltLinkFailure | bridgeFailure | sleepEntryAbandoned
  | arrayCommandError | accumulatorPoison | accumulatorDescriptorError | vectorCommandError | flexJobError
  | addressFault | storageUncorrectable | poisonConsumed | rowSpared | rowSpareExhausted | laneGroupFailed | pageHomeLost
  | contributionCount | updatePoison | replicaDivergence | digestInvalid
  | miswire | fabricTimeout | packageFenced | logicalPositionLost
  | reductionIntegrity | adderFault | legUnroutable | recoveryComplete | shardsLost
  | imageShaped | remoteAddLost | rejectedUrgent
  | avsbusFault | regulatorUnsuitable | estimateFallback | estimateCalibrated | capUnmet | supplyDip | supplyReset | sensorFault | sensorModelDisagreement | thermalTrip | coolantAlarm | coolantSensorAbsent | brimTemperatureAlert
  | hostHoldTimeout | tokenChange
  | bootComplete | microcodeLoad | firmwareReverted | debugUnlock | failover
deriving DecidableEq, Repr

/-- The code of an event (R470). -/
def Event.code : Event → Nat
  | .recorderCleared => 0x0001
  | .suppressionSummary => 0x0002
  | .powerOn => 0x0003
  | .powerFail => 0x0004
  | .warmReset => 0x0005
  | .towerReset => 0x0006
  | .jobReset => 0x0007
  | .portReset => 0x0008
  | .functionLevelReset => 0x0009
  | .lowPowerEntry => 0x000A
  | .lowPowerExit => 0x000B
  | .rejectedWrite => 0x000C
  | .mramFlushFailure => 0x000D
  | .recordsLost => 0x000E
  | .throughDomainLost => 0x0101
  | .throughDomainRestored => 0x0102
  | .towerIsolated => 0x0103
  | .siltLinkFailure => 0x0104
  | .bridgeFailure => 0x0105
  | .sleepEntryAbandoned => 0x0106
  | .arrayCommandError => 0x0201
  | .accumulatorPoison => 0x0202
  | .accumulatorDescriptorError => 0x0203
  | .vectorCommandError => 0x0204
  | .flexJobError => 0x0205
  | .addressFault => 0x0301
  | .storageUncorrectable => 0x0302
  | .poisonConsumed => 0x0303
  | .rowSpared => 0x0304
  | .rowSpareExhausted => 0x0305
  | .laneGroupFailed => 0x0306
  | .pageHomeLost => 0x0307
  | .contributionCount => 0x0401
  | .updatePoison => 0x0402
  | .replicaDivergence => 0x0403
  | .digestInvalid => 0x0404
  | .miswire => 0x0501
  | .fabricTimeout => 0x0502
  | .packageFenced => 0x0503
  | .logicalPositionLost => 0x0504
  | .reductionIntegrity => 0x0601
  | .adderFault => 0x0602
  | .legUnroutable => 0x0603
  | .recoveryComplete => 0x0604
  | .shardsLost => 0x0605
  | .imageShaped => 0x0701
  | .remoteAddLost => 0x0702
  | .rejectedUrgent => 0x0703
  | .avsbusFault => 0x0801
  | .regulatorUnsuitable => 0x0802
  | .estimateFallback => 0x0803
  | .estimateCalibrated => 0x0804
  | .capUnmet => 0x0805
  | .supplyDip => 0x0806
  | .supplyReset => 0x0807
  | .sensorFault => 0x0808
  | .sensorModelDisagreement => 0x0809
  | .thermalTrip => 0x080A
  | .coolantAlarm => 0x080B
  | .coolantSensorAbsent => 0x080C
  | .brimTemperatureAlert => 0x080D
  | .hostHoldTimeout => 0x0901
  | .tokenChange => 0x0902
  | .bootComplete => 0x0A01
  | .microcodeLoad => 0x0A02
  | .firmwareReverted => 0x0A03
  | .debugUnlock => 0x0A04
  | .failover => 0x0A05

/-- The severity of an event (R470). -/
def Event.sev : Event → Nat
  | .powerOn | .lowPowerEntry | .lowPowerExit | .imageShaped | .estimateCalibrated => 0
  | .bootComplete => 0
  | .recorderCleared | .suppressionSummary | .jobReset | .portReset | .functionLevelReset => 1
  | .rejectedWrite | .throughDomainRestored | .sleepEntryAbandoned | .rowSpared | .recoveryComplete => 1
  | .supplyDip | .tokenChange => 1
  | .siltLinkFailure | .arrayCommandError | .accumulatorDescriptorError | .vectorCommandError | .flexJobError => 2
  | .addressFault | .poisonConsumed | .rowSpareExhausted | .contributionCount | .digestInvalid => 2
  | .miswire | .fabricTimeout | .reductionIntegrity | .remoteAddLost | .rejectedUrgent => 2
  | .avsbusFault | .estimateFallback | .capUnmet | .sensorFault | .sensorModelDisagreement => 2
  | .coolantSensorAbsent | .brimTemperatureAlert | .hostHoldTimeout | .firmwareReverted | .debugUnlock => 2
  | .powerFail | .warmReset | .towerReset | .mramFlushFailure | .recordsLost => 3
  | .throughDomainLost | .bridgeFailure | .accumulatorPoison | .storageUncorrectable | .laneGroupFailed => 3
  | .pageHomeLost | .updatePoison | .replicaDivergence | .logicalPositionLost | .adderFault => 3
  | .legUnroutable | .regulatorUnsuitable | .supplyReset | .coolantAlarm | .microcodeLoad => 3
  | .failover => 3
  | .towerIsolated | .packageFenced | .shardsLost | .thermalTrip => 4

/-- SOURCE (R468): bits 7:6 tower, bits 5:3 position code, bits 2:0 unit. -/
def source (tower pos unit : Nat) : Nat := (tower % 4) * 64 + (pos % 8) * 8 + unit % 8

/-- A payload value and the bytes it takes (R469). -/
abbrev PayVal := Nat × Nat

def pv1 (v : Nat) : PayVal := (v, 1)
def pv2 (v : Nat) : PayVal := (v, 2)
def pv3 (v : Nat) : PayVal := (v, 3)
def pv4 (v : Nat) : PayVal := (v, 4)
def pv6 (v : Nat) : PayVal := (v, 6)

/-- The 16 payload bytes: the values in order from byte 0, zeros beyond the last (R469). -/
def payload (vs : List PayVal) : List Byte :=
  padBytes 16 (vs.flatMap fun v => leBytes v.2 v.1)

end Sys2Proof.Machine
end

