-- ==== Sys2Proof/Machine/BootTypes.lean ====
section
/-! DEFINITION. What boot, firmware update and attestation keep beside their registers (15). -/

namespace Sys2Proof.Machine

/-- A firmware type in the boot state record (R442), and the bank that has been in use since boot. -/
structure FwType where
  /-- active bank: 0 is A, 1 is B -/
  active : Nat := 0
  /-- banks that are VALID -/
  valid : List Nat := []
  pending : Bool := false
  trial : Bool := false
  result : Nat := 0
  inUse : Option Nat := none
deriving DecidableEq, Repr

/-- Where an MCTP request came from: 0 SMBus, 1 and 2 the ports; its command code and its instance. -/
structure MctpFrom where
  path : Nat
  cmd : Nat
  inst : Nat
deriving DecidableEq, Repr

/-- An update operation that has not ended: its OP, the firmware type it acts on (0 to 2 for types 1 to 3), its result, and the
MCTP request to answer. -/
structure UpdOp where
  op : Nat
  type : Nat
  result : Nat
  from_ : Option MctpFrom := none
deriving DecidableEq, Repr

/-- An MCTP update session (R454): the type (0 to 2 for types 1 to 3), the length, and the bytes that have come. -/
structure UpdSession where
  type : Nat
  len : Nat
  data : List (Nat × Option Byte) := []
deriving DecidableEq, Repr

/-- The whole. -/
structure BootSt where
  /-- the copy of the boot state record with the higher sequence number, in MRAM (R442): 0 the management controller, 1 the
  microcode, 2 the SerDes firmware -/
  types : List (Nat × FwType) := []
  /-- its other copy: the record before the last update (R442) -/
  older : List (Nat × FwType) := []
  /-- the higher sequence number (R442) -/
  recordSeq : Nat := 0
  /-- bank contents in MRAM (R441): copy × 6 + type × 2 + bank, copy 0 in brim 0 and 1 in brim 2 -/
  banks : List (Nat × List Byte) := []
  /-- fuses that COMMIT programs (R448, R458): revoked key slots by bit, and floors by type -/
  revoked : Nat := 0
  floors : List (Nat × Nat) := []
  /-- measurements 1 to 5 (R461) -/
  measured : List (Nat × List Byte) := []
  /-- signatures made since manufacture, in MRAM (R464) -/
  signatures : Nat := 0
  /-- SHAKE256 of the microcode in the store (R452) -/
  store : Option (List Byte) := none
  /-- the SerDes firmware runs (R443, R450) -/
  serdes : Bool := false
  op : Option UpdOp := none
  /-- GET_MEASUREMENTS requests that need a signature, in arrival order with their data: the first is being served, the others wait
  (R463) -/
  signing : List (MctpFrom × List Byte) := []
  /-- the rails that were missing at boot step 7, in PWR_RAIL's order (R498) -/
  missing : List Nat := []
  session : Option UpdSession := none
  /-- MODEL: the number of the alias certificate's signature, drawn at boot (R460) -/
  aliasNo : Nat := 0
  /-- MCTP endpoint IDs by path (R462) -/
  eids : List (Nat × Nat) := []
  /-- the latest debug challenge of this power cycle (R465), and the scope bits unlocked -/
  challenge : Option (List Byte) := none
  scope : Nat := 0
  /-- the silt channel is in test mode (R34, R465) -/
  siltTest : Bool := false
  /-- brims that run on their internal oscillator (R501) -/
  oscillator : List Nat := []
  /-- MODEL: how often the standby's wait for the active controller's signal has started (R466) -/
  standbyTimer : Nat := 0
deriving DecidableEq, Repr

end Sys2Proof.Machine
end

