-- ==== Sys2Proof/Syntax.lean ====
section
/-! DEFINITION. The commands of the block: one constructor per row of spec/opcode_table.json, in the table's order. -/

namespace Sys2Proof

/-- A command: what the outside world or an agent of the package does next. -/
inductive Instr where
  /-- REGISTER_WRITE (R7). A host write to a BAR0 register field without a row of its own acts field by field under its access code. -/
  | registerWrite (port : Port) (off : Nat) (size : Nat) (value : Nat)
  /-- READ_CLEAR (R7). A read of an RC field returns its value and then clears it. -/
  | readClear (port : Port) (tag : Nat) (off : Nat) (size : Nat)
  /-- SINGLE_HORIZON_LOGIC_RESET (R22). A horizon's logic enters reset while its controller holds every request addressed to it. -/
  | singleHorizonLogicReset (t : Tower) (h : Horizon)
  /-- HORIZON_RESET_ENDS (R22). When the horizon's logic reset ends, the controller issues the refreshes that fell due and serves the held requests in arrival order. -/
  | horizonResetEnds (t : Tower) (h : Horizon)
  /-- CACHE_DIE_LEAVES_RESET (R23). A cache die leaving reset accepts the requests that the brim's bridge ports held by back-pressure, in arrival order. -/
  | cacheDieLeavesReset (t : Tower)
  /-- TOWER_SLEEP_ENTRY (R25). An idle tower's pages are written back, admission to its uplink and memory channels stops, and its paths begin to drain. -/
  | towerSleepEntry (t : Tower)
  /-- TOWER_IDLE (R485). SLEEP_MS passes with no access that counts while the tower may sleep, starting tower sleep entry. -/
  | towerIdle (t : Tower)
  /-- DRAIN_END (R25). Every repeater stage reports empty, lanes are parked and the through-domain switches open from the top down. -/
  | drainEnd (t : Tower)
  /-- SLEEP_ENTRY_ABANDONED (R25). The drain has not finished within 20 µs, so admission resumes and a sleep-entry-abandoned event is recorded. -/
  | sleepEntryAbandoned (t : Tower)
  /-- TOWER_SLEEP_EXIT (R26). An access or SHAPE wakes the tower: switches close from the bottom up and the uplink and memory lanes retrain. -/
  | towerSleepExit (t : Tower)
  /-- LANE_TRAINING_COMPLETE (R26). Training completes on every lane group of a tower, and the tier manager admits transfers again. -/
  | laneTrainingComplete (t : Tower)
  /-- THROUGH_DOMAIN_LOST (R28). A power-good monitor signals the loss of a through domain, and the transfers crossing it complete with PATH_LOST. -/
  | throughDomainLost (t : Tower) (p : Fin 7) (cuts : List Cut)
  /-- THROUGH_DOMAIN_RESTORE (R31). 10 ms after a loss the management controller closes the switch once and retrains the lanes crossing the domain. -/
  | throughDomainRestore (t : Tower) (p : Fin 7) (ok : Bool)
  /-- SILT_REGISTER_READ (R35). A silt frame of type register read is received whole, checked, acknowledged and forwarded or served. -/
  | siltRegisterRead (t : Tower) (p : Pos) (dir : SiltDir) (frame : List Byte)
  /-- SILT_REGISTER_WRITE (R35). A silt frame of type register write is received whole, checked, acknowledged and forwarded or served. -/
  | siltRegisterWrite (t : Tower) (p : Pos) (dir : SiltDir) (frame : List Byte)
  /-- SILT_READ_RESPONSE (R35). A silt frame of type read response is received whole, checked, acknowledged and forwarded or consumed. -/
  | siltReadResponse (t : Tower) (p : Pos) (dir : SiltDir) (frame : List Byte)
  /-- SILT_BULK_DATA (R35). A silt frame of type bulk data is received whole, checked, acknowledged and forwarded or consumed. -/
  | siltBulkData (t : Tower) (p : Pos) (dir : SiltDir) (frame : List Byte)
  /-- SILT_LOG_RECORD (R35). A silt frame of type log record is received whole, checked, acknowledged and forwarded or consumed. -/
  | siltLogRecord (t : Tower) (p : Pos) (dir : SiltDir) (frame : List Byte)
  /-- SILT_ACKNOWLEDGE (R36). A silt acknowledge frame arrives and ends the sender's wait for the acknowledged frame. -/
  | siltAcknowledge (t : Tower) (p : Pos) (dir : SiltDir) (frame : List Byte)
  /-- SILT_ACK_TIMEOUT (R36). No acknowledgement arrives within 4 µs and the sender resends the frame, up to 8 times. -/
  | siltAckTimeout (t : Tower) (p : Pos) (dir : SiltDir)
  /-- BRIDGE_FAILURE (R39). A bridge fails beyond its spare lanes, its traffic is rerouted round the ring and a bridge-failure event is recorded. -/
  | bridgeFailure (bridge : Fin 4)
  /-- ACMD (R358). A control-core instruction writes a register value as a command into the F-array or B-array command queue, waiting while it is full. -/
  | acmd (core : Core) (thread : Thr)
  /-- LOAD (R89). A LOAD command leaves its queue and begins reading a stationary into the array's shadow words. -/
  | load (core : Core) (arr : Arr) (hits : List EccHit)
  /-- SHADOW_VALID (R89). The last cell row of a shadow load is written and the shadow becomes valid. -/
  | shadowValid (core : Core) (arr : Arr)
  /-- SWAP (R90). A SWAP exchanges shadow and live words, with their scales and class, at one cycle boundary. -/
  | swap (core : Core) (arr : Arr)
  /-- STREAM (R82). A STREAM command reaches the head of its queue, is checked against the tile and live stationary, and leaves the queue at its first row. -/
  | stream (core : Core) (arr : Arr)
  /-- TRANSPOSE_FILL (R200). The fill of a transposed STREAM's transpose buffer begins once it is the earliest STREAM not yet issuing. -/
  | transposeFill (array : ArrayId) (hits : List EccHit)
  /-- WORK_ROW (R85). A stream row issues at the array edge and its column sums are accumulated into the tile. -/
  | workRow (core : Core) (arr : Arr) (hits : List EccHit) (fhits : List EccHit)
  /-- FILLER_ROW (R101). In a scheduled cycle without a ready work row the array issues a filler row whose sums are discarded. -/
  | fillerRow (array : ArrayId) (delayed : Bool)
  /-- UP_SLOT_REQUEST (R104). A work row becomes ready for an idle or ramping-down array, which requests an up-slot. -/
  | upSlotRequest (core : Core) (arr : Arr)
  /-- DOWN_SLOT_REQUEST (R103). A full array has had no work row for HOLD cycles and requests a down-slot. -/
  | downSlotRequest (core : Core) (arr : Arr)
  /-- SLOT_BOUNDARY (R105). At each 32-cycle slot boundary the fuller coordinator grants up-slots and down-slots within the quotas. -/
  | slotBoundary (n : Tower) (elapsed : Bool)
  /-- RAMP_STEP (R102). Every 6 cycles of a ramp the array's duty moves one eighth up or down. -/
  | rampStep (array : ArrayId) (hold : Fin 8)
  /-- RAMP_END (R102). A 48-cycle ramp ends, leaving the array full after a ramp-up or idle after a ramp-down. -/
  | rampEnd (core : Core) (arr : Arr)
  /-- ARRAY_PREEMPTION (R512). The preempt command reaches an array, which stops issuing work rows of the preempted command and heads for a ramp-down according to its fuller state. -/
  | arrayPreemption (array : ArrayId) (rows : Nat) (fhits : List EccHit)
  /-- CRN_FULLER_CFG_WRITE (R114). A write to the fuller quotas and HOLD is clamped and takes effect from the next slot boundary after it. -/
  | crnFullerCfgWrite (n : Tower) (acc : RegAccess)
  /-- SLOT_DESCRIPTOR_WRITE (R119). A write to an accumulator tile slot descriptor is checked and either installed or refused. -/
  | slotDescriptorWrite (core : Core) (arr : Arr) (sl : Fin 16) (acc : RegAccess)
  /-- DEFERRED_DESCRIPTOR_WRITE (R120). A control-core descriptor write that waited for commands naming the slot takes effect once none remains. -/
  | deferredDescriptorWrite (core : Core) (arr : Arr)
  /-- DRAIN (R132). A DRAIN command passes to the drain engine, which reads the rescale record, samples its chain and begins reading the tile. -/
  | drain (core : Core) (arr : Arr) (hits : List EccHit)
  /-- DRAIN_COMPLETE (R133). The drain engine hands the tile's last row to the chain and becomes free, returning the VOP to both halves. -/
  | drainComplete (core : Core) (arr : Arr) (hits : List EccHit) (fhits : List EccHit)
  /-- QPARAM (R146). A QPARAM command at the head of its queue sets the array's stream and stationary zero points. -/
  | qparam (core : Core) (arr : Arr)
  /-- ACCUMULATOR_SAVE (R137). The save engine writes the outgoing unit's slot descriptors and footprint range into a save record. -/
  | accumulatorSave (core : Core) (arr : Arr) (fhits : List EccHit)
  /-- SAVE_COMPLETE (R140). The save record is committed, and the urgent stationary load may begin on the shared path. -/
  | saveComplete (core : Core) (arr : Arr)
  /-- ACCUMULATOR_RESTORE (R139). On resumption the save engine checks the record and restores the saved range and descriptors, or refuses it. -/
  | accumulatorRestore (core : Core) (arr : Arr) (hits : List EccHit)
  /-- VCMD (R358). A control-core instruction writes a command into the vector command queue, waiting while it is full. -/
  | vcmd (core : Core) (thread : Thr)
  /-- VOP (R173). A VOP at the head of the vector queue samples its registers, reads parameter blocks and tables, is checked and starts its chain. -/
  | vop (core : Core) (hits : List EccHit) (buf : List Nat)
  /-- VOP_END (R192). A VOP's last store completes, including any TOSCAL write, and the operation ends. -/
  | vopEnd (core : Core)
  /-- CHAIN_DESCRIPTOR_WRITE (R195). A host write to a chain header or stage entry is discarded during a step or checked and installed between steps. -/
  | chainDescriptorWrite (core : Core) (d : Fin 16) (st : Option (Fin 8)) (acc : RegAccess)
  /-- CNT_SEL (R194). A write to a counter bank's selection latches the three or four counters of the selected format and class. -/
  | cntSel (bank : Bank) (acc : RegAccess)
  /-- CLR_ALL (R194). A write of CLR_ALL clears every counter of a bank and its latched values. -/
  | clrAll (bank : Bank) (acc : RegAccess)
  /-- CLR_SEL (R194). A write of CLR_SEL clears the counters of the selected pair and their latched values. -/
  | clrSel (bank : Bank) (acc : RegAccess)
  /-- FLEX_POST (R207). A write of a descriptor address to CRN_FLEX_POST copies a flex job into the scheduler's table or discards it. -/
  | flexPost (core : Core) (w : Writer) (value : Nat)
  /-- JOB_ASSIGNMENT (R209). The scheduler assigns the earliest-posted ready job to an array that can take one and begins entering its commands. -/
  | jobAssignment (core : Core)
  /-- LD (R358). A control-core load reads a 64-bit word into a register once its data arrive. -/
  | ld (core : Core) (thread : Thr) (hits : List EccHit)
  /-- ST (R358). A control-core store writes a register to a device-physical address or through the local register path. -/
  | st (core : Core) (thread : Thr)
  /-- ALU (R358). A control-core ALU instruction writes RA op RB to RD. -/
  | alu (core : Core) (thread : Thr)
  /-- ADDI (R358). A control-core instruction adds a sign-extended immediate to RA. -/
  | addi (core : Core) (thread : Thr)
  /-- LIX (R358). A control-core instruction shifts RD left by 18 and ors in an immediate. -/
  | lix (core : Core) (thread : Thr)
  /-- BR (R358). A control-core conditional branch. -/
  | br (core : Core) (thread : Thr)
  /-- JMP (R358). A control-core unconditional branch. -/
  | jmp (core : Core) (thread : Thr)
  /-- SADD (R358). A control-core instruction adds to a sync object, ordered after the thread's earlier stores. -/
  | sadd (core : Core) (thread : Thr)
  /-- SSET (R358). A control-core instruction sets a sync object. -/
  | sset (core : Core) (thread : Thr)
  /-- SWAIT (R358). A control-core instruction starts waiting for a sync object to reach a value. -/
  | swait (core : Core) (thread : Thr)
  /-- SYNC_WAIT_SATISFIED (R370). A sync-object change reaches a waiter, which then sees every store the change is ordered after. -/
  | syncWaitSatisfied (core : Core) (thread : Thr)
  /-- RADD (R372). A control-core instruction sends a remote add to a sync object of another package. -/
  | radd (core : Core) (thread : Thr)
  /-- FENCE (R358). A control-core instruction waits until every earlier store of the thread and its engines has completed. -/
  | fence (core : Core) (thread : Thr)
  /-- END (R358). A control-core instruction completes the work unit once its remote adds are answered, adding to SIGNAL. -/
  | endUnit (core : Core) (thread : Thr)
  /-- RESERVED_OPCODE (R358). An instruction with a reserved opcode or field value ends its work unit with an error. -/
  | reservedOpcode (core : Core) (thread : Thr)
  /-- CORRECTED_WRITE_BACK (R237). A corrected word is written back to storage within the scrub share. -/
  | correctedWriteBack (t : Tower)
  /-- STAGE_IN_COMMIT (R244). A page being staged in has no block left to copy and commits in one cycle, becoming RESIDENT. -/
  | stageInCommit (copy : PageCopy)
  /-- WRITE_BACK_COMMIT (R244). A page being written back commits and becomes ABSENT, or HOME_LOST when the write-back met PATH_LOST. -/
  | writeBackCommit (copy : PageCopy)
  /-- PAGE_ENGINE_START (R246). The page engine begins the next queued stage-in or write-back in its class order once a frame and bandwidth are available. -/
  | pageEngineStart (t : Tower)
  /-- FRAME_ZEROING (R245). A freed near-tier frame is zeroed in the background within the reserved cycles. -/
  | frameZeroing (t : Tower)
  /-- DRAM_REFRESH (R248). A refresh falls due on a memory channel and is issued within its share. -/
  | dramRefresh (t : Tower) (channel : Fin 320)
  /-- PATROL_SCRUB (R249). The scrub engine reads the next word of its tier and acts on the decode outcome. -/
  | patrolScrub (t : Tower) (deep : Bool) (error : Word144)
  /-- ROW_SPARING (R250). A qualifying DRAM row is copied into a spare row and accesses are redirected, recording a row-spared event. -/
  | rowSparing (copy : RowCopy)
  /-- LANE_HEALTH_CHECK (R251). A test beat measures the lanes of a lane group and marks a failing lane for sparing. -/
  | laneHealthCheck (t : Tower) (group : Fin 544) (lane : Fin 148) (bad : Bool)
  /-- LANE_TAKEOVER (R251). After 1,024 compared beats the spare lane takes over at a beat boundary. -/
  | laneTakeover (t : Tower) (group : Fin 544)
  /-- TIER_CFG_WRITE (R255). A write to TIER_CFG is clamped and takes effect at the next 512-byte block the page or scrub engine begins. -/
  | tierCfgWrite (t : Tower) (acc : RegAccess)
  /-- TELEMETRY_SNAPSHOT (R248). Every 1 ms a telemetry snapshot is written to the near tier of tower 0, or brim 0 SRAM while tower 0 sleeps. -/
  | telemetrySnapshot
  /-- SENSOR_CALIBRATION (R248). Every 10 s the temperature sensors are calibrated. -/
  | sensorCalibration (failed : List (Tower × Pos × Nat))
  /-- CHUNK_TAKEN (R262). A free sweep lane takes the earliest ready chunk in plan order, prepares its gradients and applies the entry's rule. -/
  | chunkTaken (lane : LaneId) (hits : List EccHit)
  /-- CHUNK_COMMIT (R263). A chunk's last stores complete, it commits and its GRADBUF and STATE pages are released. -/
  | chunkCommit (t : Tower) (entry : Nat) (chunk : Nat)
  /-- MEASURING_PRE_PASS (R269). A LAMB entry measures each chunk's norms and, once all are summed in order, writes RATIO. -/
  | measuringPrePass (t : Tower) (hits : List EccHit)
  /-- STATISTICS_PRE_PASS (R270). When every chunk of a FACTORED entry has landed, its row and column statistics are recomputed. -/
  | statisticsPrePass (t : Tower) (hits : List EccHit)
  /-- COPY_REGENERATION (R276). The copy engine begins regenerating an entry's working copies from the master after its last commit or delivery. -/
  | copyRegeneration (entry : Nat) (hits : List EccHit)
  /-- ENTRY_COMPLETE (R265). An entry's copies are written and its chunks committed, so DONE_SYNC gains 1 and its digest is computed. -/
  | entryComplete (entry : Nat)
  /-- REGEN (R280). A write of REGEN regenerates every copy of every entry, or is discarded and recorded. -/
  | regen (acc : RegAccess)
  /-- DATA_FRAME (R285). A data frame is received, checked by FEC and FCRC, accepted in sequence or answered with NAK, and its flits and credits taken. -/
  | dataFrame (link : Link) (ok : Bool) (corrected : Nat) (frame : List Byte)
  /-- NOTICE_FRAME (R304). A notice frame is received and its failure notices are taken. -/
  | noticeFrame (link : Link) (ok : Bool) (corrected : Nat) (frame : List Byte)
  /-- FENCE_FRAME (R305). A fence frame is received and the link to the fenced package goes to FENCED. -/
  | fenceFrame (link : Link) (ok : Bool) (corrected : Nat) (frame : List Byte)
  /-- TRAINING_FRAME (R295). A training frame is received during link bring-up, carrying training data or a capability block. -/
  | trainingFrame (link : Link) (block : Option Capability)
  /-- LINK_DOWN (R287). Signal loss, no accepted frame or an unacknowledged frame passes its limit, and the link is declared DOWN. -/
  | linkDown (link : Link) (reason : Fin 3)
  /-- PARTNER_DETECTED (R294). A link in DETECT finds its partner's signal and enters TRAIN. -/
  | partnerDetected (link : Link)
  /-- TRAIN_COMPLETE (R297). Equalisation and adaptation end with insertion loss measured, and the link enters ALIGN. -/
  | trainComplete (link : Link) (il : Nat)
  /-- ALIGN_COMPLETE (R294). Codeword and frame lock are reached with an error ratio below 10^-4, and the link enters EXCHANGE. -/
  | alignComplete (link : Link)
  /-- CAPABILITY_EXCHANGE (R295). The partner's capability block is received, checked for product and version, and flight time measured. -/
  | capabilityExchange (link : Link) (block : Capability) (flight : Nat)
  /-- VERIFY (R296). With valid coordinates a held link checks its wiring and becomes ACTIVE, STANDBY or FAILED. -/
  | verify (link : Link)
  /-- LINK_STATE_TIMEOUT (R294). TRAIN, ALIGN or EXCHANGE exceeds its time limit and the link goes DOWN. -/
  | linkStateTimeout (link : Link) (ratio : Bool)
  /-- DOWN_IDLE_EXPIRY (R294). A DOWN link's 10 ms idle ends and it retrains, or goes to FAILED after the third attempt. -/
  | downIdleExpiry (link : Link)
  /-- LINK_ACTIVATE (R310). A write of ACTIVATE moves a STANDBY link to ACTIVE. -/
  | linkActivate (link : Link) (acc : RegAccess)
  /-- RETRAIN (R310). A write of RETRAIN moves a FAILED or FENCED link to TRAIN and resets ATTEMPTS. -/
  | retrain (link : Link) (acc : RegAccess)
  /-- LINK_EN (R294). A write of EN sets a link to DETECT or sends it to OFF from any state. -/
  | linkEn (link : Link) (acc : RegAccess)
  /-- HB_COORD_WRITE (R311). A write of the package's coordinate is discarded while shaped or with a link ACTIVE, otherwise released links from HOLD. -/
  | hbCoordWrite (acc : RegAccess)
  /-- HB_PLANE_WRITE (R311). A write of the plane sizes is discarded while shaped or with a link ACTIVE, otherwise taken. -/
  | hbPlaneWrite (acc : RegAccess)
  /-- PACKET_FORWARD (R299). A router takes a packet header, decrements HOPS and routes it in dimension order or ejects it. -/
  | packetForward (place : InputVc) (bad : List Nat)
  /-- READ_REQUEST (R292). A REQ read packet arrives at its destination, is checked and answered with read data. -/
  | readRequest (hits : List EccHit)
  /-- WRITE_REQUEST (R292). A REQ write packet arrives, is checked, is written and is acknowledged. -/
  | writeRequest
  /-- READ_DATA (R292). An RSP read-data packet arrives and completes its request at the originator. -/
  | readData
  /-- WRITE_ACKNOWLEDGEMENT (R292). An RSP write acknowledgement arrives and completes its request at the originator. -/
  | writeAcknowledgement
  /-- REQ_TIMEOUT (R293). A request's response has not arrived within REQ_TIMEOUT, so it completes with PATH_LOST and a fabric-timeout event is recorded. -/
  | reqTimeout (tag : Nat)
  /-- FAILURE_NOTICE (R304). A new failure notice is entered in the package's tables and sent on every other ACTIVE and STANDBY link. -/
  | failureNotice
  /-- DECLARE_NEIGHBOUR_FAILED (R305). Both links of one direction to a neighbour stay not ACTIVE for HOLDOFF, and the package sends a failure notice. -/
  | declareNeighbourFailed (dir : Fin 7)
  /-- BUCKET_RELEASE (R314). A bucket's READY object reaches READYVAL and its pieces are injected in SEQ order. -/
  | bucketRelease (bucket : Nat) (hits : List EccHit)
  /-- CONTRIB (R331). A reduction CONTRIB piece arrives, is checked, and is added to a store or landing entry, passed through or forwarded. -/
  | contrib (place : InputRed) (fault : Bool) (bad : List Nat)
  /-- GPRIM (R337). A guarded primary's copy of a piece arrives and is carried unmerged to the owner's landing engine. -/
  | gprim (place : InputRed) (adds : CopyAdds)
  /-- GBACK (R337). A backup's copy of a guarded piece arrives and is carried unmerged to the owner's landing engine. -/
  | gback (input : Fin 18) (chan : Fin 8)
  /-- INNER_DL (R336). An interior entry's timer expires and it is forwarded with the sum and count it holds, TIMED set. -/
  | innerDl (entry : StoreId) (bad : List Nat)
  /-- LANDING_DEADLINE (R338). A landing window's deadline passes, guarded copies are resolved and every pending chunk of the bucket lands. -/
  | landingDeadline (window : WindowId) (adds : LandAdds)
  /-- DELIVER (R341). A DELIVER piece of masters arrives, is written at MASTER plus offset, counted and forwarded to children. -/
  | deliver
  /-- DELIVER_END (R341). DELIVER_END arrives and the replica completes the delivery or sends DELIVERY_NAK on a count mismatch. -/
  | deliverEnd
  /-- DELIVERY_TIMEOUT (R341). No DELIVER_END arrives within DL of the first piece and the replica sends DELIVERY_NAK. -/
  | deliveryTimeout (entry : Nat)
  /-- DELIVERY_NAK (R341). A DELIVERY_NAK reaches the owner, which resends every piece of the entry to that replica. -/
  | deliveryNak
  /-- RESEND (R341). A RESEND piece sent to one package arrives and is written as a delivery piece. -/
  | resend
  /-- DIGEST (R278). A replica's DIGEST reaches the owner, which compares it with its own or discards it. -/
  | digest
  /-- MIRROR (R344). A MIRROR piece arrives at the target and is written into the uncommitted mirror slot. -/
  | mirror
  /-- MIRROR_COMMIT (R344). MIRROR_COMMIT arrives and the target commits the slot when the piece count matches, answering MIRROR_ACK. -/
  | mirrorCommit
  /-- MIRROR_ACK (R344). A MIRROR_ACK reaches the owner, recording the mirror committed or setting MIRROR_FAIL. -/
  | mirrorAck
  /-- RESTORE (R347). A RESTORE piece reaches the spare and is written into the regions of the part it has taken. -/
  | restore
  /-- SHAPE (R353). A write of SHAPE digests and checks the image, powers crowns, writes descriptors, copies DATA and stages PIN regions. -/
  | shape (acc : RegAccess) (bad : List Tower) (retrained : Bool)
  /-- UNSHAPE (R355). A write of UNSHAPE writes back pages, resets descriptors, gates every crown and returns STATE to 0. -/
  | unshape (acc : RegAccess)
  /-- ABORT (R366). A write of ABORT stops the running step as a unit error would. -/
  | abort (acc : RegAccess)
  /-- SHP_IMAGE_WRITE (R381). A write of the image address is discarded and recorded unless STATE is 0. -/
  | shpImageWrite (acc : RegAccess)
  /-- SHP_LEN_WRITE (R381). A write of the image length is discarded and recorded unless STATE is 0. -/
  | shpLenWrite (acc : RegAccess)
  /-- STEP_START (R362). Once the previous step completes, the next step sets SYNCINIT objects, empties STASH and GRADBUF pages and resets unit lists. -/
  | stepStart
  /-- UNIT_DISPATCH (R362). A thread's next unit, whose predecessor completed, conditions hold and slots are held, is dispatched. -/
  | unitDispatch (core : Core) (thread : Fin 2)
  /-- STEP_COMPLETE (R365). Every unit list and sweep entry is complete, DONE gains 1 and a completion with status and flags is posted. -/
  | stepComplete
  /-- STEP_WATCHDOG (R367). Nothing of a running step progresses for STEP_WDOG ms and the step ends with status STALLED. -/
  | stepWatchdog
  /-- SPARE_APPLIES_PART (R368). Within 10 ms of its takeover notice the spare applies the image part of the coordinate it took. -/
  | spareAppliesPart (mirrored : Bool)
  /-- REMOTE_ADD (R372). A remote-add packet arrives, the add is applied once and an acknowledgement is returned. -/
  | remoteAdd
  /-- REMOTE_ADD_ACK (R372). A remote add's acknowledgement reaches its sender. -/
  | remoteAddAck
  /-- REMOTE_ADD_TIMEOUT (R372). No acknowledgement arrives within REQ_TIMEOUT, so REMOTE_LOST is set and a remote-add-lost event is recorded. -/
  | remoteAddTimeout (op : Nat)
  /-- BARRIER_ARRIVAL (R374). A remote barrier arrival packet with a count reaches a node of the group's tree. -/
  | barrierArrival
  /-- BARRIER_RELEASE_PACKET (R374). A remote barrier release packet arrives and the package raises its release object to the generation. -/
  | barrierReleasePacket
  /-- BAR_DL (R374). A barrier generation's deadline passes and the node or root sends on the count it holds. -/
  | barDl (group : Fin 64) (gen : Nat)
  /-- URGENT_COMMAND (R376). An urgent doorbell carries a command and the dispatcher preempts the unit's cores and starts thread U, or holds or rejects it. -/
  | urgentCommand (port : Port) (slot : SlotPlace) (data : List Byte)
  /-- HELD_URGENT_START (R378). A held urgent command starts, in the order received, once its cores' thread U has ended and their records are released. -/
  | heldUrgentStart
  /-- SYN_OP_ADD (R371). A host SYN_OP add changes a sync object, or sets OP_ERR. -/
  | synOpAdd (acc : RegAccess)
  /-- SYN_OP_SET (R371). A host SYN_OP set changes a sync object, or sets OP_ERR. -/
  | synOpSet (acc : RegAccess)
  /-- ALLOCATOR_TICK (R396). Every 50 µs the allocator sets each crown's operating point and duty to fit the budget under the cap. -/
  | allocatorTick
  /-- VOLTAGE_REACHED (R386). On-die sense reads the commanded VCORE and the clock slew begins or the change completes. -/
  | voltageReached (n : Tower)
  /-- CLOCK_SLEW_COMPLETE (R386). The crown's clock reaches the new frequency and the change of operating point completes. -/
  | clockSlewComplete (n : Tower)
  /-- AVSBUS_FAULT (R387). An AVSBus write fails or VCORE misses its target in 20 µs; the write is repeated once, then AVS_FAULT is set. -/
  | avsbusFault (n : Tower)
  /-- POWER_ESTIMATE (R389). Every 2 µs each domain's power estimate is formed from its activity counters. -/
  | powerEstimate (activity : List Activity)
  /-- CURRENT_SENSE_SAMPLE (R404). A 2 µs current sample near IPEAK lowers the crown's duty and sets ICC_LIMIT. -/
  | currentSenseSample (n : Tower) (amps : Nat)
  /-- CALIBRATION (R390). A domain's gain is moved toward measured over estimated power at the end of its calibration interval. -/
  | calibration (d : Fin 7)
  /-- RAIL_READING (R390). A PMBus reading of a rail is taken in rotation, its failure counted toward fallback. -/
  | railReading (rail : Fin 10) (reading : Option (Nat × Nat))
  /-- FORCE_FB (R391). A write of FORCE_FB holds the estimate in fallback mode or allows its return. -/
  | forceFb (acc : RegAccess)
  /-- PCAP_CAP (R392). A write of REQ keeps the value, clamps EFF and sets CLAMPED when out of range, ending any unmet-cap hold. -/
  | pcapCap (acc : RegAccess)
  /-- CAP_UNMET_HOLD_END (R399). The 10 ms average has stayed at or below EFF for 10 ms, ending the hold. -/
  | capUnmetHoldEnd
  /-- LSTEP_N_DEASSERT (R402). 1 µs after the last ramp of a release ends, LSTEP_N is deasserted. -/
  | lstepNDeassert
  /-- DROOP_WARNING (R405). A droop detector falls below the warning level and the crown's clock period stretches 1.5 times; the dip is counted. -/
  | droopWarning (rail : Fin 10)
  /-- STRETCH_END (R405). Every detector has been above warning for 64 cycles and the clock returns to its nominal period. -/
  | stretchEnd (rail : Fin 10)
  /-- DIP_STEPDOWN (R406). VCORE stays below warning for another 20 µs and the crown steps down one operating point. -/
  | dipStepdown (rail : Fin 5)
  /-- SUPPLY_BELOW_RESET_LEVEL (R406). A rail stays below its reset level for 20 ns, causing a tower, warm or power-on reset. -/
  | supplyBelowResetLevel (rail : Fin 10) (facts : BootFacts)
  /-- SENSOR_SAMPLE (R408). Every 20 µs sensors are sampled and validated and each layer's measured, inferred and effective temperatures are computed. -/
  | sensorSample (t : Tower) (readings : List (List Int))
  /-- SENSOR_MODEL_DISAGREEMENT (R411). A layer's Tm and Ti differ by over 8 °C for 50 ms and the disagreement event is recorded. -/
  | sensorModelDisagreement (t : Tower) (p : Pos)
  /-- THROTTLE_STEP (R412). Each 1 ms at the throttle level the thermal ceiling or duty ceiling falls; each 10 ms below it they rise. -/
  | throttleStep (t : Tower)
  /-- THERMAL_TRIP (R413). The comparator path asserts THERMTRIP_N, stops crown clocks, drives full coolant demand and records the trip. -/
  | thermalTrip (t : Tower) (p : Pos)
  /-- COOLANT_CONTROL_STEP (R415). Every 100 ms the coolant demand is recomputed from feed-forward, model and outlet error. -/
  | coolantControlStep (inlet : Int) (outlet : Int) (pulses : Nat)
  /-- COOLANT_ALARM (R416). Low flow, high inlet or high outlet persists, setting ALARM, limiting EFF and recording the event. -/
  | coolantAlarm (kind : CoolAlarm)
  /-- COOLANT_ALARM_CLEAR (R416). The alarm condition has been absent for 60 s and EFF is no longer limited to ALARM_CAP. -/
  | coolantAlarmClear (kind : CoolAlarm)
  /-- THM_COOL_CFG_WRITE (R417). A write to the coolant configuration takes effect at the next 100 ms step, keeping integ and history. -/
  | thmCoolCfgWrite (model : Bool) (acc : RegAccess)
  /-- PORT_RESET (R420). PERST or hot reset disables the port's queues, abandons its DMA, removes its waiting steps and may pass the token. -/
  | portReset (port : Port) (kind : PortResetKind)
  /-- FUNCTION_LEVEL_RESET (R420). FLR of a function resets its port as a port reset does, within 1 ms. -/
  | functionLevelReset (port : Port)
  /-- POWER_STATE_CHANGE (R419). A port enters or leaves D3hot, stopping or resuming fetches, interrupts and held completions. -/
  | powerStateChange (port : Port) (d3 : Bool)
  /-- BAR2_READ (R423). A host read through BAR2 reaches a device-physical address and completes as the outcome table gives. -/
  | bar2Read (port : Port) (tag : Nat) (off : Nat) (len : Nat) (hits : List EccHit)
  /-- BAR2_WRITE (R423). A host write through BAR2 is written, poisoned or discarded as the outcome table gives. -/
  | bar2Write (port : Port) (off : Nat) (data : List DataByte)
  /-- HOST_HOLD_TIMEOUT (R425). A held host request passes 5 ms and completes poisoned or is discarded, setting HOLD_TO. -/
  | hostHoldTimeout (k : Nat)
  /-- SQ_TAIL_DOORBELL (R427). A doorbell write sets a normal queue's submission tail, or is discarded with DB_BAD. -/
  | sqTailDoorbell (port : Port) (q : Fin 1024) (size : Nat) (value : Nat)
  /-- CQ_HEAD_DOORBELL (R427). A doorbell write sets a completion queue's head, or is discarded with DB_BAD. -/
  | cqHeadDoorbell (port : Port) (q : Fin 1024) (size : Nat) (value : Nat)
  /-- EQ_HEAD_DOORBELL (R426). A doorbell write sets an event queue's head. -/
  | eqHeadDoorbell (port : Port) (e : Fin 1024) (size : Nat) (value : Nat)
  /-- COMMAND_FETCH (R429). The fetch engine takes a queue's head command when completion room, step-queue room or a DMA channel is free. -/
  | commandFetch (port : Port) (q : Fin 1024) (cmd : List Byte) (newRound : FetchRound) (contended : Bool)
  /-- DMA_START (R431). A DMA channel starts its command when WAIT holds and transfers in ascending address order. -/
  | dmaStart (port : Port) (ch : Fin 8) (data : List DataByte) (hits : List EccHit)
  /-- DMA_COMPLETE (R431). A DMA transfer ends with its status, adds to SIGNAL and writes its completion entry. -/
  | dmaComplete (port : Port) (ch : Fin 8)
  /-- INTERRUPT_DELAY (R432). ITIME µs after the first unsignalled entry, the queue's MSI-X vector is sent. -/
  | interruptDelay (port : Port) (q : Fin 1024)
  /-- HQ_Q_CFG_WRITE (R439). A queue configuration write enables, disables or reconfigures a queue, or is discarded with CFG_BAD. -/
  | hqQCfgWrite (q : Fin 1024) (acc : RegAccess)
  /-- HQ_EQ_CFG_WRITE (R434). An event queue configuration write enables the queue and arms a sync watch, which may fire at once. -/
  | hqEqCfgWrite (e : Fin 1024) (acc : RegAccess)
  /-- CLAIM (R435). A write of CLAIM takes a token that neither port holds. -/
  | claim (acc : RegAccess)
  /-- RELEASE (R435). A write of RELEASE from the holder leaves the token held by neither. -/
  | release (acc : RegAccess)
  /-- GIVE (R435). A write of GIVE from the holder passes the token to the other port if available. -/
  | give (acc : RegAccess)
  /-- BEAT (R435). A write of BEAT from the holder restarts its heartbeat timeout. -/
  | beat (acc : RegAccess)
  /-- TOKEN_TIMEOUT (R435). TIMEOUT_MS passes without a heartbeat and the token passes to the other port or to neither. -/
  | tokenTimeout (start : Nat)
  /-- POWER_ON_RESET (R443). VAON rises and the package boots: images selected and checked, regulators discovered, towers brought up, microcode placed. -/
  | powerOnReset (facts : BootFacts)
  /-- STANDBY_START (R449). Brim 2 starts its management controller image as standby once any copy from brim 0 has passed, setting STBY_OK. -/
  | standbyStart
  /-- STAGE (R453). OP STAGE checks an image and writes it to the inactive bank of its type in both brims. -/
  | stage (acc : RegAccess) (writeOk : Bool)
  /-- FIRMWARE_ACTIVATE (R456). OP ACTIVATE sets PENDING for a staged bank and clears STAGED. -/
  | firmwareActivate (acc : RegAccess)
  /-- CANCEL (R456). OP CANCEL clears PENDING for a firmware type. -/
  | cancel (acc : RegAccess)
  /-- COMMIT (R458). OP COMMIT with CONFIRM raises security floors and revokes named key slots. -/
  | commit (acc : RegAccess)
  /-- UPDATE_OPERATION_DONE (R453). An update operation ends, setting DONE and RESULT and clearing BUSY. -/
  | updateOperationDone
  /-- TRIAL_WATCHDOG (R457). A management controller trial has not passed after 30 s and its watchdog causes a warm reset. -/
  | trialWatchdog (facts : BootFacts)
  /-- SET_ENDPOINT_ID (R462). The MCTP control message Set Endpoint ID is answered. -/
  | setEndpointId (path : Fin 3) (eid : Byte)
  /-- GET_ENDPOINT_ID (R462). The MCTP control message Get Endpoint ID is answered. -/
  | getEndpointId (path : Fin 3)
  /-- GET_MCTP_VERSION_SUPPORT (R462). The MCTP control message Get MCTP Version Support is answered. -/
  | getMctpVersionSupport (path : Fin 3)
  /-- GET_MESSAGE_TYPE_SUPPORT (R462). The MCTP control message Get Message Type Support is answered. -/
  | getMessageTypeSupport (path : Fin 3)
  /-- GET_IDENTITY (R463). An MCTP request returns the device certificate and the alias certificate. -/
  | getIdentity (path : Fin 3) (inst : Fin 32)
  /-- GET_MEASUREMENTS (R464). An MCTP request returns the selected measurements with nonces, signed by the alias key. -/
  | getMeasurements (path : Fin 3) (inst : Fin 32) (data : List Byte) (served : Nat)
  /-- GET_FW_STATUS (R463). An MCTP request returns the boot, firmware, fuse and update status registers. -/
  | getFwStatus (path : Fin 3) (inst : Fin 32)
  /-- READ_REG (R463). An MCTP request returns an 8-byte BAR0 register read. -/
  | readReg (path : Fin 3) (inst : Fin 32) (off : Nat)
  /-- UPD_BEGIN (R454). An MCTP request opens an update session naming the type and length. -/
  | updBegin (path : Fin 3) (inst : Fin 32) (type : Byte) (len : Nat)
  /-- UPD_DATA (R454). An MCTP request carries an offset and up to 1,024 bytes of the image. -/
  | updData (path : Fin 3) (inst : Fin 32) (off : Nat) (data : List Byte)
  /-- UPD_END (R454). An MCTP request runs STAGE on the assembled image and ends the session. -/
  | updEnd (path : Fin 3) (inst : Fin 32) (writeOk : Bool)
  /-- UPD_ACTIVATE (R456). An MCTP request activates the staged bank of a type. -/
  | updActivate (path : Fin 3) (inst : Fin 32) (type : Byte)
  /-- UPD_COMMIT (R458). An MCTP request commits floors and revocations with CONFIRM. -/
  | updCommit (path : Fin 3) (inst : Fin 32) (confirm : Nat)
  /-- UPDATE_SESSION_TIMEOUT (R454). An update session with no UPD_DATA for 10 s is abandoned and its bank left not VALID. -/
  | updateSessionTimeout
  /-- DEBUG_CHALLENGE (R463). An MCTP request returns a 32-byte debug challenge. -/
  | debugChallenge (path : Fin 3) (inst : Fin 32)
  /-- DEBUG_UNLOCK (R465). A signed token bound to serial and challenge unlocks debug access, sets measurement 5 and records the event. -/
  | debugUnlock (path : Fin 3) (inst : Fin 32) (token : List Byte)
  /-- STANDBY_SIGNAL (R466). Every 10 ms the active management controller signals the standby. -/
  | standbySignal
  /-- FAILOVER (R466). 100 ms pass without the signal and the standby becomes active, or a warm reset follows without a standby. -/
  | failover (start : Nat) (facts : BootFacts)
  /-- SECOND_BOUNDARY (R510). The recorder's fraction count wraps, POWERED gains 1 and suppression summaries are due. -/
  | secondBoundary
  /-- TOKEN_ARRIVAL (R471). A code's rate-limit bucket below BURST gains one token. -/
  | tokenArrival (code : Fin 65536)
  /-- HEADER_WRITE (R510). At least every 64 s the recorder writes POWERED, its fraction and CYCLES to both headers. -/
  | headerWrite (fraction : Fin 25000000)
  /-- RESERVE_RAISE (R474). Before giving out RESERVE the recorder raises it by 1,024 in both headers, and admission resumes when written. -/
  | reserveRaise
  /-- FLUSH_WRITE (R473). An unflushed record is written into MRAM of both brims and checked by read-back. -/
  | flushWrite (okA : Bool) (okB : Bool) (fraction : Fin 25000000)
  /-- POWER_FAIL (R475). PWRFAIL_N is asserted, crown clocks stop, a power-fail record is admitted and unflushed records and headers are written. -/
  | powerFail (fraction : FlushFacts)
  /-- PWRFAIL_N_DEASSERT (R477). PWRFAIL_N is deasserted with VAON kept, and a warm reset follows the power-fail sequence. -/
  | pwrfailNDeassert (facts : BootFacts)
  /-- WINDOW_READ (R478). A read of the upper half of EVR_WINDOW31 with AUTO set advances the port's cursor by 8. -/
  | windowRead (port : Port) (tag : Nat) (part : RegPart)
  /-- CLEAR (R479). A write of CLEAR with CONFIRM from the token holder moves OLDEST, zeroes counts and admits a recorder-cleared record. -/
  | clear (acc : RegAccess)
  /-- WARM_RESET (R480). A warm reset drains the vertical paths, flushes the recorder and reruns boot steps 1 to 8, with fields reset as the table gives. -/
  | warmReset (acc : RegAccess) (facts : BootFacts)
  /-- TOWER_RESET (R483). A tower reset aborts the step, unshapes without write-back and resets the tower's blocks. -/
  | towerReset (acc : RegAccess)
  /-- JOB_RESET (R483). A job reset frees slots and flex jobs, zeroes sync objects and empties STASH and GRADBUF pages. -/
  | jobReset (acc : RegAccess)
  /-- PACKAGE_STANDBY_ENTRY (R484). A write of STANDBY as 1 puts every tower to sleep and stops the dispatcher, SHAKE256 engine and DMA. -/
  | packageStandbyEntry (acc : RegAccess)
  /-- PACKAGE_STANDBY_EXIT (R484). A doorbell, BAR2 access, SHAPE or STANDBY written 0 ends package standby. -/
  | packageStandbyExit (acc : RegAccess)
  /-- SERDES_REFERENCE_LOSS (R501). A brim's SerDes reference stops and its fabric links go DOWN. -/
  | serdesReferenceLoss (brim : Tower)
  /-- PCIE_REFERENCE_LOSS (R501). A port's PCIe reference stops and its link goes down while the function keeps its state. -/
  | pcieReferenceLoss (port : Port)
  /-- ALWAYS_ON_CLOCK_LOSS (R501). A brim's always-on clock stops for 10 µs and the brim switches to its internal oscillator. -/
  | alwaysOnClockLoss (brim : Tower)
  /-- CLOCK_RETURN (R501). A lost clock returns, links retrain, and the always-on clock is taken back after running 1 ms. -/
  | clockReturn (clock : Fin 10)
  /-- RESERVED_TYPE_FRAME (R36). A silt frame with a reserved TYPE is received whole, discarded and acknowledged. -/
  | reservedTypeFrame (t : Tower) (p : Pos) (dir : SiltDir) (frame : List Byte)
  /-- PCIE_LINK_UP (R445). A port's PCIe link, trained in hardware after PERST is deasserted, comes up and the port can become available. -/
  | pcieLinkUp (port : Port) (rate : Fin 3) (full : Bool)
  /-- CONFIGURATION_REQUEST (R445). A PCIe configuration request reaches a function and is answered with Request Retry Status before boot step 8 or recovery entry, and completes normally afterwards. -/
  | configurationRequest (port : Port) (tag : Nat) (req : CfgReq)
  /-- JTAG_PORT_ACCESS (R465). An access through the JTAG port performs boundary scan, IDCODE, or, once unlocked, die register access, silt test mode or scan. -/
  | jtagPortAccess (op : JtagOp)
deriving DecidableEq, Repr

end Sys2Proof
end

