-- ==== Sys2Proof/Decode.lean ====
section
/-! DEFINITION. Decoding and encoding: the commands of this block carry no bits in the opcode table; the words that the
package's own engines read do (control-core instructions, R358; array commands, R93, R132, R145; VOPs, R172). -/

namespace Sys2Proof

/-! ### Control-core instructions (R358) -/

/-- A control-core instruction. -/
inductive CInsn where
  | alu (rd ra rb fn : Nat)
  | addi (rd ra imm : Nat)
  | lix (rd imm : Nat)
  | ld (rd ra imm : Nat)
  | st (rd ra imm : Nat)
  | br (ra rb cond off : Nat)
  | jmp (off : Nat)
  | acmd (ra fn : Nat)
  | vcmd (ra : Nat)
  | sadd (ra rb : Nat)
  | sset (ra rb : Nat)
  | swait (ra rb fn : Nat)
  | radd (ra rb : Nat)
  | fence
  | endUnit
deriving DecidableEq, Repr

/-- Decode a 32-bit instruction; none where the opcode or a field value is reserved (R358). Fields a row of the table
does not name are not examined: the table gives them no meaning and reserves no value of them. [DEDUCED: log entry 9] -/
def decodeInsn (w : Nat) : Option CInsn :=
  let rd := bits w 23 18
  let ra := bits w 17 12
  let rb := bits w 11 6
  match bits w 31 24 with
  | 0x01 => if bits w 5 0 ≤ 9 then some (.alu rd ra rb (bits w 5 0)) else none
  | 0x02 => some (.addi rd ra (bits w 11 0))
  | 0x03 => some (.lix rd (bits w 17 0))
  | 0x04 => some (.ld rd ra (bits w 11 0))
  | 0x05 => some (.st rd ra (bits w 11 0))
  | 0x06 => if bits w 11 9 ≤ 5 then some (.br rd ra (bits w 11 9) (bits w 8 0)) else none
  | 0x07 => some (.jmp (bits w 23 0))
  | 0x08 => some (.acmd ra (bits w 0 0))
  | 0x09 => some (.vcmd ra)
  | 0x0A => some (.sadd ra rb)
  | 0x0B => some (.sset ra rb)
  | 0x0C => some (.swait ra rb (bits w 0 0))
  | 0x0D => some (.radd ra rb)
  | 0x0E => some .fence
  | 0x0F => some .endUnit
  | _ => none

/-- The word of an instruction, unnamed bits zero (R358). -/
def encodeInsn : CInsn → Nat
  | .alu rd ra rb fn => 0x01 * 2 ^ 24 + rd * 2 ^ 18 + ra * 2 ^ 12 + rb * 2 ^ 6 + fn
  | .addi rd ra imm => 0x02 * 2 ^ 24 + rd * 2 ^ 18 + ra * 2 ^ 12 + imm
  | .lix rd imm => 0x03 * 2 ^ 24 + rd * 2 ^ 18 + imm
  | .ld rd ra imm => 0x04 * 2 ^ 24 + rd * 2 ^ 18 + ra * 2 ^ 12 + imm
  | .st rd ra imm => 0x05 * 2 ^ 24 + rd * 2 ^ 18 + ra * 2 ^ 12 + imm
  | .br ra rb cond off => 0x06 * 2 ^ 24 + ra * 2 ^ 18 + rb * 2 ^ 12 + cond * 2 ^ 9 + off
  | .jmp off => 0x07 * 2 ^ 24 + off
  | .acmd ra fn => 0x08 * 2 ^ 24 + ra * 2 ^ 12 + fn
  | .vcmd ra => 0x09 * 2 ^ 24 + ra * 2 ^ 12
  | .sadd ra rb => 0x0A * 2 ^ 24 + ra * 2 ^ 12 + rb * 2 ^ 6
  | .sset ra rb => 0x0B * 2 ^ 24 + ra * 2 ^ 12 + rb * 2 ^ 6
  | .swait ra rb fn => 0x0C * 2 ^ 24 + ra * 2 ^ 12 + rb * 2 ^ 6 + fn
  | .radd ra rb => 0x0D * 2 ^ 24 + ra * 2 ^ 12 + rb * 2 ^ 6
  | .fence => 0x0E * 2 ^ 24
  | .endUnit => 0x0F * 2 ^ 24

/-- Every field within the bits and values the table gives it. -/
def CInsn.wf : CInsn → Bool
  | .alu rd ra rb fn => decide (rd < 64) && decide (ra < 64) && decide (rb < 64) && decide (fn ≤ 9)
  | .addi rd ra imm | .ld rd ra imm | .st rd ra imm =>
    decide (rd < 64) && decide (ra < 64) && decide (imm < 4096)
  | .lix rd imm => decide (rd < 64) && decide (imm < 262144)
  | .br ra rb cond off => decide (ra < 64) && decide (rb < 64) && decide (cond ≤ 5) && decide (off < 512)
  | .jmp off => decide (off < 16777216)
  | .acmd ra fn => decide (ra < 64) && decide (fn < 2)
  | .vcmd ra => decide (ra < 64)
  | .sadd ra rb | .sset ra rb | .radd ra rb => decide (ra < 64) && decide (rb < 64)
  | .swait ra rb fn => decide (ra < 64) && decide (rb < 64) && decide (fn < 2)
  | .fence | .endUnit => true

/-! ### Array commands (R93, R132, R145) -/

/-- An array command, its fields as the layouts give them. -/
inductive ArrCmd where
  | load (arr fmt part tr crows ccols base stride mxs : Nat)
  | swap (arr : Nat)
  | stream (arr fmt part tr first neg dual rows tile tile2 neg2 base stride mxs : Nat)
  | drain (arr tile epi ebc efmt chain ebase estride : Nat)
  | qparam (arr zsEn zaEn zs za : Nat)
deriving DecidableEq, Repr

/-- Decode a 64-bit array command; none where OP is reserved or a reserved bit is not zero. -/
def decodeArr (w : Nat) : Option ArrCmd :=
  let arr := bits w 59 59
  match bits w 63 60 with
  | 1 =>
    if bits w 50 47 = 0 ∧ bits w 39 39 = 0 ∧ bits w 31 30 = 0 ∧ bits w 11 0 = 0 then
      some (.load arr (bits w 58 54) (bits w 53 52) (bits w 51 51) (bits w 46 40)
        (bits w 38 35 * 8 + bits w 34 32) (bits w 29 24) (bits w 23 18) (bits w 17 12))
    else none
  | 2 => if bits w 58 0 = 0 then some (.swap arr) else none
  | 3 =>
    if bits w 11 0 = 0 then
      some (.stream arr (bits w 58 54) (bits w 53 52) (bits w 51 51) (bits w 50 50) (bits w 49 49) (bits w 48 48)
        (bits w 47 39) (bits w 38 35) (bits w 34 31) (bits w 30 30) (bits w 29 24) (bits w 23 18) (bits w 17 12))
    else none
  | 4 =>
    if bits w 41 30 = 0 ∧ bits w 17 0 = 0 then
      some (.drain arr (bits w 58 55) (bits w 54 53) (bits w 52 51) (bits w 50 46) (bits w 45 42)
        (bits w 29 24) (bits w 23 18))
    else none
  | 5 =>
    if bits w 56 56 = 0 ∧ bits w 39 0 = 0 then
      some (.qparam arr (bits w 58 58) (bits w 57 57) (bits w 55 48) (bits w 47 40))
    else none
  | _ => none

/-- The word of an array command, reserved bits zero. -/
def encodeArr : ArrCmd → Nat
  | .load arr fmt part tr crows ccols base stride mxs =>
    1 * 2 ^ 60 + arr * 2 ^ 59 + fmt * 2 ^ 54 + part * 2 ^ 52 + tr * 2 ^ 51 + crows * 2 ^ 40 + (ccols / 8) * 2 ^ 35
      + (ccols % 8) * 2 ^ 32 + base * 2 ^ 24 + stride * 2 ^ 18 + mxs * 2 ^ 12
  | .swap arr => 2 * 2 ^ 60 + arr * 2 ^ 59
  | .stream arr fmt part tr first neg dual rows tile tile2 neg2 base stride mxs =>
    3 * 2 ^ 60 + arr * 2 ^ 59 + fmt * 2 ^ 54 + part * 2 ^ 52 + tr * 2 ^ 51 + first * 2 ^ 50 + neg * 2 ^ 49
      + dual * 2 ^ 48 + rows * 2 ^ 39 + tile * 2 ^ 35 + tile2 * 2 ^ 31 + neg2 * 2 ^ 30 + base * 2 ^ 24
      + stride * 2 ^ 18 + mxs * 2 ^ 12
  | .drain arr tile epi ebc efmt chain ebase estride =>
    4 * 2 ^ 60 + arr * 2 ^ 59 + tile * 2 ^ 55 + epi * 2 ^ 53 + ebc * 2 ^ 51 + efmt * 2 ^ 46 + chain * 2 ^ 42
      + ebase * 2 ^ 24 + estride * 2 ^ 18
  | .qparam arr zsEn zaEn zs za =>
    5 * 2 ^ 60 + arr * 2 ^ 59 + zsEn * 2 ^ 58 + zaEn * 2 ^ 57 + zs * 2 ^ 48 + za * 2 ^ 40

/-- Every field within the bits the layouts give it. -/
def ArrCmd.wf : ArrCmd → Bool
  | .load arr fmt part tr crows ccols base stride mxs =>
    decide (arr < 2) && decide (fmt < 32) && decide (part < 4) && decide (tr < 2) && decide (crows < 128)
      && decide (ccols < 128) && decide (base < 64) && decide (stride < 64) && decide (mxs < 64)
  | .swap arr => decide (arr < 2)
  | .stream arr fmt part tr first neg dual rows tile tile2 neg2 base stride mxs =>
    decide (arr < 2) && decide (fmt < 32) && decide (part < 4) && decide (tr < 2) && decide (first < 2)
      && decide (neg < 2) && decide (dual < 2) && decide (rows < 512) && decide (tile < 16) && decide (tile2 < 16)
      && decide (neg2 < 2) && decide (base < 64) && decide (stride < 64) && decide (mxs < 64)
  | .drain arr tile epi ebc efmt chain ebase estride =>
    decide (arr < 2) && decide (tile < 16) && decide (epi < 4) && decide (ebc < 4) && decide (efmt < 32)
      && decide (chain < 16) && decide (ebase < 64) && decide (estride < 64)
  | .qparam arr zsEn zaEn zs za =>
    decide (arr < 2) && decide (zsEn < 2) && decide (zaEn < 2) && decide (zs < 256) && decide (za < 256)

/-! ### VOP commands (R172) -/

/-- The shape and fields of a VOP word (R172). -/
structure VopCmd where
  chain : Nat
  ifmt : Nat
  count : Nat
  cols : Nat
  src : Nat
  src2 : Nat
  fence : Bool
deriving DecidableEq, Repr

/-- Decode a VOP; none where OP or a reserved bit is not as R172 has it. -/
def decodeVop (w : Nat) : Option VopCmd :=
  if bits w 63 60 = 8 ∧ bits w 9 0 = 0 then
    some ⟨bits w 59 56, bits w 55 51, bits w 50 37 + 1, bits w 36 23 + 1, bits w 22 17, bits w 16 11, bit w 10⟩
  else none

/-- The word of a VOP (R172). -/
def encodeVop (v : VopCmd) : Nat :=
  8 * 2 ^ 60 + v.chain * 2 ^ 56 + v.ifmt * 2 ^ 51 + (v.count - 1) * 2 ^ 37 + (v.cols - 1) * 2 ^ 23 + v.src * 2 ^ 17
    + v.src2 * 2 ^ 11 + v.fence.toNat * 2 ^ 10

/-- Every field within the bits R172 gives it. -/
def VopCmd.wf (v : VopCmd) : Bool :=
  decide (v.chain < 16) && decide (v.ifmt < 32) && decide (1 ≤ v.count) && decide (v.count ≤ 16384) &&
    decide (1 ≤ v.cols) && decide (v.cols ≤ 16384) && decide (v.src < 64) && decide (v.src2 < 64)

/-! ### The command table -/

/-- The command a word of the opcode table spells: the table gives no row any bits, so no word spells one.
[DESIGN CHOICE: log entry 29] -/
def decodeTableWord (_nbits _w : Nat) : Option Instr := none

end Sys2Proof
end

