-- ==== Sys2Proof/Machine/Numbers.lean ====
section
/-! DEFINITION. Number formats, rounding and saturation (02): exact values, the encodings of every format, the
conversion procedure of R67 with its counts, pouncing, the MX block conversion, ACC40 and ERR24. -/

namespace Sys2Proof.Machine

/-- An exact value: NaN, an infinity, or a signed magnitude `m × 2^e` (zero keeps its sign, R49). -/
inductive Num where
  | nan
  | inf (neg : Bool)
  | fin (neg : Bool) (m : Nat) (e : Int)
deriving DecidableEq, Repr

/-- The format codes of R43. -/
inductive Fmt where
  | fp32 | bf16 | fp16 | e4m3 | e5m2 | e3m2 | e2m3 | e2m1
  | int8 | uint8 | int4 | int32
  | mxfp8e4 | mxfp8e5 | mxfp6e3 | mxfp6e2 | mxfp4 | mxint8
  | e8m0 | acc40f | acc40i | acc40e
deriving DecidableEq, Repr

/-- The format a five-bit code names; none where the code is reserved (R43). -/
def Fmt.ofCode : Nat → Option Fmt
  | 0x00 => some .fp32 | 0x01 => some .bf16 | 0x02 => some .fp16 | 0x03 => some .e4m3
  | 0x04 => some .e5m2 | 0x05 => some .e3m2 | 0x06 => some .e2m3 | 0x07 => some .e2m1
  | 0x08 => some .int8 | 0x09 => some .uint8 | 0x0A => some .int4 | 0x0B => some .int32
  | 0x0C => some .mxfp8e4 | 0x0D => some .mxfp8e5 | 0x0E => some .mxfp6e3 | 0x0F => some .mxfp6e2
  | 0x10 => some .mxfp4 | 0x11 => some .mxint8 | 0x12 => some .e8m0
  | 0x14 => some .acc40f | 0x15 => some .acc40i | 0x16 => some .acc40e
  | _ => none

/-- The code of a format (R43). -/
def Fmt.code : Fmt → Nat
  | .fp32 => 0x00 | .bf16 => 0x01 | .fp16 => 0x02 | .e4m3 => 0x03 | .e5m2 => 0x04 | .e3m2 => 0x05
  | .e2m3 => 0x06 | .e2m1 => 0x07 | .int8 => 0x08 | .uint8 => 0x09 | .int4 => 0x0A | .int32 => 0x0B
  | .mxfp8e4 => 0x0C | .mxfp8e5 => 0x0D | .mxfp6e3 => 0x0E | .mxfp6e2 => 0x0F | .mxfp4 => 0x10
  | .mxint8 => 0x11 | .e8m0 => 0x12 | .acc40f => 0x14 | .acc40i => 0x15 | .acc40e => 0x16

/-- Is it a block-scaled format? -/
def Fmt.isMx : Fmt → Bool
  | .mxfp8e4 | .mxfp8e5 | .mxfp6e3 | .mxfp6e2 | .mxfp4 | .mxint8 => true
  | _ => false

/-- Is it an integer format of R50? -/
def Fmt.isInt : Fmt → Bool
  | .int8 | .uint8 | .int4 | .int32 => true
  | _ => false

/-- Width of one stored element in bits (R43). -/
def Fmt.width : Fmt → Nat
  | .fp32 | .int32 => 32
  | .bf16 | .fp16 => 16
  | .e3m2 | .e2m3 | .mxfp6e3 | .mxfp6e2 => 6
  | .e2m1 | .int4 | .mxfp4 => 4
  | .acc40f | .acc40i => 40
  | .acc40e => 64
  | _ => 8

/-- The element format inside a block (R52, R53); MXINT8 elements are integers scaled by 2^-6. -/
def Fmt.element : Fmt → Fmt
  | .mxfp8e4 => .e4m3 | .mxfp8e5 => .e5m2 | .mxfp6e3 => .e3m2 | .mxfp6e2 => .e2m3 | .mxfp4 => .e2m1
  | .mxint8 => .int8
  | f => f

/-- How a floating-point format uses its top exponent (R46). -/
inductive TopExp where
  /-- infinities and NaNs, as FP32 -/
  | ieee
  /-- finite values but for the all-ones fraction, which is NaN (E4M3) -/
  | nanOnly
  /-- finite values (E3M2, E2M3, E2M1) -/
  | finite
deriving DecidableEq, Repr

/-- A floating-point layout (R44, R46). -/
structure Layout where
  expBits : Nat
  fracBits : Nat
  bias : Nat
  top : TopExp
deriving DecidableEq, Repr

/-- The layouts of R44; X13 has no format code. -/
def x13Layout : Layout := ⟨5, 7, 15, .ieee⟩
def acc40Layout : Layout := ⟨10, 29, 511, .ieee⟩

def Fmt.layout : Fmt → Option Layout
  | .fp32 => some ⟨8, 23, 127, .ieee⟩
  | .bf16 => some ⟨8, 7, 127, .ieee⟩
  | .fp16 => some ⟨5, 10, 15, .ieee⟩
  | .e5m2 => some ⟨5, 2, 15, .ieee⟩
  | .e4m3 => some ⟨4, 3, 7, .nanOnly⟩
  | .e3m2 => some ⟨3, 2, 3, .finite⟩
  | .e2m3 => some ⟨2, 3, 1, .finite⟩
  | .e2m1 => some ⟨2, 1, 1, .finite⟩
  | .acc40f => some acc40Layout
  | _ => none

/-- Decode a floating-point code (R45, R46). -/
def Layout.decode (l : Layout) (c : Nat) : Num :=
  let neg := bit c (l.expBits + l.fracBits)
  let e := bits c (l.expBits + l.fracBits - 1) l.fracBits
  let f := c % 2 ^ l.fracBits
  let topE := 2 ^ l.expBits - 1
  if e = topE ∧ l.top = .ieee then (if f = 0 then .inf neg else .nan)
  else if e = topE ∧ l.top = .nanOnly ∧ f = 2 ^ l.fracBits - 1 then .nan
  else if e = 0 then .fin neg f (1 - (l.bias : Int) - l.fracBits)
  else .fin neg (2 ^ l.fracBits + f) ((e : Int) - l.bias - l.fracBits)

/-- The code of the largest finite magnitude. -/
def Layout.maxCode (l : Layout) : Nat :=
  let topE := 2 ^ l.expBits - 1
  match l.top with
  | .ieee => (topE - 1) * 2 ^ l.fracBits + (2 ^ l.fracBits - 1)
  | .nanOnly => topE * 2 ^ l.fracBits + (2 ^ l.fracBits - 2)
  | .finite => topE * 2 ^ l.fracBits + (2 ^ l.fracBits - 1)

/-- The canonical NaN of R46: positive, the top fraction bit set; all ones in E4M3. -/
def Layout.nanCode (l : Layout) : Nat :=
  let topE := 2 ^ l.expBits - 1
  match l.top with
  | .nanOnly => topE * 2 ^ l.fracBits + (2 ^ l.fracBits - 1)
  | _ => topE * 2 ^ l.fracBits + 2 ^ (l.fracBits - 1)

def Layout.infCode (l : Layout) (neg : Bool) : Nat :=
  (2 ^ l.expBits - 1) * 2 ^ l.fracBits + if neg then 2 ^ (l.expBits + l.fracBits) else 0

def Layout.signBit (l : Layout) (neg : Bool) : Nat := if neg then 2 ^ (l.expBits + l.fracBits) else 0

/-! ### Exact arithmetic -/

/-- `m × 2^e` over `2^q` as quotient, and whether it lies below, at or above one half beyond it, and whether anything
remains: the pieces every rounding needs. -/
structure Split where
  quo : Nat
  /-- the remainder in 65,536ths of the unit, rounded down (R69) -/
  frac16 : Nat
  half : Ordering
  exact : Bool
deriving DecidableEq, Repr

def splitAt (m : Nat) (e q : Int) : Split :=
  if q ≤ e then ⟨m * 2 ^ (e - q).toNat, 0, .lt, true⟩
  else
    let d := (q - e).toNat
    let quo := m >>> d
    let rem := m % 2 ^ d
    ⟨quo, rem * 65536 / 2 ^ d, compare (2 * rem) (2 ^ d), rem = 0⟩

/-- Compare the magnitudes `m₁ × 2^e₁` and `m₂ × 2^e₂`. -/
def cmpMag (m₁ : Nat) (e₁ : Int) (m₂ : Nat) (e₂ : Int) : Ordering :=
  let e := min e₁ e₂
  compare (m₁ * 2 ^ (e₁ - e).toNat) (m₂ * 2 ^ (e₂ - e).toNat)

/-- floor(log2) of a non-zero magnitude. -/
def floorLog2 (m : Nat) (e : Int) : Int := (Nat.log2 m : Int) + e

def Num.zero (neg : Bool) : Num := .fin neg 0 0

def Num.neg : Num → Num
  | .nan => .nan
  | .inf s => .inf (!s)
  | .fin s m e => .fin (!s) m e

def Num.abs : Num → Num
  | .nan => .nan
  | .inf _ => .inf false
  | .fin _ m e => .fin false m e

def Num.isNan : Num → Bool
  | .nan => true
  | _ => false

def Num.isZero : Num → Bool
  | .fin _ 0 _ => true
  | _ => false

def Num.isNeg : Num → Bool
  | .nan => false
  | .inf s => s
  | .fin s _ _ => s

/-- The value as a signed integer multiple of `2^e`, for `e` no higher than its exponent. -/
def Num.scaled (e : Int) : Num → Int
  | .fin s m x => let v : Int := (m * 2 ^ (x - e).toNat : Nat); if s then -v else v
  | _ => 0

/-- An integer multiple of `2^e`; an exact zero is +0. -/
def Num.ofScaled (v : Int) (e : Int) : Num := .fin (decide (v < 0)) v.natAbs e

def Num.ofInt (v : Int) : Num := Num.ofScaled v 0

/-- Exact product. A product of zero and an infinity is NaN (R125). -/
def Num.mul : Num → Num → Num
  | .nan, _ => .nan
  | _, .nan => .nan
  | .inf s, .inf t => .inf (s != t)
  | .inf s, .fin t m _ => if m = 0 then .nan else .inf (s != t)
  | .fin t m _, .inf s => if m = 0 then .nan else .inf (s != t)
  | .fin s m e, .fin t n f => .fin (s != t) (m * n) (e + f)

/-- Exact sum. Opposite infinities give NaN; an exact zero is +0 unless both terms are −0 (R124, R125). -/
def Num.add : Num → Num → Num
  | .nan, _ => .nan
  | _, .nan => .nan
  | .inf s, .inf t => if s = t then .inf s else .nan
  | .inf s, .fin .. => .inf s
  | .fin .., .inf s => .inf s
  | .fin s m e, .fin t n f =>
    let q := min e f
    let v := (Num.fin s m e).scaled q + (Num.fin t n f).scaled q
    if v = 0 then .fin (s && t && m = 0 && n = 0) 0 q else Num.ofScaled v q

def Num.sub (a b : Num) : Num := a.add b.neg

/-- Multiply by a power of two, exactly. -/
def Num.scale (k : Int) : Num → Num
  | .fin s m e => .fin s m (e + k)
  | x => x

/-- Compare two numbers that are not NaN, with +0 above −0 (R130). -/
def Num.cmp : Num → Num → Ordering
  | .inf s, .inf t => if s = t then .eq else if s then .lt else .gt
  | .inf s, _ => if s then .lt else .gt
  | _, .inf t => if t then .gt else .lt
  | .fin s m e, .fin t n f =>
    if m = 0 ∧ n = 0 then (if s = t then .eq else if s then .lt else .gt)
    else
      let q := min e f
      compare ((Num.fin s m e).scaled q) ((Num.fin t n f).scaled q)
  | _, _ => .eq

/-- `a < b` as numbers, zeros equal; false with a NaN. -/
def Num.ltv (a b : Num) : Bool :=
  match a, b with
  | .fin s m e, .fin t n f =>
    let q := min e f
    decide ((Num.fin s m e).scaled q < (Num.fin t n f).scaled q)
  | .nan, _ => false
  | _, .nan => false
  | a, b => a.cmp b = .lt

/-- `a = b` as numbers, zeros equal; false with a NaN. -/
def Num.eqv (a b : Num) : Bool := !a.isNan && !b.isNan && !a.ltv b && !b.ltv a

/-! ### Rounding (R64 to R69) -/

/-- The rounding modes: nearest even, pouncing with a 16-bit draw, and the two ties rules of R151; truncation and
rounding to odd serve the array edge and the epilogue. -/
inductive Rnd where
  | even
  | pounce (r : Nat)
  | tiesAway
  | tiesUp
  | truncate
  | odd
deriving DecidableEq, Repr

/-- The multiple of `2^q` a magnitude rounds to, given the sign. -/
def roundMag (rnd : Rnd) (neg : Bool) (m : Nat) (e q : Int) : Nat :=
  let p := splitAt m e q
  match rnd with
  | .truncate => p.quo
  | .odd => if p.exact ∨ p.quo % 2 = 1 then p.quo else p.quo + 1
  | .pounce r => if p.frac16 + r ≥ 65536 then p.quo + 1 else p.quo
  | .even =>
    match p.half with
    | .lt => p.quo
    | .gt => p.quo + 1
    | .eq => if p.quo % 2 = 0 then p.quo else p.quo + 1
  | .tiesAway => if p.half = .lt then p.quo else p.quo + 1
  | .tiesUp =>
    match p.half with
    | .lt => p.quo
    | .gt => p.quo + 1
    | .eq => if neg then p.quo else p.quo + 1

/-- The exponent of the last place a layout keeps of a non-zero magnitude: the subnormal spacing at the bottom. -/
def Layout.quantum (l : Layout) (m : Nat) (e : Int) : Int :=
  max (floorLog2 m e) (1 - (l.bias : Int)) - l.fracBits

/-- The code of `n × 2^q`, for a value the layout holds. -/
def Layout.encodeExact (l : Layout) (neg : Bool) (n : Nat) (q : Int) : Nat :=
  if n = 0 then l.signBit neg
  else
    let k := floorLog2 n q
    let emin := 1 - (l.bias : Int)
    if k < emin then l.signBit neg + n * 2 ^ (q - (emin - l.fracBits)).toNat
    else
      let e := (k + l.bias).toNat
      let frac := (splitAt n q (k - l.fracBits)).quo % 2 ^ l.fracBits
      l.signBit neg + e * 2 ^ l.fracBits + frac

/-- Round a value into a layout and give its value: past the largest finite magnitude it may leave the range. -/
def Layout.roundVal (l : Layout) (rnd : Rnd) : Num → Num
  | .fin neg m e => if m = 0 then .fin neg 0 0 else
      let q := l.quantum m e
      .fin neg (roundMag rnd neg m e q) q
  | x => x

/-- The largest finite magnitude, and the overflow threshold: half a unit in the last place of the top binade beyond
it (R46). -/
def Layout.maxVal (l : Layout) : Nat × Int :=
  match l.decode l.maxCode with
  | .fin _ m e => (m, e)
  | _ => (0, 0)

def Layout.threshold (l : Layout) : Nat × Int :=
  let (m, e) := l.maxVal
  (2 * m + 1, e - 1)

/-- What a conversion counts (R74). -/
inductive CountKind where
  | overflow | vanish | invalid
deriving DecidableEq, Repr

/-- The code a conversion writes, and what it counts. -/
abbrev Conv := Nat × Option CountKind

/-- Convert to a floating-point format (R67); `ieee` is whether the overflow mode in force is IEEE. -/
def Layout.convert (l : Layout) (ieee : Bool) (rnd : Rnd) : Num → Conv
  | .nan => if l.top = .finite then (0, some .invalid) else (l.nanCode, none)
  | .inf neg =>
    if l.top = .ieee ∧ ieee then (l.infCode neg, none) else (l.signBit neg + l.maxCode, some .overflow)
  | .fin neg m e =>
    if m = 0 then (l.signBit neg, none)
    else
      let (tm, te) := l.threshold
      let (mm, me) := l.maxVal
      if cmpMag m e tm te ≠ .lt then
        (if l.top = .ieee ∧ ieee then l.infCode neg else l.signBit neg + l.maxCode, some .overflow)
      else if cmpMag m e mm me = .gt then (l.signBit neg + l.maxCode, none)
      else
        let q := l.quantum m e
        let n := roundMag rnd neg m e q
        (l.encodeExact neg n q, if n = 0 then some .vanish else none)

/-- The range of an integer format (R50). -/
def Fmt.intRange : Fmt → Int × Int
  | .int8 => (-128, 127)
  | .uint8 => (0, 255)
  | .int4 => (-8, 7)
  | _ => (-2147483648, 2147483647)

/-- Convert to an integer in a range, always saturating (R50, R66, R67). -/
def convertInt (lo hi : Int) (rnd : Rnd) : Num → Int × Option CountKind
  | .nan => (0, some .invalid)
  | .inf neg => (if neg then lo else hi, some .overflow)
  | .fin neg m e =>
    let x := Num.fin neg m e
    let q := min e (-1)
    let v := x.scaled q
    let one : Int := (2 ^ (-q).toNat : Nat)
    -- the thresholds lie half a unit beyond the range
    if 2 * v ≥ (2 * hi + 1) * one ∨ 2 * v ≤ (2 * lo - 1) * one then (if neg then lo else hi, some .overflow)
    else if v > hi * one then (hi, none)
    else if v < lo * one then (lo, if lo = 0 then some .vanish else none)
    else
      let n := roundMag rnd neg m e 0
      let y : Int := if neg then -(n : Int) else n
      (y, if n = 0 ∧ m ≠ 0 then some .vanish else none)

/-- Does the conversion follow IEEE overflow? (R65, R66: the mode reaches only E5M2, BF16 and FP16; FP32 is always
IEEE; OVF 0b00 takes the class default, which is saturating only for class 3.) -/
def ieeeMode (f : Fmt) (ovf cls : Nat) : Bool :=
  match f with
  | .fp32 => true
  | .e5m2 | .bf16 | .fp16 => if ovf = 1 then true else if ovf = 2 then false else cls != 3
  | _ => false

/-- The conversion control field (R65). -/
structure Ctl where
  cls : Nat
  ovf : Nat
  pounce : Bool
deriving DecidableEq, Repr

def Ctl.ofNat (v : Nat) : Ctl := ⟨bits v 5 3, bits v 2 1, bit v 0⟩

/-- Is the control field valid? (R65) -/
def ctlValid (v : Nat) : Bool := bits v 7 6 == 0 && bits v 2 1 != 3

/-- Convert an exact value to a format that is not block-scaled (R67). -/
def convert (f : Fmt) (ctl : Ctl) (rnd : Rnd) (x : Num) : Conv :=
  match f.layout with
  | some l => l.convert (ieeeMode f ctl.ovf ctl.cls) rnd x
  | none =>
    let (lo, hi) := f.intRange
    let (v, c) := convertInt lo hi rnd x
    (wrapInt f.width v, c)

/-- Decode an element of a format that is not block-scaled (R45, R50). -/
def decodeElem (f : Fmt) (c : Nat) : Num :=
  match f.layout with
  | some l => l.decode c
  | none =>
    match f with
    | .uint8 => Num.ofInt (c % 256 : Nat)
    | .e8m0 => if c % 256 = 255 then .nan else .fin false 1 ((c % 256 : Nat) - 127)
    | .acc40i => Num.ofInt (signed 40 c)
    | _ => Num.ofInt (signed f.width c)

/-- Decode an element of a block under its scale byte (R53, R54): an infinity of E5M2 decodes as NaN, and a scale of
0xFF makes every element NaN. -/
def decodeBare (f : Fmt) (c : Nat) : Num :=
  match f with
  | .mxint8 => (decodeElem .int8 c).scale (-6)
  | .mxfp8e5 => match decodeElem .e5m2 c with
    | .inf _ => .nan
    | x => x
  | f => decodeElem f.element c

def decodeMx (f : Fmt) (c scale : Nat) : Num :=
  if scale = 255 then .nan else (decodeBare f c).scale ((scale : Int) - 127)

/-! ### MX block conversion (R55 to R57) -/

/-- emax of R55. -/
def Fmt.mxEmax : Fmt → Int
  | .mxfp8e4 => 8 | .mxfp8e5 => 15 | .mxfp6e3 => 4 | .mxfp6e2 => 2 | .mxfp4 => 2 | _ => 0

/-- The element threshold of R55 as a magnitude; 127.5 × 2^-6 for MXINT8. -/
def Fmt.mxThreshold : Fmt → Nat × Int
  | .mxint8 => (255, -7)
  | f => match f.element.layout with
    | some l => l.threshold
    | none => (0, 0)

/-- The scale exponent of a block (R55). -/
def mxScaleExp (f : Fmt) (xs : List Num) : Int :=
  let amax := xs.foldl (fun (a : Nat × Int) x => match x with
    | .fin _ m e => if cmpMag m e a.1 a.2 = .gt then (m, e) else a
    | _ => a) (0, 0)
  if amax.1 = 0 then -127
  else
    let x := floorLog2 amax.1 amax.2 - f.mxEmax
    let (tm, te) := f.mxThreshold
    let x := if cmpMag amax.1 (amax.2 - x) tm te ≠ .lt then x + 1 else x
    clampInt (-127) 127 x

/-- Convert a block: its scale byte, and each element's code and count (R56, R57). The rounding of element `i` is
`rnd i`. -/
def convertBlock (f : Fmt) (rnd : Nat → Rnd) (xs : List Num) : Nat × List Conv :=
  if xs.any Num.isNan then
    (255, xs.map fun x => (0, if x.isNan then some .invalid else none))
  else
    let e := mxScaleExp f xs
    let one (i : Nat) (x : Num) : Conv :=
      match f with
      | .mxint8 =>
        let (v, c) := convertInt (-128) 127 (rnd i) (x.scale (6 - e))
        (wrapInt 8 v, c)
      | f => match f.element.layout with
        | some l => l.convert false (rnd i) (x.scale (-e))
        | none => (0, none)
    ((e + 127).toNat, xs.zipIdx.map fun (x, i) => one i x)

/-! ### Pouncing (R69 to R71) -/

/-- The 64-bit mixing step of R71. -/
def pounceMix (x : Nat) : Nat :=
  let x := x ^^^ (x >>> 31)
  let x := x * 0x9D2C_5680_41F3_E6A7 % 2 ^ 64
  let x := x ^^^ (x >>> 29)
  let x := x * 0xE3A1_7B59_C06D_84F1 % 2 ^ 64
  x ^^^ (x >>> 32)

/-- A 16-bit draw (R71). -/
def pounceBits (seed stream step index : Nat) : Nat :=
  let a := pounceMix ((seed ^^^ (stream <<< 32) ^^^ step) % 2 ^ 64)
  bits (pounceMix ((a ^^^ index) % 2 ^ 64)) 63 48

/-! ### Packing (R51) -/

/-- The codes of `n` packed elements of a width. -/
def unpackElems (width n : Nat) (bs : List Byte) : List Nat :=
  let v := leNat bs
  (List.range n).map fun i => (v >>> (i * width)) % 2 ^ width

/-- Bytes that `n` packed elements take, the last group padded (R51). -/
def packedBytes (width n : Nat) : Nat :=
  if width = 6 then (n + 3) / 4 * 3 else (n * width + 7) / 8

/-- Pack codes, the last group padded with zero elements. -/
def packElems (width : Nat) (cs : List Nat) : List Byte :=
  leBytes (packedBytes width cs.length)
    (cs.zipIdx.foldl (fun acc (c, i) => acc + (c % 2 ^ width) * 2 ^ (i * width)) 0)

/-! ### ACC40 and ERR24 (R60 to R63, R123 to R125, R128) -/

/-- Round into ACC40 float mode; at or beyond the threshold it is an infinity, uncounted (R124). -/
def toAcc40 (x : Num) : Nat := (acc40Layout.convert true .even x).1

def ofAcc40 (c : Nat) : Num := acc40Layout.decode c

/-- The unbiased exponent ERR24 is relative to: −510 for zero and subnormals (R61). -/
def acc40Exp (c : Nat) : Int :=
  let e := bits c 38 29
  if e = 0 then -510 else (e : Int) - 511

def acc40Finite (c : Nat) : Bool := bits c 38 29 != 1023

/-- The compensation an ERR24 code holds beside an accumulator; the reserved code is zero (R61). -/
def ofErr24 (acc err : Nat) : Num :=
  let shift := bits err 22 17
  if shift = 63 ∨ !acc40Finite acc then .fin false 0 0
  else .fin (bit err 23) (2 ^ 17 + err % 2 ^ 17) (acc40Exp acc - 30 - shift - 17)

/-- The code for a zero term: shift 63. -/
def err24Zero : Nat := 63 * 2 ^ 17

/-- Encode the difference `d` as ERR24 relative to the accumulator (R128). -/
def toErr24 (acc : Nat) (d : Num) : Nat :=
  match d with
  | .fin neg m e =>
    if m = 0 ∨ !acc40Finite acc then err24Zero
    else
      let ea := acc40Exp acc
      if floorLog2 m e < ea - 92 then err24Zero
      else
        let k := floorLog2 m e
        let n := roundMag .even neg m e (k - 17)
        let (n, k) := if n = 2 ^ 18 then (2 ^ 17, k + 1) else (n, k)
        let shift := (ea - 30 - k).toNat
        (if neg then 2 ^ 23 else 0) + shift * 2 ^ 17 + n % 2 ^ 17
  | _ => err24Zero

/-- The exact value an accumulator holds, with its compensation in compensated mode (R63). The manual does not say which zero an
ACC40 of −0 with a zero term is; it is +0 here, the sum of −0 and +0. [DESIGN CHOICE: log entry 12] -/
def accPair (acc err : Nat) : Num := (ofAcc40 acc).add (match ofAcc40 acc with
  | .fin .. => ofErr24 acc err
  | _ => .fin false 0 0)

/-- The column sum of R123: infinities and NaNs by R125, else every product truncated to a multiple of `2^(E−47)`
and added exactly. -/
def columnSum (ps : List Num) : Num :=
  if ps.any Num.isNan then .nan
  else if ps.any (fun p => decide (p = .inf false)) then
    (if ps.any (fun p => decide (p = .inf true)) then .nan else .inf false)
  else if ps.any (fun p => decide (p = .inf true)) then .inf true
  else
    let big := ps.foldl (fun (a : Nat × Int) p => match p with
      | .fin _ m e => if cmpMag m e a.1 a.2 = .gt then (m, e) else a
      | _ => a) (0, 0)
    if big.1 = 0 then .fin (ps.all Num.isNeg) 0 0
    else
      let q := floorLog2 big.1 big.2 - 47
      let t := ps.foldl (fun (a : Int) p => match p with
        | .fin neg m e => let n : Int := (roundMag .truncate neg m e q : Nat); if neg then a - n else a + n
        | _ => a) 0
      Num.ofScaled t q

/-- Round to odd to a 48-bit significand in the ACC40 exponent range; beyond it, the largest finite (R135). -/
def roundOdd48 (x : Num) : Num :=
  match x with
  | .fin neg m e =>
    if m = 0 then x
    else
      let q := max (floorLog2 m e) (-510) - 47
      let n := roundMag .odd neg m e q
      let (mm, me) := acc40Layout.maxVal
      if cmpMag n q mm me = .gt then .fin neg mm me else .fin neg n q
  | x => x

/-- The upper part of a split operand: truncated to BF16's significand, for a value BF16's exponent range holds;
infinities and NaNs stand (R94). -/
def splitHi (x : Num) : Num :=
  match x with
  | .fin neg m e =>
    if m = 0 then x
    else
      let q := max (floorLog2 m e) (-126) - 7
      .fin neg (roundMag .truncate neg m e q) q
  | x => x

/-- Round to BF16 by round_even, as a value; past the threshold an infinity (R94, R100). -/
def toBf16Val (x : Num) : Num :=
  match Fmt.bf16.layout with
  | some l => l.decode (l.convert true .even x).1
  | none => x

/-- The lower part (R94): of FP32, the rest rounded to BF16; of FP16, the exact rest; +0 beside an infinity or NaN. -/
def splitLo (f : Fmt) (x : Num) : Num :=
  match x with
  | .fin .. =>
    let d := x.sub (splitHi x)
    if f = .fp16 then d else toBf16Val d
  | _ => .fin false 0 0

end Sys2Proof.Machine
end

