-- ==== Sys2Proof/Machine/Sparse.lean ====
section
/-! DEFINITION. Sparse tables: a list of key and value pairs, keys strictly rising, no entry equal to what an unlisted
key reads as. One canonical form per content, so equal tables are equal data. -/

namespace Sys2Proof.Machine

variable {α : Type}

/-- The value at a key; `d` is what an unlisted key reads as. -/
def Sparse.get (d : α) : List (Nat × α) → Nat → α
  | [], _ => d
  | (k, v) :: r, q => if q < k then d else if q = k then v else Sparse.get d r q

/-- The table after `k` is set to `v`: the entry is removed when `v` is what an unlisted key reads as. -/
def Sparse.put [DecidableEq α] (d : α) : List (Nat × α) → Nat → α → List (Nat × α)
  | [], k, v => if v = d then [] else [(k, v)]
  | (a, b) :: r, k, v =>
    if k < a then (if v = d then (a, b) :: r else (k, v) :: (a, b) :: r)
    else if k = a then (if v = d then r.dropWhile (fun e => decide (e.1 ≤ k)) else (k, v) :: r)
    else (a, b) :: Sparse.put d r k v

/-- Change every listed value; entries that become what an unlisted key reads as leave the table. -/
def Sparse.mapVals [DecidableEq α] (d : α) (f : Nat → α → α) (t : List (Nat × α)) : List (Nat × α) :=
  t.filterMap fun e => if f e.1 e.2 = d then none else some (e.1, f e.1 e.2)

/-- The canonical form, from a lower bound on the keys. -/
def Sparse.wfFrom [DecidableEq α] (d : α) : Nat → List (Nat × α) → Bool
  | _, [] => true
  | b, (k, v) :: r => decide (b ≤ k) && !decide (v = d) && Sparse.wfFrom d (k + 1) r

/-- The canonical form. -/
def Sparse.wf [DecidableEq α] (d : α) (t : List (Nat × α)) : Bool := Sparse.wfFrom d 0 t

end Sys2Proof.Machine
end

