-- ==== Sys2Proof/Machine/Regs.lean ====
section
/-! DEFINITION. The BAR0 register map: one `Family` per register of the manual, with its offset rule and its fields
(bits, access code, reset value, kept-across set), and one `Fld` per field that the meanings name.
Every number is the one of the register tables of spec/ (R7, R9, R10 and the Registers section of each chapter). -/

namespace Sys2Proof.Machine

/-- Access codes of R7. -/
inductive Acc where
  | ro | rw | rwt | rw1c | rc | wo
deriving DecidableEq, Repr

/-- The Kept across column (R10), one name per set of letters the tables use. -/
inductive Kept where
  /-- a dash: kept across nothing -/
  | none
  /-- O, F -/
  | of
  /-- O, F, J, G -/
  | ofjg
  /-- J, G -/
  | jg
  /-- W, O, F, T, J, G, S, Y: the always-on fields of R481 -/
  | all
  /-- W, T, J, G, S, Y: HOLDER, which O and F change as R435 gives -/
  | holder
deriving DecidableEq, Repr

/-- The reset kinds and low-power states of R480. -/
inductive ResetKind where
  | P | W | O | F | T | J | G | S | Y
deriving DecidableEq, Repr

/-- Does the Kept across set name the letter? (R10) -/
def Kept.keeps : Kept → ResetKind → Bool
  | .none, _ => false
  | .of, k => k == .O || k == .F
  | .ofjg, k => k == .O || k == .F || k == .J || k == .G
  | .jg, k => k == .J || k == .G
  | .all, k => k != .P
  | .holder, k => k != .P && k != .O && k != .F

/-- A row of a register's field table. `own` marks a field whose write is a command of its own (a row of the
operation table), which REGISTER_WRITE therefore leaves alone. -/
structure FieldRow where
  name : String
  lo : Nat
  width : Nat
  acc : Acc
  reset : Nat
  kept : Kept
  own : Bool
  /-- the range a write is clamped to, where the table gives one -/
  clamp : Option (Nat × Nat) := none
deriving DecidableEq, Repr

/-- A register, or a family of registers whose offsets follow one rule: base plus a multiple of each stride. -/
structure Family where
  name : String
  base : Nat
  dims : List (Nat × Nat)
  width : Nat
  fields : List FieldRow
deriving DecidableEq, Repr

/-- One field of one register: where it is (offset, low bit), its width and its Reset value. -/
structure Fld where
  off : Nat
  lo : Nat
  width : Nat
  reset : Nat
deriving DecidableEq, Repr

/-- The key of a field in the field store. -/
def Fld.key (f : Fld) : Nat := f.off * 64 + f.lo

/-- The distance between port A's and port B's copy of a register that each port has of its own (R422, R478):
BAR0 is 64 MiB, so a copy for port B is filed above it. -/
def portBCopy : Nat := 0x1000_0000

namespace Reg

/-- CRN_FULLER_CFG.HOLD (03_matrix_arrays.md): RWT, reset 16. -/
def CRN_FULLER_CFG_HOLD (n : Nat) : Fld := ⟨0x1000100 + n * 0x400000, 16, 7, 16⟩
/-- CRN_FULLER_CFG.DOWN_QUOTA (03_matrix_arrays.md): RWT, reset 48. -/
def CRN_FULLER_CFG_DOWN_QUOTA (n : Nat) : Fld := ⟨0x1000100 + n * 0x400000, 8, 6, 48⟩
/-- CRN_FULLER_CFG.UP_QUOTA (03_matrix_arrays.md): RWT, reset 9. -/
def CRN_FULLER_CFG_UP_QUOTA (n : Nat) : Fld := ⟨0x1000100 + n * 0x400000, 0, 4, 9⟩
/-- CRN_ARR_CNT_F.FILL (03_matrix_arrays.md): RO, reset 0. -/
def CRN_ARR_CNT_F_FILL (n c : Nat) : Fld := ⟨0x1010010 + n * 0x400000 + c * 0x1000, 40, 24, 0⟩
/-- CRN_ARR_CNT_F.WORK (03_matrix_arrays.md): RO, reset 0. -/
def CRN_ARR_CNT_F_WORK (n c : Nat) : Fld := ⟨0x1010010 + n * 0x400000 + c * 0x1000, 0, 40, 0⟩
/-- CRN_ARR_CNT_B.FILL (03_matrix_arrays.md): RO, reset 0. -/
def CRN_ARR_CNT_B_FILL (n c : Nat) : Fld := ⟨0x1010018 + n * 0x400000 + c * 0x1000, 40, 24, 0⟩
/-- CRN_ARR_CNT_B.WORK (03_matrix_arrays.md): RO, reset 0. -/
def CRN_ARR_CNT_B_WORK (n c : Nat) : Fld := ⟨0x1010018 + n * 0x400000 + c * 0x1000, 0, 40, 0⟩
/-- CRN_ACC_TILE_F.VALID (04_accumulation.md): RW, reset 0. -/
def CRN_ACC_TILE_F_VALID (n c s : Nat) : Fld := ⟨0x1010080 + n * 0x400000 + c * 0x1000 + s * 0x4, 31, 1, 0⟩
/-- CRN_ACC_TILE_F.MODE (04_accumulation.md): RW, reset 0. -/
def CRN_ACC_TILE_F_MODE (n c s : Nat) : Fld := ⟨0x1010080 + n * 0x400000 + c * 0x1000 + s * 0x4, 28, 3, 0⟩
/-- CRN_ACC_TILE_F.RSZ (04_accumulation.md): RW, reset 0. -/
def CRN_ACC_TILE_F_RSZ (n c s : Nat) : Fld := ⟨0x1010080 + n * 0x400000 + c * 0x1000 + s * 0x4, 25, 3, 0⟩
/-- CRN_ACC_TILE_F.BASE (04_accumulation.md): RW, reset 0. -/
def CRN_ACC_TILE_F_BASE (n c s : Nat) : Fld := ⟨0x1010080 + n * 0x400000 + c * 0x1000 + s * 0x4, 0, 9, 0⟩
/-- CRN_ACC_TILE_B.VALID (04_accumulation.md): RW, reset 0. -/
def CRN_ACC_TILE_B_VALID (n c s : Nat) : Fld := ⟨0x10100c0 + n * 0x400000 + c * 0x1000 + s * 0x4, 31, 1, 0⟩
/-- CRN_ACC_TILE_B.MODE (04_accumulation.md): RW, reset 0. -/
def CRN_ACC_TILE_B_MODE (n c s : Nat) : Fld := ⟨0x10100c0 + n * 0x400000 + c * 0x1000 + s * 0x4, 28, 3, 0⟩
/-- CRN_ACC_TILE_B.RSZ (04_accumulation.md): RW, reset 0. -/
def CRN_ACC_TILE_B_RSZ (n c s : Nat) : Fld := ⟨0x10100c0 + n * 0x400000 + c * 0x1000 + s * 0x4, 25, 3, 0⟩
/-- CRN_ACC_TILE_B.BASE (04_accumulation.md): RW, reset 0. -/
def CRN_ACC_TILE_B_BASE (n c s : Nat) : Fld := ⟨0x10100c0 + n * 0x400000 + c * 0x1000 + s * 0x4, 0, 9, 0⟩
/-- CRN_ACC_SAVE.B_KIB (04_accumulation.md): RO, reset 0. -/
def CRN_ACC_SAVE_B_KIB (n c : Nat) : Fld := ⟨0x1010020 + n * 0x400000 + c * 0x1000, 16, 10, 0⟩
/-- CRN_ACC_SAVE.F_KIB (04_accumulation.md): RO, reset 0. -/
def CRN_ACC_SAVE_F_KIB (n c : Nat) : Fld := ⟨0x1010020 + n * 0x400000 + c * 0x1000, 8, 8, 0⟩
/-- CRN_ACC_SAVE.BASE (04_accumulation.md): RO, reset 0. -/
def CRN_ACC_SAVE_BASE (n c : Nat) : Fld := ⟨0x1010020 + n * 0x400000 + c * 0x1000, 0, 8, 0⟩
/-- CRN_ACC_STATUS.CORR_CNT (04_accumulation.md): RO, reset 0. -/
def CRN_ACC_STATUS_CORR_CNT (n c : Nat) : Fld := ⟨0x1010028 + n * 0x400000 + c * 0x1000, 48, 16, 0⟩
/-- CRN_ACC_STATUS.POISON (04_accumulation.md): RW1C, reset 0. -/
def CRN_ACC_STATUS_POISON (n c : Nat) : Fld := ⟨0x1010028 + n * 0x400000 + c * 0x1000, 2, 1, 0⟩
/-- CRN_ACC_STATUS.DESC_ERR_B (04_accumulation.md): RW1C, reset 0. -/
def CRN_ACC_STATUS_DESC_ERR_B (n c : Nat) : Fld := ⟨0x1010028 + n * 0x400000 + c * 0x1000, 1, 1, 0⟩
/-- CRN_ACC_STATUS.DESC_ERR_F (04_accumulation.md): RW1C, reset 0. -/
def CRN_ACC_STATUS_DESC_ERR_F (n c : Nat) : Fld := ⟨0x1010028 + n * 0x400000 + c * 0x1000, 0, 1, 0⟩
/-- CRN_QZP.ZS_EN_B (05_quantised_paths.md): RO, reset 0. -/
def CRN_QZP_ZS_EN_B (n c : Nat) : Fld := ⟨0x1010030 + n * 0x400000 + c * 0x1000, 56, 1, 0⟩
/-- CRN_QZP.ZS_B (05_quantised_paths.md): RO, reset 0. -/
def CRN_QZP_ZS_B (n c : Nat) : Fld := ⟨0x1010030 + n * 0x400000 + c * 0x1000, 48, 8, 0⟩
/-- CRN_QZP.ZA_EN_B (05_quantised_paths.md): RO, reset 0. -/
def CRN_QZP_ZA_EN_B (n c : Nat) : Fld := ⟨0x1010030 + n * 0x400000 + c * 0x1000, 40, 1, 0⟩
/-- CRN_QZP.ZA_B (05_quantised_paths.md): RO, reset 0. -/
def CRN_QZP_ZA_B (n c : Nat) : Fld := ⟨0x1010030 + n * 0x400000 + c * 0x1000, 32, 8, 0⟩
/-- CRN_QZP.ZS_EN_F (05_quantised_paths.md): RO, reset 0. -/
def CRN_QZP_ZS_EN_F (n c : Nat) : Fld := ⟨0x1010030 + n * 0x400000 + c * 0x1000, 24, 1, 0⟩
/-- CRN_QZP.ZS_F (05_quantised_paths.md): RO, reset 0. -/
def CRN_QZP_ZS_F (n c : Nat) : Fld := ⟨0x1010030 + n * 0x400000 + c * 0x1000, 16, 8, 0⟩
/-- CRN_QZP.ZA_EN_F (05_quantised_paths.md): RO, reset 0. -/
def CRN_QZP_ZA_EN_F (n c : Nat) : Fld := ⟨0x1010030 + n * 0x400000 + c * 0x1000, 8, 1, 0⟩
/-- CRN_QZP.ZA_F (05_quantised_paths.md): RO, reset 0. -/
def CRN_QZP_ZA_F (n c : Nat) : Fld := ⟨0x1010030 + n * 0x400000 + c * 0x1000, 0, 8, 0⟩
/-- CRN_VEC_STG.ENTRY (06_vector_engine.md): RW, reset 0. -/
def CRN_VEC_STG_ENTRY (n c d s : Nat) : Fld := ⟨0x1010100 + n * 0x400000 + c * 0x1000 + d * 0x40 + s * 0x8, 0, 64, 0⟩
/-- CRN_VEC_HDR.VALID (06_vector_engine.md): RW, reset 0. -/
def CRN_VEC_HDR_VALID (n c d : Nat) : Fld := ⟨0x1010500 + n * 0x400000 + c * 0x1000 + d * 0x8, 63, 1, 0⟩
/-- CRN_VEC_HDR.NST (06_vector_engine.md): RW, reset 0. -/
def CRN_VEC_HDR_NST (n c d : Nat) : Fld := ⟨0x1010500 + n * 0x400000 + c * 0x1000 + d * 0x8, 60, 3, 0⟩
/-- CRN_VEC_HDR.DREG (06_vector_engine.md): RW, reset 0. -/
def CRN_VEC_HDR_DREG (n c d : Nat) : Fld := ⟨0x1010500 + n * 0x400000 + c * 0x1000 + d * 0x8, 54, 6, 0⟩
/-- CRN_VEC_HDR.DSREG (06_vector_engine.md): RW, reset 0. -/
def CRN_VEC_HDR_DSREG (n c d : Nat) : Fld := ⟨0x1010500 + n * 0x400000 + c * 0x1000 + d * 0x8, 48, 6, 0⟩
/-- CRN_VEC_HDR.SSREG (06_vector_engine.md): RW, reset 0. -/
def CRN_VEC_HDR_SSREG (n c d : Nat) : Fld := ⟨0x1010500 + n * 0x400000 + c * 0x1000 + d * 0x8, 42, 6, 0⟩
/-- CRN_VEC_HDR.IXREG (06_vector_engine.md): RW, reset 0. -/
def CRN_VEC_HDR_IXREG (n c d : Nat) : Fld := ⟨0x1010500 + n * 0x400000 + c * 0x1000 + d * 0x8, 36, 6, 0⟩
/-- CRN_VEC_HDR.SMASK (06_vector_engine.md): RW, reset 0. -/
def CRN_VEC_HDR_SMASK (n c d : Nat) : Fld := ⟨0x1010500 + n * 0x400000 + c * 0x1000 + d * 0x8, 35, 1, 0⟩
/-- CRN_VEC_HDR.MXSREG (06_vector_engine.md): RW, reset 0. -/
def CRN_VEC_HDR_MXSREG (n c d : Nat) : Fld := ⟨0x1010500 + n * 0x400000 + c * 0x1000 + d * 0x8, 29, 6, 0⟩
/-- CRN_VEC_STATUS.BUF_POISON (06_vector_engine.md): RW1C, reset 0. -/
def CRN_VEC_STATUS_BUF_POISON (n c : Nat) : Fld := ⟨0x1010580 + n * 0x400000 + c * 0x1000, 5, 1, 0⟩
/-- CRN_VEC_STATUS.DESC_ERR (06_vector_engine.md): RW1C, reset 0. -/
def CRN_VEC_STATUS_DESC_ERR (n c : Nat) : Fld := ⟨0x1010580 + n * 0x400000 + c * 0x1000, 4, 1, 0⟩
/-- CRN_VEC_STATUS.CMD_ERR (06_vector_engine.md): RW1C, reset 0. -/
def CRN_VEC_STATUS_CMD_ERR (n c : Nat) : Fld := ⟨0x1010580 + n * 0x400000 + c * 0x1000, 3, 1, 0⟩
/-- CRN_VEC_STATUS.SAT (06_vector_engine.md): RW1C, reset 0. -/
def CRN_VEC_STATUS_SAT (n c : Nat) : Fld := ⟨0x1010580 + n * 0x400000 + c * 0x1000, 2, 1, 0⟩
/-- CRN_VEC_STATUS.EMPTY (06_vector_engine.md): RW1C, reset 0. -/
def CRN_VEC_STATUS_EMPTY (n c : Nat) : Fld := ⟨0x1010580 + n * 0x400000 + c * 0x1000, 1, 1, 0⟩
/-- CRN_VEC_CNT_SEL.FMT (06_vector_engine.md): RW, reset 0. -/
def CRN_VEC_CNT_SEL_FMT (n c : Nat) : Fld := ⟨0x1010588 + n * 0x400000 + c * 0x1000, 8, 5, 0⟩
/-- CRN_VEC_CNT_SEL.CLASS (06_vector_engine.md): RW, reset 0. -/
def CRN_VEC_CNT_SEL_CLASS (n c : Nat) : Fld := ⟨0x1010588 + n * 0x400000 + c * 0x1000, 0, 3, 0⟩
/-- CRN_CNT_SEL.FMT (06_vector_engine.md): RW, reset 0. -/
def CRN_CNT_SEL_FMT (n : Nat) : Fld := ⟨0x1000200 + n * 0x400000, 8, 5, 0⟩
/-- CRN_CNT_SEL.CLASS (06_vector_engine.md): RW, reset 0. -/
def CRN_CNT_SEL_CLASS (n : Nat) : Fld := ⟨0x1000200 + n * 0x400000, 0, 3, 0⟩
/-- CRN_VEC_CNT_OVF.COUNT (06_vector_engine.md): RO, reset 0. -/
def CRN_VEC_CNT_OVF_COUNT (n c : Nat) : Fld := ⟨0x1010590 + n * 0x400000 + c * 0x1000, 0, 48, 0⟩
/-- CRN_VEC_CNT_VAN.COUNT (06_vector_engine.md): RO, reset 0. -/
def CRN_VEC_CNT_VAN_COUNT (n c : Nat) : Fld := ⟨0x1010598 + n * 0x400000 + c * 0x1000, 0, 48, 0⟩
/-- CRN_VEC_CNT_INV.COUNT (06_vector_engine.md): RO, reset 0. -/
def CRN_VEC_CNT_INV_COUNT (n c : Nat) : Fld := ⟨0x10105a0 + n * 0x400000 + c * 0x1000, 0, 48, 0⟩
/-- CRN_CNT_OVF.COUNT (06_vector_engine.md): RO, reset 0. -/
def CRN_CNT_OVF_COUNT (n : Nat) : Fld := ⟨0x1000208 + n * 0x400000, 0, 48, 0⟩
/-- CRN_CNT_VAN.COUNT (06_vector_engine.md): RO, reset 0. -/
def CRN_CNT_VAN_COUNT (n : Nat) : Fld := ⟨0x1000210 + n * 0x400000, 0, 48, 0⟩
/-- CRN_CNT_INV.COUNT (06_vector_engine.md): RO, reset 0. -/
def CRN_CNT_INV_COUNT (n : Nat) : Fld := ⟨0x1000218 + n * 0x400000, 0, 48, 0⟩
/-- CRN_SWAP_STALL.B_STALL (07_backward_pass.md): RO, reset 0. -/
def CRN_SWAP_STALL_B_STALL (n c : Nat) : Fld := ⟨0x1010038 + n * 0x400000 + c * 0x1000, 32, 32, 0⟩
/-- CRN_SWAP_STALL.F_STALL (07_backward_pass.md): RO, reset 0. -/
def CRN_SWAP_STALL_F_STALL (n c : Nat) : Fld := ⟨0x1010038 + n * 0x400000 + c * 0x1000, 0, 32, 0⟩
/-- CRN_FLEX_CFG.EN (07_backward_pass.md): RO, reset 0. -/
def CRN_FLEX_CFG_EN (n c : Nat) : Fld := ⟨0x1010040 + n * 0x400000 + c * 0x1000, 0, 1, 0⟩
/-- CRN_FLEX_STAT.JOB_ERR (07_backward_pass.md): RW1C, reset 0. -/
def CRN_FLEX_STAT_JOB_ERR (n c : Nat) : Fld := ⟨0x1010050 + n * 0x400000 + c * 0x1000, 20, 1, 0⟩
/-- CRN_FLEX_CNT.B_JOBS (07_backward_pass.md): RO, reset 0. -/
def CRN_FLEX_CNT_B_JOBS (n c : Nat) : Fld := ⟨0x1010058 + n * 0x400000 + c * 0x1000, 32, 32, 0⟩
/-- CRN_FLEX_CNT.F_JOBS (07_backward_pass.md): RO, reset 0. -/
def CRN_FLEX_CNT_F_JOBS (n c : Nat) : Fld := ⟨0x1010058 + n * 0x400000 + c * 0x1000, 0, 32, 0⟩
/-- TIER_LOCAL.ADAPT (08_memory_tiers.md): RO, reset 0. -/
def TIER_LOCAL_ADAPT : Fld := ⟨0x104000, 20, 20, 0⟩
/-- TIER_LOCAL.LOCAL (08_memory_tiers.md): RO, reset 0. -/
def TIER_LOCAL_LOCAL : Fld := ⟨0x104000, 0, 20, 0⟩
/-- TIER_CFG.SCRUB_EN (08_memory_tiers.md): RWT, reset 1. -/
def TIER_CFG_SCRUB_EN (t : Nat) : Fld := ⟨0x100000 + t * 0x1000, 16, 1, 1⟩
/-- TIER_CFG.POOL_MIB (08_memory_tiers.md): RO, reset 0. -/
def TIER_CFG_POOL_MIB (t : Nat) : Fld := ⟨0x100000 + t * 0x1000, 6, 10, 0⟩
/-- TIER_CFG.RATE (08_memory_tiers.md): RWT, reset 8. -/
def TIER_CFG_RATE (t : Nat) : Fld := ⟨0x100000 + t * 0x1000, 0, 6, 8⟩
/-- TIER_QUOTA.STATE (08_memory_tiers.md): RO, reset 0. -/
def TIER_QUOTA_STATE (t : Nat) : Fld := ⟨0x100008 + t * 0x1000, 40, 10, 0⟩
/-- TIER_QUOTA.GRADBUF (08_memory_tiers.md): RO, reset 0. -/
def TIER_QUOTA_GRADBUF (t : Nat) : Fld := ⟨0x100008 + t * 0x1000, 30, 10, 0⟩
/-- TIER_QUOTA.STASH (08_memory_tiers.md): RO, reset 0. -/
def TIER_QUOTA_STASH (t : Nat) : Fld := ⟨0x100008 + t * 0x1000, 20, 10, 0⟩
/-- TIER_QUOTA.PHASE (08_memory_tiers.md): RO, reset 0. -/
def TIER_QUOTA_PHASE (t : Nat) : Fld := ⟨0x100008 + t * 0x1000, 10, 10, 0⟩
/-- TIER_QUOTA.PIN (08_memory_tiers.md): RO, reset 0. -/
def TIER_QUOTA_PIN (t : Nat) : Fld := ⟨0x100008 + t * 0x1000, 0, 10, 0⟩
/-- TIER_STATUS.SPILL (08_memory_tiers.md): RW1C, reset 0. -/
def TIER_STATUS_SPILL (t : Nat) : Fld := ⟨0x100010 + t * 0x1000, 5, 1, 0⟩
/-- TIER_STATUS.ADDR_FAULT (08_memory_tiers.md): RW1C, reset 0. -/
def TIER_STATUS_ADDR_FAULT (t : Nat) : Fld := ⟨0x100010 + t * 0x1000, 4, 1, 0⟩
/-- TIER_STATUS.CHAN_FAIL (08_memory_tiers.md): RW1C, reset 0. -/
def TIER_STATUS_CHAN_FAIL (t : Nat) : Fld := ⟨0x100010 + t * 0x1000, 3, 1, 0⟩
/-- TIER_STATUS.LANE_FAIL (08_memory_tiers.md): RW1C, reset 0. -/
def TIER_STATUS_LANE_FAIL (t : Nat) : Fld := ⟨0x100010 + t * 0x1000, 2, 1, 0⟩
/-- TIER_STATUS.SPARE_LOW (08_memory_tiers.md): RW1C, reset 0. -/
def TIER_STATUS_SPARE_LOW (t : Nat) : Fld := ⟨0x100010 + t * 0x1000, 1, 1, 0⟩
/-- TIER_STATUS.UNCORR (08_memory_tiers.md): RW1C, reset 0. -/
def TIER_STATUS_UNCORR (t : Nat) : Fld := ⟨0x100010 + t * 0x1000, 0, 1, 0⟩
/-- TIER_ECC.POISON_USE (08_memory_tiers.md): RO, reset 0. -/
def TIER_ECC_POISON_USE (t : Nat) : Fld := ⟨0x100018 + t * 0x1000, 48, 16, 0⟩
/-- TIER_ECC.UNCORR (08_memory_tiers.md): RO, reset 0. -/
def TIER_ECC_UNCORR (t : Nat) : Fld := ⟨0x100018 + t * 0x1000, 32, 16, 0⟩
/-- TIER_ECC.CORR (08_memory_tiers.md): RO, reset 0. -/
def TIER_ECC_CORR (t : Nat) : Fld := ⟨0x100018 + t * 0x1000, 0, 32, 0⟩
/-- TIER_PAGE_CNT.SPILLED (08_memory_tiers.md): RO, reset 0. -/
def TIER_PAGE_CNT_SPILLED (t : Nat) : Fld := ⟨0x100020 + t * 0x1000, 48, 16, 0⟩
/-- TIER_PAGE_CNT.LEFT (08_memory_tiers.md): RO, reset 0. -/
def TIER_PAGE_CNT_LEFT (t : Nat) : Fld := ⟨0x100020 + t * 0x1000, 24, 24, 0⟩
/-- TIER_PAGE_CNT.STAGED (08_memory_tiers.md): RO, reset 0. -/
def TIER_PAGE_CNT_STAGED (t : Nat) : Fld := ⟨0x100020 + t * 0x1000, 0, 24, 0⟩
/-- TIER_MAINT.DEEP_PASSES (08_memory_tiers.md): RO, reset 0. -/
def TIER_MAINT_DEEP_PASSES (t : Nat) : Fld := ⟨0x100028 + t * 0x1000, 12, 12, 0⟩
/-- TIER_MAINT.NEAR_PASSES (08_memory_tiers.md): RO, reset 0. -/
def TIER_MAINT_NEAR_PASSES (t : Nat) : Fld := ⟨0x100028 + t * 0x1000, 0, 12, 0⟩
/-- TIER_ERR_ADDR.VALID (08_memory_tiers.md): RW1C, reset 0. -/
def TIER_ERR_ADDR_VALID (t : Nat) : Fld := ⟨0x100030 + t * 0x1000, 63, 1, 0⟩
/-- TIER_ERR_ADDR.KIND (08_memory_tiers.md): RO, reset 0. -/
def TIER_ERR_ADDR_KIND (t : Nat) : Fld := ⟨0x100030 + t * 0x1000, 48, 2, 0⟩
/-- TIER_ERR_ADDR.ADDR (08_memory_tiers.md): RO, reset 0. -/
def TIER_ERR_ADDR_ADDR (t : Nat) : Fld := ⟨0x100030 + t * 0x1000, 0, 48, 0⟩
/-- UPD_CFG.SWEEP_AT (09_optimiser_and_weights.md): RO, reset 65535. -/
def UPD_CFG_SWEEP_AT : Fld := ⟨0x404000, 16, 16, 65535⟩
/-- UPD_CFG.DIG_INT (09_optimiser_and_weights.md): RWT, reset 64. -/
def UPD_CFG_DIG_INT : Fld := ⟨0x404000, 0, 16, 64⟩
/-- UPD_CTL.REGEN (09_optimiser_and_weights.md): WO, reset 0. -/
def UPD_CTL_REGEN : Fld := ⟨0x404008, 0, 1, 0⟩
/-- UPD_STATUS.STEP (09_optimiser_and_weights.md): RO, reset 0. -/
def UPD_STATUS_STEP (t : Nat) : Fld := ⟨0x400000 + t * 0x1000, 32, 32, 0⟩
/-- UPD_STATUS.PHASE (09_optimiser_and_weights.md): RO, reset 0. -/
def UPD_STATUS_PHASE (t : Nat) : Fld := ⟨0x400000 + t * 0x1000, 16, 2, 0⟩
/-- UPD_STATUS.OVERCOUNT (09_optimiser_and_weights.md): RW1C, reset 0. -/
def UPD_STATUS_OVERCOUNT (t : Nat) : Fld := ⟨0x400000 + t * 0x1000, 5, 1, 0⟩
/-- UPD_STATUS.SHORT (09_optimiser_and_weights.md): RW1C, reset 0. -/
def UPD_STATUS_SHORT (t : Nat) : Fld := ⟨0x400000 + t * 0x1000, 4, 1, 0⟩
/-- UPD_STATUS.POISON (09_optimiser_and_weights.md): RW1C, reset 0. -/
def UPD_STATUS_POISON (t : Nat) : Fld := ⟨0x400000 + t * 0x1000, 3, 1, 0⟩
/-- UPD_STATUS.NONFINITE (09_optimiser_and_weights.md): RW1C, reset 0. -/
def UPD_STATUS_NONFINITE (t : Nat) : Fld := ⟨0x400000 + t * 0x1000, 2, 1, 0⟩
/-- UPD_STATUS.DIG_MISMATCH (09_optimiser_and_weights.md): RW1C, reset 0. -/
def UPD_STATUS_DIG_MISMATCH (t : Nat) : Fld := ⟨0x400000 + t * 0x1000, 1, 1, 0⟩
/-- UPD_STATUS.DIG_INVALID (09_optimiser_and_weights.md): RW1C, reset 0. -/
def UPD_STATUS_DIG_INVALID (t : Nat) : Fld := ⟨0x400000 + t * 0x1000, 0, 1, 0⟩
/-- UPD_PROGRESS.TOTAL (09_optimiser_and_weights.md): RO, reset 0. -/
def UPD_PROGRESS_TOTAL (t : Nat) : Fld := ⟨0x400008 + t * 0x1000, 32, 32, 0⟩
/-- UPD_PROGRESS.DONE (09_optimiser_and_weights.md): RO, reset 0. -/
def UPD_PROGRESS_DONE (t : Nat) : Fld := ⟨0x400008 + t * 0x1000, 0, 32, 0⟩
/-- UPD_STALL.IDLE (09_optimiser_and_weights.md): RO, reset 0. -/
def UPD_STALL_IDLE (t : Nat) : Fld := ⟨0x400010 + t * 0x1000, 32, 32, 0⟩
/-- UPD_STALL.PASSED (09_optimiser_and_weights.md): RO, reset 0. -/
def UPD_STALL_PASSED (t : Nat) : Fld := ⟨0x400010 + t * 0x1000, 0, 32, 0⟩
/-- UPD_GRAD.OVERCOUNT (09_optimiser_and_weights.md): RO, reset 0. -/
def UPD_GRAD_OVERCOUNT (t : Nat) : Fld := ⟨0x400018 + t * 0x1000, 56, 8, 0⟩
/-- UPD_GRAD.SHORT (09_optimiser_and_weights.md): RO, reset 0. -/
def UPD_GRAD_SHORT (t : Nat) : Fld := ⟨0x400018 + t * 0x1000, 40, 16, 0⟩
/-- UPD_GRAD.POISON_BLK (09_optimiser_and_weights.md): RO, reset 0. -/
def UPD_GRAD_POISON_BLK (t : Nat) : Fld := ⟨0x400018 + t * 0x1000, 24, 16, 0⟩
/-- UPD_GRAD.NONFINITE (09_optimiser_and_weights.md): RO, reset 0. -/
def UPD_GRAD_NONFINITE (t : Nat) : Fld := ⟨0x400018 + t * 0x1000, 0, 24, 0⟩
/-- UPD_CNT_SEL.FMT (09_optimiser_and_weights.md): RW, reset 0. -/
def UPD_CNT_SEL_FMT (t : Nat) : Fld := ⟨0x400020 + t * 0x1000, 8, 5, 0⟩
/-- UPD_CNT_SEL.CLASS (09_optimiser_and_weights.md): RW, reset 0. -/
def UPD_CNT_SEL_CLASS (t : Nat) : Fld := ⟨0x400020 + t * 0x1000, 0, 3, 0⟩
/-- UPD_CNT_OVF.COUNT (09_optimiser_and_weights.md): RO, reset 0. -/
def UPD_CNT_OVF_COUNT (t : Nat) : Fld := ⟨0x400028 + t * 0x1000, 0, 48, 0⟩
/-- UPD_CNT_VAN.COUNT (09_optimiser_and_weights.md): RO, reset 0. -/
def UPD_CNT_VAN_COUNT (t : Nat) : Fld := ⟨0x400030 + t * 0x1000, 0, 48, 0⟩
/-- UPD_CNT_INV.COUNT (09_optimiser_and_weights.md): RO, reset 0. -/
def UPD_CNT_INV_COUNT (t : Nat) : Fld := ⟨0x400038 + t * 0x1000, 0, 48, 0⟩
/-- UPD_CNT_TOT.COUNT (09_optimiser_and_weights.md): RO, reset 0. -/
def UPD_CNT_TOT_COUNT (t : Nat) : Fld := ⟨0x400040 + t * 0x1000, 0, 48, 0⟩
/-- UPD_DIG_STAT.LAST_STEP (09_optimiser_and_weights.md): RO, reset 0. -/
def UPD_DIG_STAT_LAST_STEP (t : Nat) : Fld := ⟨0x400050 + t * 0x1000, 32, 32, 0⟩
/-- UPD_DIG_STAT.MISMATCHES (09_optimiser_and_weights.md): RO, reset 0. -/
def UPD_DIG_STAT_MISMATCHES (t : Nat) : Fld := ⟨0x400050 + t * 0x1000, 16, 16, 0⟩
/-- UPD_DIG_STAT.LAST_BAD (09_optimiser_and_weights.md): RO, reset 0. -/
def UPD_DIG_STAT_LAST_BAD (t : Nat) : Fld := ⟨0x400050 + t * 0x1000, 0, 16, 0⟩
/-- HB_LINK_CTL.ACTIVATE (10_hatband_fabric.md): WO, reset 0. -/
def HB_LINK_CTL_ACTIVATE (L : Nat) : Fld := ⟨0x200000 + L * 0x1000, 2, 1, 0⟩
/-- HB_LINK_CTL.RETRAIN (10_hatband_fabric.md): WO, reset 0. -/
def HB_LINK_CTL_RETRAIN (L : Nat) : Fld := ⟨0x200000 + L * 0x1000, 1, 1, 0⟩
/-- HB_LINK_CTL.EN (10_hatband_fabric.md): RWT, reset 1. -/
def HB_LINK_CTL_EN (L : Nat) : Fld := ⟨0x200000 + L * 0x1000, 0, 1, 1⟩
/-- HB_LINK_STATUS.LINKVER (10_hatband_fabric.md): RO, reset 0. -/
def HB_LINK_STATUS_LINKVER (L : Nat) : Fld := ⟨0x200008 + L * 0x1000, 20, 4, 0⟩
/-- HB_LINK_STATUS.FENCED_EV (10_hatband_fabric.md): RW1C, reset 0. -/
def HB_LINK_STATUS_FENCED_EV (L : Nat) : Fld := ⟨0x200008 + L * 0x1000, 19, 1, 0⟩
/-- HB_LINK_STATUS.MISWIRE (10_hatband_fabric.md): RW1C, reset 0. -/
def HB_LINK_STATUS_MISWIRE (L : Nat) : Fld := ⟨0x200008 + L * 0x1000, 18, 1, 0⟩
/-- HB_LINK_STATUS.REFUSED (10_hatband_fabric.md): RW1C, reset 0. -/
def HB_LINK_STATUS_REFUSED (L : Nat) : Fld := ⟨0x200008 + L * 0x1000, 17, 1, 0⟩
/-- HB_LINK_STATUS.DOWN_EV (10_hatband_fabric.md): RW1C, reset 0. -/
def HB_LINK_STATUS_DOWN_EV (L : Nat) : Fld := ⟨0x200008 + L * 0x1000, 16, 1, 0⟩
/-- HB_LINK_STATUS.REASON (10_hatband_fabric.md): RO, reset 0. -/
def HB_LINK_STATUS_REASON (L : Nat) : Fld := ⟨0x200008 + L * 0x1000, 8, 4, 0⟩
/-- HB_LINK_STATUS.ATTEMPTS (10_hatband_fabric.md): RO, reset 0. -/
def HB_LINK_STATUS_ATTEMPTS (L : Nat) : Fld := ⟨0x200008 + L * 0x1000, 4, 2, 0⟩
/-- HB_LINK_STATUS.STATE (10_hatband_fabric.md): RO, reset 0. -/
def HB_LINK_STATUS_STATE (L : Nat) : Fld := ⟨0x200008 + L * 0x1000, 0, 4, 0⟩
/-- HB_LINK_MEAS.FLIGHT (10_hatband_fabric.md): RO, reset 0. -/
def HB_LINK_MEAS_FLIGHT (L : Nat) : Fld := ⟨0x200010 + L * 0x1000, 20, 16, 0⟩
/-- HB_LINK_MEAS.LEN_EST (10_hatband_fabric.md): RO, reset 0. -/
def HB_LINK_MEAS_LEN_EST (L : Nat) : Fld := ⟨0x200010 + L * 0x1000, 10, 10, 0⟩
/-- HB_LINK_MEAS.IL (10_hatband_fabric.md): RO, reset 0. -/
def HB_LINK_MEAS_IL (L : Nat) : Fld := ⟨0x200010 + L * 0x1000, 0, 10, 0⟩
/-- HB_PARTNER.VERMAX (10_hatband_fabric.md): RO, reset 0. -/
def HB_PARTNER_VERMAX (L : Nat) : Fld := ⟨0x200018 + L * 0x1000, 43, 4, 0⟩
/-- HB_PARTNER.VERMIN (10_hatband_fabric.md): RO, reset 0. -/
def HB_PARTNER_VERMIN (L : Nat) : Fld := ⟨0x200018 + L * 0x1000, 39, 4, 0⟩
/-- HB_PARTNER.COORD_VALID (10_hatband_fabric.md): RO, reset 0. -/
def HB_PARTNER_COORD_VALID (L : Nat) : Fld := ⟨0x200018 + L * 0x1000, 38, 1, 0⟩
/-- HB_PARTNER.COORD (10_hatband_fabric.md): RO, reset 0. -/
def HB_PARTNER_COORD (L : Nat) : Fld := ⟨0x200018 + L * 0x1000, 24, 14, 0⟩
/-- HB_PARTNER.LINK (10_hatband_fabric.md): RO, reset 0. -/
def HB_PARTNER_LINK (L : Nat) : Fld := ⟨0x200018 + L * 0x1000, 20, 4, 0⟩
/-- HB_PARTNER.STEPPING (10_hatband_fabric.md): RO, reset 0. -/
def HB_PARTNER_STEPPING (L : Nat) : Fld := ⟨0x200018 + L * 0x1000, 16, 4, 0⟩
/-- HB_PARTNER.PRODUCT (10_hatband_fabric.md): RO, reset 0. -/
def HB_PARTNER_PRODUCT (L : Nat) : Fld := ⟨0x200018 + L * 0x1000, 0, 16, 0⟩
/-- HB_LINK_ERR.LOST_PKT (10_hatband_fabric.md): RO, reset 0. -/
def HB_LINK_ERR_LOST_PKT (L : Nat) : Fld := ⟨0x200020 + L * 0x1000, 48, 16, 0⟩
/-- HB_LINK_ERR.BAD_FRAME (10_hatband_fabric.md): RO, reset 0. -/
def HB_LINK_ERR_BAD_FRAME (L : Nat) : Fld := ⟨0x200020 + L * 0x1000, 32, 16, 0⟩
/-- HB_LINK_ERR.CORR_CW (10_hatband_fabric.md): RO, reset 0. -/
def HB_LINK_ERR_CORR_CW (L : Nat) : Fld := ⟨0x200020 + L * 0x1000, 0, 32, 0⟩
/-- HB_COORD.VALID (10_hatband_fabric.md): RWT, reset 0. -/
def HB_COORD_VALID : Fld := ⟨0x20f000, 63, 1, 0⟩
/-- HB_COORD.COORD (10_hatband_fabric.md): RWT, reset 0. -/
def HB_COORD_COORD : Fld := ⟨0x20f000, 0, 14, 0⟩
/-- HB_PLANE.TWIN (10_hatband_fabric.md): RWT, reset 0. -/
def HB_PLANE_TWIN : Fld := ⟨0x20f008, 24, 1, 0⟩
/-- HB_PLANE.DIMZ (10_hatband_fabric.md): RWT, reset 0. -/
def HB_PLANE_DIMZ : Fld := ⟨0x20f008, 16, 6, 0⟩
/-- HB_PLANE.DIMY (10_hatband_fabric.md): RWT, reset 0. -/
def HB_PLANE_DIMY : Fld := ⟨0x20f008, 8, 5, 0⟩
/-- HB_PLANE.DIMX (10_hatband_fabric.md): RWT, reset 0. -/
def HB_PLANE_DIMX : Fld := ⟨0x20f008, 0, 5, 0⟩
/-- HB_FAB_CFG.PERM (10_hatband_fabric.md): RWT, reset 140. -/
def HB_FAB_CFG_PERM : Fld := ⟨0x20f010, 48, 10, 140⟩
/-- HB_FAB_CFG.ALLOW (10_hatband_fabric.md): RWT, reset 120. -/
def HB_FAB_CFG_ALLOW : Fld := ⟨0x20f010, 32, 10, 120⟩
/-- HB_DROP.ECRC_ERR (10_hatband_fabric.md): RO, reset 0. -/
def HB_DROP_ECRC_ERR : Fld := ⟨0x20f018, 48, 16, 0⟩
/-- HB_DROP.HOPS_DROP (10_hatband_fabric.md): RO, reset 0. -/
def HB_DROP_HOPS_DROP : Fld := ⟨0x20f018, 32, 16, 0⟩
/-- HB_DROP.DETOUR_DROP (10_hatband_fabric.md): RO, reset 0. -/
def HB_DROP_DETOUR_DROP : Fld := ⟨0x20f018, 16, 16, 0⟩
/-- HB_DROP.DEST_LOST (10_hatband_fabric.md): RO, reset 0. -/
def HB_DROP_DEST_LOST : Fld := ⟨0x20f018, 0, 16, 0⟩
/-- HB_FAB_STATUS.FAIL_FULL (10_hatband_fabric.md): RW1C, reset 0. -/
def HB_FAB_STATUS_FAIL_FULL : Fld := ⟨0x20f020, 16, 1, 0⟩
/-- HB_FAB_STATUS.UNSPARED (10_hatband_fabric.md): RO, reset 0. -/
def HB_FAB_STATUS_UNSPARED : Fld := ⟨0x20f020, 8, 8, 0⟩
/-- HB_FAB_STATUS.FAILS (10_hatband_fabric.md): RO, reset 0. -/
def HB_FAB_STATUS_FAILS : Fld := ⟨0x20f020, 0, 8, 0⟩
/-- HB_SPARE.VALID (10_hatband_fabric.md): RO, reset 0. -/
def HB_SPARE_VALID (n : Nat) : Fld := ⟨0x20f100 + n * 0x8, 63, 1, 0⟩
/-- HB_SPARE.TAKEN (10_hatband_fabric.md): RO, reset 0. -/
def HB_SPARE_TAKEN (n : Nat) : Fld := ⟨0x20f100 + n * 0x8, 62, 1, 0⟩
/-- HB_SPARE.LOST (10_hatband_fabric.md): RO, reset 0. -/
def HB_SPARE_LOST (n : Nat) : Fld := ⟨0x20f100 + n * 0x8, 61, 1, 0⟩
/-- HB_SPARE.ZHI (10_hatband_fabric.md): RO, reset 0. -/
def HB_SPARE_ZHI (n : Nat) : Fld := ⟨0x20f100 + n * 0x8, 43, 5, 0⟩
/-- HB_SPARE.ZLO (10_hatband_fabric.md): RO, reset 0. -/
def HB_SPARE_ZLO (n : Nat) : Fld := ⟨0x20f100 + n * 0x8, 38, 5, 0⟩
/-- HB_SPARE.YHI (10_hatband_fabric.md): RO, reset 0. -/
def HB_SPARE_YHI (n : Nat) : Fld := ⟨0x20f100 + n * 0x8, 34, 4, 0⟩
/-- HB_SPARE.YLO (10_hatband_fabric.md): RO, reset 0. -/
def HB_SPARE_YLO (n : Nat) : Fld := ⟨0x20f100 + n * 0x8, 30, 4, 0⟩
/-- HB_SPARE.XHI (10_hatband_fabric.md): RO, reset 0. -/
def HB_SPARE_XHI (n : Nat) : Fld := ⟨0x20f100 + n * 0x8, 26, 4, 0⟩
/-- HB_SPARE.XLO (10_hatband_fabric.md): RO, reset 0. -/
def HB_SPARE_XLO (n : Nat) : Fld := ⟨0x20f100 + n * 0x8, 22, 4, 0⟩
/-- HB_SPARE.SPARE (10_hatband_fabric.md): RO, reset 0. -/
def HB_SPARE_SPARE (n : Nat) : Fld := ⟨0x20f100 + n * 0x8, 0, 14, 0⟩
/-- HB_FAIL.VALID (10_hatband_fabric.md): RO, reset 0. -/
def HB_FAIL_VALID (n : Nat) : Fld := ⟨0x20f200 + n * 0x8, 63, 1, 0⟩
/-- HB_FAIL.SPARED (10_hatband_fabric.md): RO, reset 0. -/
def HB_FAIL_SPARED (n : Nat) : Fld := ⟨0x20f200 + n * 0x8, 62, 1, 0⟩
/-- HB_FAIL.SPIDX (10_hatband_fabric.md): RO, reset 63. -/
def HB_FAIL_SPIDX (n : Nat) : Fld := ⟨0x20f200 + n * 0x8, 56, 6, 63⟩
/-- HB_FAIL.REASON (10_hatband_fabric.md): RO, reset 0. -/
def HB_FAIL_REASON (n : Nat) : Fld := ⟨0x20f200 + n * 0x8, 48, 8, 0⟩
/-- HB_FAIL.COORD (10_hatband_fabric.md): RO, reset 0. -/
def HB_FAIL_COORD (n : Nat) : Fld := ⟨0x20f200 + n * 0x8, 0, 14, 0⟩
/-- RED_CFG.MIRROR_EN (11_in_network_reduction.md): RWT, reset 1. -/
def RED_CFG_MIRROR_EN : Fld := ⟨0x300000, 34, 1, 1⟩
/-- RED_CFG.MODE (11_in_network_reduction.md): RO, reset 0. -/
def RED_CFG_MODE : Fld := ⟨0x300000, 32, 2, 0⟩
/-- RED_CFG.DL (11_in_network_reduction.md): RWT, reset 2000. -/
def RED_CFG_DL : Fld := ⟨0x300000, 16, 16, 2000⟩
/-- RED_CFG.INNER_DL (11_in_network_reduction.md): RWT, reset 1500. -/
def RED_CFG_INNER_DL : Fld := ⟨0x300000, 0, 16, 1500⟩
/-- RED_STATUS.STORE_HI (11_in_network_reduction.md): RC, reset 0. -/
def RED_STATUS_STORE_HI : Fld := ⟨0x300008, 16, 8, 0⟩
/-- RED_STATUS.REMAP_FAIL (11_in_network_reduction.md): RW1C, reset 0. -/
def RED_STATUS_REMAP_FAIL : Fld := ⟨0x300008, 10, 1, 0⟩
/-- RED_STATUS.MIRROR_FAIL (11_in_network_reduction.md): RW1C, reset 0. -/
def RED_STATUS_MIRROR_FAIL : Fld := ⟨0x300008, 9, 1, 0⟩
/-- RED_STATUS.RESEND (11_in_network_reduction.md): RW1C, reset 0. -/
def RED_STATUS_RESEND : Fld := ⟨0x300008, 8, 1, 0⟩
/-- RED_STATUS.MISSING (11_in_network_reduction.md): RW1C, reset 0. -/
def RED_STATUS_MISSING : Fld := ⟨0x300008, 7, 1, 0⟩
/-- RED_STATUS.SUBST (11_in_network_reduction.md): RW1C, reset 0. -/
def RED_STATUS_SUBST : Fld := ⟨0x300008, 6, 1, 0⟩
/-- RED_STATUS.MIXED (11_in_network_reduction.md): RW1C, reset 0. -/
def RED_STATUS_MIXED : Fld := ⟨0x300008, 5, 1, 0⟩
/-- RED_STATUS.SHORT_LAND (11_in_network_reduction.md): RW1C, reset 0. -/
def RED_STATUS_SHORT_LAND : Fld := ⟨0x300008, 4, 1, 0⟩
/-- RED_STATUS.LATE (11_in_network_reduction.md): RW1C, reset 0. -/
def RED_STATUS_LATE : Fld := ⟨0x300008, 3, 1, 0⟩
/-- RED_STATUS.PASS (11_in_network_reduction.md): RW1C, reset 0. -/
def RED_STATUS_PASS : Fld := ⟨0x300008, 2, 1, 0⟩
/-- RED_STATUS.ADDER_FAULT (11_in_network_reduction.md): RW1C, reset 0. -/
def RED_STATUS_ADDER_FAULT : Fld := ⟨0x300008, 1, 1, 0⟩
/-- RED_STATUS.INTEG (11_in_network_reduction.md): RW1C, reset 0. -/
def RED_STATUS_INTEG : Fld := ⟨0x300008, 0, 1, 0⟩
/-- RED_ERR_CNT.ECRC_ERR (11_in_network_reduction.md): RO, reset 0. -/
def RED_ERR_CNT_ECRC_ERR : Fld := ⟨0x300010, 48, 16, 0⟩
/-- RED_ERR_CNT.RES_ERR (11_in_network_reduction.md): RO, reset 0. -/
def RED_ERR_CNT_RES_ERR : Fld := ⟨0x300010, 32, 16, 0⟩
/-- RED_ERR_CNT.LATE (11_in_network_reduction.md): RO, reset 0. -/
def RED_ERR_CNT_LATE : Fld := ⟨0x300010, 16, 16, 0⟩
/-- RED_ERR_CNT.DUP (11_in_network_reduction.md): RO, reset 0. -/
def RED_ERR_CNT_DUP : Fld := ⟨0x300010, 0, 16, 0⟩
/-- RED_LAND_CNT.LANDED (11_in_network_reduction.md): RO, reset 0. -/
def RED_LAND_CNT_LANDED : Fld := ⟨0x300018, 32, 32, 0⟩
/-- RED_LAND_CNT.SHORT (11_in_network_reduction.md): RO, reset 0. -/
def RED_LAND_CNT_SHORT : Fld := ⟨0x300018, 16, 16, 0⟩
/-- RED_LAND_CNT.MIXED (11_in_network_reduction.md): RO, reset 0. -/
def RED_LAND_CNT_MIXED : Fld := ⟨0x300018, 0, 16, 0⟩
/-- RED_GUARD_CNT.PRIM_TAKEN (11_in_network_reduction.md): RO, reset 0. -/
def RED_GUARD_CNT_PRIM_TAKEN : Fld := ⟨0x300020, 40, 24, 0⟩
/-- RED_GUARD_CNT.BACK_TAKEN (11_in_network_reduction.md): RO, reset 0. -/
def RED_GUARD_CNT_BACK_TAKEN : Fld := ⟨0x300020, 16, 24, 0⟩
/-- RED_GUARD_CNT.MISSING (11_in_network_reduction.md): RO, reset 0. -/
def RED_GUARD_CNT_MISSING : Fld := ⟨0x300020, 0, 16, 0⟩
/-- RED_STORE.TIMED (11_in_network_reduction.md): RO, reset 0. -/
def RED_STORE_TIMED : Fld := ⟨0x300028, 32, 32, 0⟩
/-- RED_STORE.PASS (11_in_network_reduction.md): RO, reset 0. -/
def RED_STORE_PASS : Fld := ⟨0x300028, 16, 16, 0⟩
/-- RED_STORE.REMAP_DROP (11_in_network_reduction.md): RO, reset 0. -/
def RED_STORE_REMAP_DROP : Fld := ⟨0x300028, 0, 16, 0⟩
/-- RED_ADDER.FAILED (11_in_network_reduction.md): RO, reset 0. -/
def RED_ADDER_FAILED : Fld := ⟨0x300030, 0, 4, 0⟩
/-- RED_MIRROR.VALID (11_in_network_reduction.md): RO, reset 0. -/
def RED_MIRROR_VALID : Fld := ⟨0x300038, 63, 1, 0⟩
/-- RED_MIRROR.TARGET (11_in_network_reduction.md): RO, reset 0. -/
def RED_MIRROR_TARGET : Fld := ⟨0x300038, 48, 14, 0⟩
/-- RED_MIRROR.SLOT (11_in_network_reduction.md): RO, reset 0. -/
def RED_MIRROR_SLOT : Fld := ⟨0x300038, 32, 1, 0⟩
/-- RED_MIRROR.STEP (11_in_network_reduction.md): RO, reset 0. -/
def RED_MIRROR_STEP : Fld := ⟨0x300038, 0, 32, 0⟩
/-- RED_RECOVER.STATE (11_in_network_reduction.md): RO, reset 0. -/
def RED_RECOVER_STATE : Fld := ⟨0x300040, 61, 3, 0⟩
/-- RED_RECOVER.FAILED (11_in_network_reduction.md): RO, reset 0. -/
def RED_RECOVER_FAILED : Fld := ⟨0x300040, 47, 14, 0⟩
/-- RED_RECOVER.LAG (11_in_network_reduction.md): RO, reset 0. -/
def RED_RECOVER_LAG : Fld := ⟨0x300040, 32, 8, 0⟩
/-- RED_RECOVER.MIRROR_STEP (11_in_network_reduction.md): RO, reset 0. -/
def RED_RECOVER_MIRROR_STEP : Fld := ⟨0x300040, 0, 32, 0⟩
/-- SHP_CTL.ABORT (12_structure_images_and_scheduling.md): WO, reset 0. -/
def SHP_CTL_ABORT : Fld := ⟨0x60000, 3, 1, 0⟩
/-- SHP_CTL.UNSHAPE (12_structure_images_and_scheduling.md): WO, reset 0. -/
def SHP_CTL_UNSHAPE : Fld := ⟨0x60000, 2, 1, 0⟩
/-- SHP_CTL.SHAPE (12_structure_images_and_scheduling.md): WO, reset 0. -/
def SHP_CTL_SHAPE : Fld := ⟨0x60000, 1, 1, 0⟩
/-- SHP_IMAGE.ADDR (12_structure_images_and_scheduling.md): RWT, reset 0. -/
def SHP_IMAGE_ADDR : Fld := ⟨0x60008, 12, 36, 0⟩
/-- SHP_LEN.LEN (12_structure_images_and_scheduling.md): RWT, reset 0. -/
def SHP_LEN_LEN : Fld := ⟨0x60010, 0, 35, 0⟩
/-- SHP_STATUS.ERR_REC (12_structure_images_and_scheduling.md): RO, reset 0. -/
def SHP_STATUS_ERR_REC : Fld := ⟨0x60018, 32, 32, 0⟩
/-- SHP_STATUS.ERR_SECT (12_structure_images_and_scheduling.md): RO, reset 0. -/
def SHP_STATUS_ERR_SECT : Fld := ⟨0x60018, 24, 8, 0⟩
/-- SHP_STATUS.ERR (12_structure_images_and_scheduling.md): RO, reset 0. -/
def SHP_STATUS_ERR : Fld := ⟨0x60018, 16, 8, 0⟩
/-- SHP_STATUS.SHAPE_ERR (12_structure_images_and_scheduling.md): RW1C, reset 0. -/
def SHP_STATUS_SHAPE_ERR : Fld := ⟨0x60018, 6, 1, 0⟩
/-- SHP_STATUS.STATE (12_structure_images_and_scheduling.md): RO, reset 0. -/
def SHP_STATUS_STATE : Fld := ⟨0x60018, 0, 3, 0⟩
/-- SHP_STEP.STEP (12_structure_images_and_scheduling.md): RO, reset 0. -/
def SHP_STEP_STEP : Fld := ⟨0x60020, 32, 32, 0⟩
/-- SHP_STEP.MARK (12_structure_images_and_scheduling.md): RO, reset 65535. -/
def SHP_STEP_MARK : Fld := ⟨0x60020, 16, 16, 65535⟩
/-- SHP_STEP.STEPS (12_structure_images_and_scheduling.md): RO, reset 0. -/
def SHP_STEP_STEPS : Fld := ⟨0x60020, 0, 16, 0⟩
/-- SHP_URG.URG_DONE (12_structure_images_and_scheduling.md): RO, reset 0. -/
def SHP_URG_URG_DONE : Fld := ⟨0x60038, 32, 32, 0⟩
/-- SHP_URG.URG_HELD (12_structure_images_and_scheduling.md): RO, reset 0. -/
def SHP_URG_URG_HELD : Fld := ⟨0x60038, 16, 16, 0⟩
/-- SHP_URG.URG_REJECT (12_structure_images_and_scheduling.md): RO, reset 0. -/
def SHP_URG_URG_REJECT : Fld := ⟨0x60038, 0, 16, 0⟩
/-- SHP_SEED.SEED (12_structure_images_and_scheduling.md): RO, reset 0. -/
def SHP_SEED_SEED : Fld := ⟨0x60040, 0, 64, 0⟩
/-- SHP_DIGEST.DIGEST (12_structure_images_and_scheduling.md): RO, reset 0. -/
def SHP_DIGEST_DIGEST (k : Nat) : Fld := ⟨0x60080 + k * 0x8, 0, 64, 0⟩
/-- SYN_SEL.OBJ (12_structure_images_and_scheduling.md): RW, reset 0. -/
def SYN_SEL_OBJ (p : Nat) : Fld := ⟨0x80008 + p * portBCopy, 0, 17, 0⟩
/-- SYN_STATUS.OP_ERR (12_structure_images_and_scheduling.md): RW1C, reset 0. -/
def SYN_STATUS_OP_ERR : Fld := ⟨0x80020, 2, 1, 0⟩
/-- SYN_STATUS.BAR_TIMED (12_structure_images_and_scheduling.md): RW1C, reset 0. -/
def SYN_STATUS_BAR_TIMED : Fld := ⟨0x80020, 1, 1, 0⟩
/-- SYN_STATUS.REMOTE_LOST (12_structure_images_and_scheduling.md): RW1C, reset 0. -/
def SYN_STATUS_REMOTE_LOST : Fld := ⟨0x80020, 0, 1, 0⟩
/-- SYN_CNT.REMOTE_RECV (12_structure_images_and_scheduling.md): RO, reset 0. -/
def SYN_CNT_REMOTE_RECV : Fld := ⟨0x80028, 32, 32, 0⟩
/-- SYN_CNT.BAR_TIMED (12_structure_images_and_scheduling.md): RO, reset 0. -/
def SYN_CNT_BAR_TIMED : Fld := ⟨0x80028, 16, 16, 0⟩
/-- SYN_CNT.REMOTE_LOST (12_structure_images_and_scheduling.md): RO, reset 0. -/
def SYN_CNT_REMOTE_LOST : Fld := ⟨0x80028, 0, 16, 0⟩
/-- PWR_CFG.FORCE_FB (13_power_and_thermal.md): RWT, reset 0. -/
def PWR_CFG_FORCE_FB : Fld := ⟨0x50000, 1, 1, 0⟩
/-- PWR_CFG.BOOST_EN (13_power_and_thermal.md): RWT, reset 1. -/
def PWR_CFG_BOOST_EN : Fld := ⟨0x50000, 0, 1, 1⟩
/-- PWR_STATUS.AVS_FAULT (13_power_and_thermal.md): RW1C, reset 0. -/
def PWR_STATUS_AVS_FAULT : Fld := ⟨0x50008, 4, 4, 0⟩
/-- PWR_STATUS.ICC_LIMIT (13_power_and_thermal.md): RW1C, reset 0. -/
def PWR_STATUS_ICC_LIMIT : Fld := ⟨0x50008, 3, 1, 0⟩
/-- PWR_STATUS.CAL_LOST (13_power_and_thermal.md): RW1C, reset 0. -/
def PWR_STATUS_CAL_LOST : Fld := ⟨0x50008, 2, 1, 0⟩
/-- PWR_STATUS.MODE (13_power_and_thermal.md): RO, reset 1. -/
def PWR_STATUS_MODE : Fld := ⟨0x50008, 0, 1, 1⟩
/-- PWR_OP.THROT (13_power_and_thermal.md): RO, reset 0. -/
def PWR_OP_THROT (n : Nat) : Fld := ⟨0x50010, 13 + 16 * n, 1, 0⟩
/-- PWR_OP.DUTY (13_power_and_thermal.md): RO, reset 64. -/
def PWR_OP_DUTY (n : Nat) : Fld := ⟨0x50010, 6 + 16 * n, 7, 64⟩
/-- PWR_OP.CEIL (13_power_and_thermal.md): RO, reset 5. -/
def PWR_OP_CEIL (n : Nat) : Fld := ⟨0x50010, 3 + 16 * n, 3, 5⟩
/-- PWR_OP.OP (13_power_and_thermal.md): RO, reset 0. -/
def PWR_OP_OP (n : Nat) : Fld := ⟨0x50010, 0 + 16 * n, 3, 0⟩
/-- PWR_PKG.P10 (13_power_and_thermal.md): RO, reset 0. -/
def PWR_PKG_P10 : Fld := ⟨0x50018, 48, 16, 0⟩
/-- PWR_PKG.P1 (13_power_and_thermal.md): RO, reset 0. -/
def PWR_PKG_P1 : Fld := ⟨0x50018, 32, 16, 0⟩
/-- PWR_PKG.P1MAX (13_power_and_thermal.md): RC, reset 0. -/
def PWR_PKG_P1MAX : Fld := ⟨0x50018, 16, 16, 0⟩
/-- PWR_DOM.EST (13_power_and_thermal.md): RO, reset 0. -/
def PWR_DOM_EST (d : Nat) : Fld := ⟨0x50020 + d * 0x8, 48, 16, 0⟩
/-- PWR_DOM.MEAS (13_power_and_thermal.md): RO, reset 0. -/
def PWR_DOM_MEAS (d : Nat) : Fld := ⟨0x50020 + d * 0x8, 32, 16, 0⟩
/-- PWR_DOM.GAIN (13_power_and_thermal.md): RO, reset 16384. -/
def PWR_DOM_GAIN (d : Nat) : Fld := ⟨0x50020 + d * 0x8, 16, 16, 16384⟩
/-- PWR_DIP.RESETS (13_power_and_thermal.md): RO, reset 0. -/
def PWR_DIP_RESETS : Fld := ⟨0x50058, 48, 16, 0⟩
/-- PWR_DIP.STEPDOWN (13_power_and_thermal.md): RO, reset 0. -/
def PWR_DIP_STEPDOWN : Fld := ⟨0x50058, 32, 16, 0⟩
/-- PWR_DIP.DIPS (13_power_and_thermal.md): RO, reset 0. -/
def PWR_DIP_DIPS : Fld := ⟨0x50058, 0, 32, 0⟩
/-- PWR_LSTEP.COUNT (13_power_and_thermal.md): RO, reset 0. -/
def PWR_LSTEP_COUNT : Fld := ⟨0x50060, 32, 32, 0⟩
/-- PWR_RAIL.PRESENT (13_power_and_thermal.md): RO, reset 0. -/
def PWR_RAIL_PRESENT (r : Nat) : Fld := ⟨0x50100 + r * 0x8, 63, 1, 0⟩
/-- PWR_RAIL.AVS (13_power_and_thermal.md): RO, reset 0. -/
def PWR_RAIL_AVS (r : Nat) : Fld := ⟨0x50100 + r * 0x8, 62, 1, 0⟩
/-- PWR_RAIL.PHASES (13_power_and_thermal.md): RO, reset 0. -/
def PWR_RAIL_PHASES (r : Nat) : Fld := ⟨0x50100 + r * 0x8, 56, 6, 0⟩
/-- PWR_RAIL.ISUST (13_power_and_thermal.md): RO, reset 0. -/
def PWR_RAIL_ISUST (r : Nat) : Fld := ⟨0x50100 + r * 0x8, 45, 11, 0⟩
/-- PWR_RAIL.IPEAK (13_power_and_thermal.md): RO, reset 0. -/
def PWR_RAIL_IPEAK (r : Nat) : Fld := ⟨0x50100 + r * 0x8, 34, 11, 0⟩
/-- PWR_RAIL.VMAX (13_power_and_thermal.md): RO, reset 0. -/
def PWR_RAIL_VMAX (r : Nat) : Fld := ⟨0x50100 + r * 0x8, 22, 12, 0⟩
/-- PWR_RAIL.VMIN (13_power_and_thermal.md): RO, reset 0. -/
def PWR_RAIL_VMIN (r : Nat) : Fld := ⟨0x50100 + r * 0x8, 10, 12, 0⟩
/-- PCAP_CAP.CLAMPED (13_power_and_thermal.md): RW1C, reset 0. -/
def PCAP_CAP_CLAMPED : Fld := ⟨0x50400, 32, 1, 0⟩
/-- PCAP_CAP.EFF (13_power_and_thermal.md): RO, reset 3600. -/
def PCAP_CAP_EFF : Fld := ⟨0x50400, 16, 16, 3600⟩
/-- PCAP_CAP.REQ (13_power_and_thermal.md): RWT, reset 3600. -/
def PCAP_CAP_REQ : Fld := ⟨0x50400, 0, 16, 3600⟩
/-- PCAP_STATUS.TRIM (13_power_and_thermal.md): RO, reset 0. -/
def PCAP_STATUS_TRIM : Fld := ⟨0x50408, 48, 16, 0⟩
/-- PCAP_STATUS.ALARM_LIM (13_power_and_thermal.md): RO, reset 0. -/
def PCAP_STATUS_ALARM_LIM : Fld := ⟨0x50408, 3, 1, 0⟩
/-- PCAP_STATUS.UNMET_NOW (13_power_and_thermal.md): RO, reset 0. -/
def PCAP_STATUS_UNMET_NOW : Fld := ⟨0x50408, 1, 1, 0⟩
/-- PCAP_STATUS.CAP_UNMET (13_power_and_thermal.md): RW1C, reset 0. -/
def PCAP_STATUS_CAP_UNMET : Fld := ⟨0x50408, 0, 1, 0⟩
/-- PCAP_LEARN.PHASE (13_power_and_thermal.md): RO, reset 65535. -/
def PCAP_LEARN_PHASE : Fld := ⟨0x50410, 48, 16, 65535⟩
/-- PCAP_LEARN.NPHASE (13_power_and_thermal.md): RO, reset 0. -/
def PCAP_LEARN_NPHASE : Fld := ⟨0x50410, 39, 9, 0⟩
/-- PCAP_LEARN.LEARNED (13_power_and_thermal.md): RO, reset 0. -/
def PCAP_LEARN_LEARNED : Fld := ⟨0x50410, 30, 9, 0⟩
/-- THM_CFG.UPSHARE (13_power_and_thermal.md): RWT, reset 90. -/
def THM_CFG_UPSHARE : Fld := ⟨0x50800, 0, 7, 90⟩
/-- THM_STATUS.THROT (13_power_and_thermal.md): RO, reset 0. -/
def THM_STATUS_THROT : Fld := ⟨0x50808, 12, 4, 0⟩
/-- THM_STATUS.SENSOR_FAULT (13_power_and_thermal.md): RW1C, reset 0. -/
def THM_STATUS_SENSOR_FAULT : Fld := ⟨0x50808, 11, 1, 0⟩
/-- THM_STATUS.DISAGREE (13_power_and_thermal.md): RW1C, reset 0. -/
def THM_STATUS_DISAGREE : Fld := ⟨0x50808, 10, 1, 0⟩
/-- THM_STATUS.TRIP (13_power_and_thermal.md): RO, reset 0. -/
def THM_STATUS_TRIP : Fld := ⟨0x50808, 9, 1, 0⟩
/-- THM_STATUS.TRIP_POS (13_power_and_thermal.md): RO, reset 0. -/
def THM_STATUS_TRIP_POS : Fld := ⟨0x50808, 6, 3, 0⟩
/-- THM_STATUS.TRIP_TWR (13_power_and_thermal.md): RO, reset 0. -/
def THM_STATUS_TRIP_TWR : Fld := ⟨0x50808, 4, 2, 0⟩
/-- THM_LAYER.DISAGREE (13_power_and_thermal.md): RO, reset 0. -/
def THM_LAYER_DISAGREE (t p : Nat) : Fld := ⟨0x50900 + t * 0x40 + p * 0x8, 56, 1, 0⟩
/-- THM_LAYER.NVALID (13_power_and_thermal.md): RO, reset 0. -/
def THM_LAYER_NVALID (t p : Nat) : Fld := ⟨0x50900 + t * 0x40 + p * 0x8, 52, 4, 0⟩
/-- THM_LAYER.EFF (13_power_and_thermal.md): RO, reset 0. -/
def THM_LAYER_EFF (t p : Nat) : Fld := ⟨0x50900 + t * 0x40 + p * 0x8, 32, 16, 0⟩
/-- THM_LAYER.INF (13_power_and_thermal.md): RO, reset 0. -/
def THM_LAYER_INF (t p : Nat) : Fld := ⟨0x50900 + t * 0x40 + p * 0x8, 16, 16, 0⟩
/-- THM_LAYER.MEAS (13_power_and_thermal.md): RO, reset 32768. -/
def THM_LAYER_MEAS (t p : Nat) : Fld := ⟨0x50900 + t * 0x40 + p * 0x8, 0, 16, 32768⟩
/-- THM_COOL_CFG.GFLOW (13_power_and_thermal.md): RWT, reset 400. -/
def THM_COOL_CFG_GFLOW : Fld := ⟨0x50c00, 48, 16, 400⟩
/-- THM_COOL_CFG.KP (13_power_and_thermal.md): RWT, reset 50. -/
def THM_COOL_CFG_KP : Fld := ⟨0x50c00, 40, 8, 50⟩
/-- THM_COOL_CFG.KI (13_power_and_thermal.md): RWT, reset 20. -/
def THM_COOL_CFG_KI : Fld := ⟨0x50c00, 32, 8, 20⟩
/-- THM_COOL_CFG.DMIN (13_power_and_thermal.md): RWT, reset 20. -/
def THM_COOL_CFG_DMIN : Fld := ⟨0x50c00, 24, 8, 20⟩
/-- THM_COOL_CFG.OUT_SET (13_power_and_thermal.md): RWT, reset 45. -/
def THM_COOL_CFG_OUT_SET : Fld := ⟨0x50c00, 16, 8, 45⟩
/-- THM_COOL_CFG.ALARM_CAP (13_power_and_thermal.md): RWT, reset 1800. -/
def THM_COOL_CFG_ALARM_CAP : Fld := ⟨0x50c00, 0, 16, 1800⟩
/-- THM_COOL_MODEL.TACH_K (13_power_and_thermal.md): RWT, reset 200. -/
def THM_COOL_MODEL_TACH_K : Fld := ⟨0x50c08, 48, 16, 200⟩
/-- THM_COOL_MODEL.FLOW_MIN (13_power_and_thermal.md): RWT, reset 20. -/
def THM_COOL_MODEL_FLOW_MIN : Fld := ⟨0x50c08, 32, 16, 20⟩
/-- THM_COOL_MODEL.IN_MAX (13_power_and_thermal.md): RWT, reset 40. -/
def THM_COOL_MODEL_IN_MAX : Fld := ⟨0x50c08, 24, 8, 40⟩
/-- THM_COOL_MODEL.DELAY (13_power_and_thermal.md): RWT, reset 40. -/
def THM_COOL_MODEL_DELAY : Fld := ⟨0x50c08, 8, 8, 40⟩
/-- THM_COOL_MODEL.TAU (13_power_and_thermal.md): RWT, reset 30. -/
def THM_COOL_MODEL_TAU : Fld := ⟨0x50c08, 0, 8, 30⟩
/-- THM_COOL_STATUS.DEMAND (13_power_and_thermal.md): RO, reset 1000. -/
def THM_COOL_STATUS_DEMAND : Fld := ⟨0x50c10, 44, 10, 1000⟩
/-- THM_COOL_STATUS.FLOW (13_power_and_thermal.md): RO, reset 0. -/
def THM_COOL_STATUS_FLOW : Fld := ⟨0x50c10, 32, 12, 0⟩
/-- THM_COOL_STATUS.TOUT (13_power_and_thermal.md): RO, reset 0. -/
def THM_COOL_STATUS_TOUT : Fld := ⟨0x50c10, 20, 12, 0⟩
/-- THM_COOL_STATUS.TIN (13_power_and_thermal.md): RO, reset 0. -/
def THM_COOL_STATUS_TIN : Fld := ⟨0x50c10, 8, 12, 0⟩
/-- THM_COOL_STATUS.OUT_PRESENT (13_power_and_thermal.md): RO, reset 0. -/
def THM_COOL_STATUS_OUT_PRESENT : Fld := ⟨0x50c10, 6, 1, 0⟩
/-- THM_COOL_STATUS.IN_PRESENT (13_power_and_thermal.md): RO, reset 0. -/
def THM_COOL_STATUS_IN_PRESENT : Fld := ⟨0x50c10, 5, 1, 0⟩
/-- THM_COOL_STATUS.TACH_SEEN (13_power_and_thermal.md): RO, reset 0. -/
def THM_COOL_STATUS_TACH_SEEN : Fld := ⟨0x50c10, 4, 1, 0⟩
/-- THM_COOL_STATUS.ALARM (13_power_and_thermal.md): RW1C, reset 0. -/
def THM_COOL_STATUS_ALARM : Fld := ⟨0x50c10, 0, 1, 0⟩
/-- DEV_CAP.CROWN_OK (14_host_interface.md): RO, reset 0. -/
def DEV_CAP_CROWN_OK : Fld := ⟨0x8, 40, 4, 0⟩
/-- HQ_CQ_BASE.ADDR (14_host_interface.md): RW, reset 0. -/
def HQ_CQ_BASE_ADDR (p q : Nat) : Fld := ⟨0x10008 + q * 0x20 + p * portBCopy, 12, 52, 0⟩
/-- HQ_Q_CFG.EN (14_host_interface.md): RW, reset 0. -/
def HQ_Q_CFG_EN (p q : Nat) : Fld := ⟨0x10010 + q * 0x20 + p * portBCopy, 63, 1, 0⟩
/-- HQ_Q_CFG.CLASS (14_host_interface.md): RW, reset 0. -/
def HQ_Q_CFG_CLASS (p q : Nat) : Fld := ⟨0x10010 + q * 0x20 + p * portBCopy, 62, 1, 0⟩
/-- HQ_Q_CFG.IEN (14_host_interface.md): RW, reset 0. -/
def HQ_Q_CFG_IEN (p q : Nat) : Fld := ⟨0x10010 + q * 0x20 + p * portBCopy, 61, 1, 0⟩
/-- HQ_Q_CFG.WEIGHT (14_host_interface.md): RW, reset 1. -/
def HQ_Q_CFG_WEIGHT (p q : Nat) : Fld := ⟨0x10010 + q * 0x20 + p * portBCopy, 48, 8, 1⟩
/-- HQ_Q_CFG.ITIME (14_host_interface.md): RW, reset 0. -/
def HQ_Q_CFG_ITIME (p q : Nat) : Fld := ⟨0x10010 + q * 0x20 + p * portBCopy, 32, 16, 0⟩
/-- HQ_Q_CFG.CQSZM1 (14_host_interface.md): RW, reset 0. -/
def HQ_Q_CFG_CQSZM1 (p q : Nat) : Fld := ⟨0x10010 + q * 0x20 + p * portBCopy, 16, 16, 0⟩
/-- HQ_Q_CFG.SQSZM1 (14_host_interface.md): RW, reset 0. -/
def HQ_Q_CFG_SQSZM1 (p q : Nat) : Fld := ⟨0x10010 + q * 0x20 + p * portBCopy, 0, 16, 0⟩
/-- HQ_Q_STATUS.SQTAIL (14_host_interface.md): RO, reset 0. -/
def HQ_Q_STATUS_SQTAIL (p q : Nat) : Fld := ⟨0x10018 + q * 0x20 + p * portBCopy, 48, 16, 0⟩
/-- HQ_Q_STATUS.SQHEAD (14_host_interface.md): RO, reset 0. -/
def HQ_Q_STATUS_SQHEAD (p q : Nat) : Fld := ⟨0x10018 + q * 0x20 + p * portBCopy, 32, 16, 0⟩
/-- HQ_Q_STATUS.CQTAIL (14_host_interface.md): RO, reset 0. -/
def HQ_Q_STATUS_CQTAIL (p q : Nat) : Fld := ⟨0x10018 + q * 0x20 + p * portBCopy, 16, 16, 0⟩
/-- HQ_Q_STATUS.CQHEAD (14_host_interface.md): RO, reset 0. -/
def HQ_Q_STATUS_CQHEAD (p q : Nat) : Fld := ⟨0x10018 + q * 0x20 + p * portBCopy, 0, 16, 0⟩
/-- HQ_EQ_BASE.ADDR (14_host_interface.md): RW, reset 0. -/
def HQ_EQ_BASE_ADDR (p e : Nat) : Fld := ⟨0x18000 + e * 0x10 + p * portBCopy, 12, 52, 0⟩
/-- HQ_EQ_CFG.EN (14_host_interface.md): RW, reset 0. -/
def HQ_EQ_CFG_EN (p e : Nat) : Fld := ⟨0x18008 + e * 0x10 + p * portBCopy, 63, 1, 0⟩
/-- HQ_EQ_CFG.SRC (14_host_interface.md): RW, reset 0. -/
def HQ_EQ_CFG_SRC (p e : Nat) : Fld := ⟨0x18008 + e * 0x10 + p * portBCopy, 61, 2, 0⟩
/-- HQ_EQ_CFG.SEV (14_host_interface.md): RW, reset 0. -/
def HQ_EQ_CFG_SEV (p e : Nat) : Fld := ⟨0x18008 + e * 0x10 + p * portBCopy, 58, 3, 0⟩
/-- HQ_EQ_CFG.LOG2SZ (14_host_interface.md): RW, reset 4. -/
def HQ_EQ_CFG_LOG2SZ (p e : Nat) : Fld := ⟨0x18008 + e * 0x10 + p * portBCopy, 53, 5, 4⟩
/-- HQ_EQ_CFG.IEN (14_host_interface.md): RW, reset 0. -/
def HQ_EQ_CFG_IEN (p e : Nat) : Fld := ⟨0x18008 + e * 0x10 + p * portBCopy, 52, 1, 0⟩
/-- HQ_EQ_CFG.OBJ (14_host_interface.md): RW, reset 0. -/
def HQ_EQ_CFG_OBJ (p e : Nat) : Fld := ⟨0x18008 + e * 0x10 + p * portBCopy, 32, 17, 0⟩
/-- HQ_EQ_CFG.VALUE (14_host_interface.md): RW, reset 0. -/
def HQ_EQ_CFG_VALUE (p e : Nat) : Fld := ⟨0x18008 + e * 0x10 + p * portBCopy, 0, 32, 0⟩
/-- HQ_PORT.WIDTH (14_host_interface.md): RO, reset 0. -/
def HQ_PORT_WIDTH (p : Nat) : Fld := ⟨0x1c000 + p * portBCopy, 8, 5, 0⟩
/-- HQ_PORT.RATE (14_host_interface.md): RO, reset 0. -/
def HQ_PORT_RATE (p : Nat) : Fld := ⟨0x1c000 + p * portBCopy, 4, 4, 0⟩
/-- HQ_BAR2_WIN.BASE (14_host_interface.md): RW, reset 0. -/
def HQ_BAR2_WIN_BASE (p : Nat) : Fld := ⟨0x1c008 + p * portBCopy, 30, 18, 0⟩
/-- HQ_ERR.DB_CNT (14_host_interface.md): RO, reset 0. -/
def HQ_ERR_DB_CNT (p : Nat) : Fld := ⟨0x1c010 + p * portBCopy, 32, 32, 0⟩
/-- HQ_ERR.HOLD_TO (14_host_interface.md): RW1C, reset 0. -/
def HQ_ERR_HOLD_TO (p : Nat) : Fld := ⟨0x1c010 + p * portBCopy, 4, 1, 0⟩
/-- HQ_ERR.EQ_OVF (14_host_interface.md): RW1C, reset 0. -/
def HQ_ERR_EQ_OVF (p : Nat) : Fld := ⟨0x1c010 + p * portBCopy, 3, 1, 0⟩
/-- HQ_ERR.CFG_BAD (14_host_interface.md): RW1C, reset 0. -/
def HQ_ERR_CFG_BAD (p : Nat) : Fld := ⟨0x1c010 + p * portBCopy, 2, 1, 0⟩
/-- HQ_ERR.CMD_BAD (14_host_interface.md): RW1C, reset 0. -/
def HQ_ERR_CMD_BAD (p : Nat) : Fld := ⟨0x1c010 + p * portBCopy, 1, 1, 0⟩
/-- HQ_ERR.DB_BAD (14_host_interface.md): RW1C, reset 0. -/
def HQ_ERR_DB_BAD (p : Nat) : Fld := ⟨0x1c010 + p * portBCopy, 0, 1, 0⟩
/-- MGT_TOKEN.EPOCH (14_host_interface.md): RO, reset 0. -/
def MGT_TOKEN_EPOCH : Fld := ⟨0x500000, 48, 16, 0⟩
/-- MGT_TOKEN.TIMEOUT_MS (14_host_interface.md): RWT, reset 1000. -/
def MGT_TOKEN_TIMEOUT_MS : Fld := ⟨0x500000, 32, 16, 1000⟩
/-- MGT_TOKEN.HOLDER (14_host_interface.md): RO, reset 0. -/
def MGT_TOKEN_HOLDER : Fld := ⟨0x500000, 16, 2, 0⟩
/-- MGT_TOKEN.GIVE (14_host_interface.md): WO, reset 0. -/
def MGT_TOKEN_GIVE : Fld := ⟨0x500000, 3, 1, 0⟩
/-- MGT_TOKEN.RELEASE (14_host_interface.md): WO, reset 0. -/
def MGT_TOKEN_RELEASE : Fld := ⟨0x500000, 2, 1, 0⟩
/-- MGT_TOKEN.CLAIM (14_host_interface.md): WO, reset 0. -/
def MGT_TOKEN_CLAIM : Fld := ⟨0x500000, 1, 1, 0⟩
/-- MGT_TOKEN.BEAT (14_host_interface.md): WO, reset 0. -/
def MGT_TOKEN_BEAT : Fld := ⟨0x500000, 0, 1, 0⟩
/-- MGT_STATUS.FAILOVERS (15_boot_firmware_security.md): RO, reset 0. -/
def MGT_STATUS_FAILOVERS : Fld := ⟨0x500008, 48, 16, 0⟩
/-- MGT_STATUS.FWF (15_boot_firmware_security.md): RO, reset 0. -/
def MGT_STATUS_FWF : Fld := ⟨0x500008, 32, 5, 0⟩
/-- MGT_STATUS.STBY_OK (15_boot_firmware_security.md): RO, reset 0. -/
def MGT_STATUS_STBY_OK : Fld := ⟨0x500008, 8, 1, 0⟩
/-- MGT_STATUS.ACTIVE_MC (15_boot_firmware_security.md): RO, reset 0. -/
def MGT_STATUS_ACTIVE_MC : Fld := ⟨0x500008, 7, 1, 0⟩
/-- MGT_STATUS.MODE (15_boot_firmware_security.md): RO, reset 0. -/
def MGT_STATUS_MODE : Fld := ⟨0x500008, 4, 3, 0⟩
/-- MGT_STATUS.PHASE (15_boot_firmware_security.md): RO, reset 0. -/
def MGT_STATUS_PHASE : Fld := ⟨0x500008, 0, 4, 0⟩
/-- SEC_BOOT.RESULT (15_boot_firmware_security.md): RO, reset 0. -/
def SEC_BOOT_RESULT (k : Nat) : Fld := ⟨0x501000, 3 + 8 * k, 4, 0⟩
/-- SEC_BOOT.TRIAL (15_boot_firmware_security.md): RO, reset 0. -/
def SEC_BOOT_TRIAL (k : Nat) : Fld := ⟨0x501000, 2 + 8 * k, 1, 0⟩
/-- SEC_BOOT.PEND (15_boot_firmware_security.md): RO, reset 0. -/
def SEC_BOOT_PEND (k : Nat) : Fld := ⟨0x501000, 1 + 8 * k, 1, 0⟩
/-- SEC_BOOT.BANK (15_boot_firmware_security.md): RO, reset 0. -/
def SEC_BOOT_BANK (k : Nat) : Fld := ⟨0x501000, 0 + 8 * k, 1, 0⟩
/-- SEC_FW.VERSION (15_boot_firmware_security.md): RO, reset 0. -/
def SEC_FW_VERSION (k : Nat) : Fld := ⟨0x501008 + k * 0x8, 32, 32, 0⟩
/-- SEC_FW.IFE (15_boot_firmware_security.md): RO, reset 0. -/
def SEC_FW_IFE (k : Nat) : Fld := ⟨0x501008 + k * 0x8, 24, 8, 0⟩
/-- SEC_FW.HWE_MAX (15_boot_firmware_security.md): RO, reset 0. -/
def SEC_FW_HWE_MAX (k : Nat) : Fld := ⟨0x501008 + k * 0x8, 16, 8, 0⟩
/-- SEC_FW.HWE_MIN (15_boot_firmware_security.md): RO, reset 0. -/
def SEC_FW_HWE_MIN (k : Nat) : Fld := ⟨0x501008 + k * 0x8, 8, 8, 0⟩
/-- SEC_FW.SVN (15_boot_firmware_security.md): RO, reset 0. -/
def SEC_FW_SVN (k : Nat) : Fld := ⟨0x501008 + k * 0x8, 2, 6, 0⟩
/-- SEC_FW.KEYSLOT (15_boot_firmware_security.md): RO, reset 0. -/
def SEC_FW_KEYSLOT (k : Nat) : Fld := ⟨0x501008 + k * 0x8, 0, 2, 0⟩
/-- SEC_FUSE.HWE (15_boot_firmware_security.md): RO, reset 0. -/
def SEC_FUSE_HWE : Fld := ⟨0x501020, 56, 8, 0⟩
/-- SEC_FUSE.DEBUG (15_boot_firmware_security.md): RO, reset 0. -/
def SEC_FUSE_DEBUG : Fld := ⟨0x501020, 22, 1, 0⟩
/-- SEC_FUSE.REVOKED (15_boot_firmware_security.md): RO, reset 0. -/
def SEC_FUSE_REVOKED : Fld := ⟨0x501020, 18, 4, 0⟩
/-- SEC_FUSE.FLOOR_SD (15_boot_firmware_security.md): RO, reset 0. -/
def SEC_FUSE_FLOOR_SD : Fld := ⟨0x501020, 12, 6, 0⟩
/-- SEC_FUSE.FLOOR_UC (15_boot_firmware_security.md): RO, reset 0. -/
def SEC_FUSE_FLOOR_UC : Fld := ⟨0x501020, 6, 6, 0⟩
/-- SEC_FUSE.FLOOR_MC (15_boot_firmware_security.md): RO, reset 0. -/
def SEC_FUSE_FLOOR_MC : Fld := ⟨0x501020, 0, 6, 0⟩
/-- SEC_UPD_ADDR.ADDR (15_boot_firmware_security.md): RWT, reset 0. -/
def SEC_UPD_ADDR_ADDR : Fld := ⟨0x501028, 4, 44, 0⟩
/-- SEC_UPD_LEN.LEN (15_boot_firmware_security.md): RWT, reset 0. -/
def SEC_UPD_LEN_LEN : Fld := ⟨0x501030, 0, 23, 0⟩
/-- SEC_UPD_CMD.CONFIRM (15_boot_firmware_security.md): WO, reset 0. -/
def SEC_UPD_CMD_CONFIRM : Fld := ⟨0x501038, 16, 16, 0⟩
/-- SEC_UPD_CMD.TYPE (15_boot_firmware_security.md): WO, reset 0. -/
def SEC_UPD_CMD_TYPE : Fld := ⟨0x501038, 8, 2, 0⟩
/-- SEC_UPD_CMD.OP (15_boot_firmware_security.md): WO, reset 0. -/
def SEC_UPD_CMD_OP : Fld := ⟨0x501038, 0, 3, 0⟩
/-- SEC_UPD_STATUS.PENDING (15_boot_firmware_security.md): RO, reset 0. -/
def SEC_UPD_STATUS_PENDING : Fld := ⟨0x501040, 20, 3, 0⟩
/-- SEC_UPD_STATUS.STAGED (15_boot_firmware_security.md): RO, reset 0. -/
def SEC_UPD_STATUS_STAGED : Fld := ⟨0x501040, 16, 3, 0⟩
/-- SEC_UPD_STATUS.SOURCE (15_boot_firmware_security.md): RO, reset 0. -/
def SEC_UPD_STATUS_SOURCE : Fld := ⟨0x501040, 11, 1, 0⟩
/-- SEC_UPD_STATUS.DONE (15_boot_firmware_security.md): RW1C, reset 0. -/
def SEC_UPD_STATUS_DONE : Fld := ⟨0x501040, 10, 1, 0⟩
/-- SEC_UPD_STATUS.IFE_WARN (15_boot_firmware_security.md): RW1C, reset 0. -/
def SEC_UPD_STATUS_IFE_WARN : Fld := ⟨0x501040, 9, 1, 0⟩
/-- SEC_UPD_STATUS.BUSY (15_boot_firmware_security.md): RO, reset 0. -/
def SEC_UPD_STATUS_BUSY : Fld := ⟨0x501040, 8, 1, 0⟩
/-- SEC_UPD_STATUS.RESULT (15_boot_firmware_security.md): RO, reset 0. -/
def SEC_UPD_STATUS_RESULT : Fld := ⟨0x501040, 4, 4, 0⟩
/-- SEC_UPD_STATUS.LAST_OP (15_boot_firmware_security.md): RO, reset 0. -/
def SEC_UPD_STATUS_LAST_OP : Fld := ⟨0x501040, 0, 4, 0⟩
/-- SEC_CFG.VDM_EN (15_boot_firmware_security.md): RWT, reset 1. -/
def SEC_CFG_VDM_EN : Fld := ⟨0x501050, 1, 1, 1⟩
/-- SEC_CFG.BMC_UPD (15_boot_firmware_security.md): RWT, reset 1. -/
def SEC_CFG_BMC_UPD : Fld := ⟨0x501050, 0, 1, 1⟩
/-- SEC_MEAS_SEL.INDEX (15_boot_firmware_security.md): RW, reset 0. -/
def SEC_MEAS_SEL_INDEX (p : Nat) : Fld := ⟨0x501048 + p * portBCopy, 0, 3, 0⟩
/-- EVR_CFG.BURST (16_events_resets_and_retention.md): RWT, reset 64. -/
def EVR_CFG_BURST : Fld := ⟨0x40000, 16, 10, 64⟩
/-- EVR_CFG.FLUSH_SEV (16_events_resets_and_retention.md): RWT, reset 3. -/
def EVR_CFG_FLUSH_SEV : Fld := ⟨0x40000, 0, 3, 3⟩
/-- EVR_STATUS.FLUSHING (16_events_resets_and_retention.md): RO, reset 0. -/
def EVR_STATUS_FLUSHING : Fld := ⟨0x40008, 49, 1, 0⟩
/-- EVR_STATUS.FLUSH_FAIL (16_events_resets_and_retention.md): RW1C, reset 0. -/
def EVR_STATUS_FLUSH_FAIL : Fld := ⟨0x40008, 48, 1, 0⟩
/-- EVR_STATUS.NEXT_SEQ (16_events_resets_and_retention.md): RO, reset 1. -/
def EVR_STATUS_NEXT_SEQ : Fld := ⟨0x40008, 0, 48, 1⟩
/-- EVR_CURSOR.AUTO (16_events_resets_and_retention.md): RW, reset 0. -/
def EVR_CURSOR_AUTO (p : Nat) : Fld := ⟨0x40010 + p * portBCopy, 63, 1, 0⟩
/-- EVR_CURSOR.SEQ (16_events_resets_and_retention.md): RW, reset 0. -/
def EVR_CURSOR_SEQ (p : Nat) : Fld := ⟨0x40010 + p * portBCopy, 0, 48, 0⟩
/-- EVR_OLDEST.OLDEST (16_events_resets_and_retention.md): RO, reset 1. -/
def EVR_OLDEST_OLDEST : Fld := ⟨0x40018, 0, 48, 1⟩
/-- EVR_FLUSHED.FLUSHED (16_events_resets_and_retention.md): RO, reset 1. -/
def EVR_FLUSHED_FLUSHED : Fld := ⟨0x40020, 0, 48, 1⟩
/-- EVR_LIFE.CYCLES (16_events_resets_and_retention.md): RO, reset 0. -/
def EVR_LIFE_CYCLES : Fld := ⟨0x40028, 32, 24, 0⟩
/-- EVR_LIFE.POWERED (16_events_resets_and_retention.md): RO, reset 0. -/
def EVR_LIFE_POWERED : Fld := ⟨0x40028, 0, 29, 0⟩
/-- EVR_CNT.SUPPRESSED (16_events_resets_and_retention.md): RO, reset 0. -/
def EVR_CNT_SUPPRESSED : Fld := ⟨0x40030, 32, 32, 0⟩
/-- EVR_CNT.LOST (16_events_resets_and_retention.md): RO, reset 0. -/
def EVR_CNT_LOST : Fld := ⟨0x40030, 16, 16, 0⟩
/-- EVR_CLEAR.CONFIRM (16_events_resets_and_retention.md): WO, reset 0. -/
def EVR_CLEAR_CONFIRM : Fld := ⟨0x40038, 16, 16, 0⟩
/-- EVR_CLEAR.CLEAR (16_events_resets_and_retention.md): WO, reset 0. -/
def EVR_CLEAR_CLEAR : Fld := ⟨0x40038, 0, 1, 0⟩
/-- RST_CTL.CONFIRM (16_events_resets_and_retention.md): WO, reset 0. -/
def RST_CTL_CONFIRM : Fld := ⟨0x600000, 16, 16, 0⟩
/-- RST_CTL.TMASK (16_events_resets_and_retention.md): WO, reset 0. -/
def RST_CTL_TMASK : Fld := ⟨0x600000, 8, 4, 0⟩
/-- RST_CTL.JOB (16_events_resets_and_retention.md): WO, reset 0. -/
def RST_CTL_JOB : Fld := ⟨0x600000, 2, 1, 0⟩
/-- RST_CTL.TOWER (16_events_resets_and_retention.md): WO, reset 0. -/
def RST_CTL_TOWER : Fld := ⟨0x600000, 1, 1, 0⟩
/-- RST_CTL.WARM (16_events_resets_and_retention.md): WO, reset 0. -/
def RST_CTL_WARM : Fld := ⟨0x600000, 0, 1, 0⟩
/-- RST_LP.SLEEP_EN (16_events_resets_and_retention.md): RWT, reset 1. -/
def RST_LP_SLEEP_EN : Fld := ⟨0x600008, 17, 1, 1⟩
/-- RST_LP.STANDBY (16_events_resets_and_retention.md): RWT, reset 0. -/
def RST_LP_STANDBY : Fld := ⟨0x600008, 16, 1, 0⟩
/-- RST_LP.SLEEP_MS (16_events_resets_and_retention.md): RWT, reset 1000. -/
def RST_LP_SLEEP_MS : Fld := ⟨0x600008, 0, 16, 1000⟩
/-- RST_CAUSE.SEQ (16_events_resets_and_retention.md): RO, reset 0. -/
def RST_CAUSE_SEQ : Fld := ⟨0x600018, 16, 48, 0⟩
/-- RST_CAUSE.CAUSE (16_events_resets_and_retention.md): RO, reset 0. -/
def RST_CAUSE_CAUSE : Fld := ⟨0x600018, 8, 8, 0⟩
/-- RST_CAUSE.TOWERS (16_events_resets_and_retention.md): RO, reset 0. -/
def RST_CAUSE_TOWERS : Fld := ⟨0x600018, 4, 4, 0⟩
/-- RST_CAUSE.KIND (16_events_resets_and_retention.md): RO, reset 1. -/
def RST_CAUSE_KIND : Fld := ⟨0x600018, 0, 4, 1⟩
/-- RST_CNT.WARM (16_events_resets_and_retention.md): RO, reset 0. -/
def RST_CNT_WARM : Fld := ⟨0x600020, 48, 16, 0⟩
/-- RST_CNT.TOWER (16_events_resets_and_retention.md): RO, reset 0. -/
def RST_CNT_TOWER : Fld := ⟨0x600020, 32, 16, 0⟩
/-- RST_CNT.JOB (16_events_resets_and_retention.md): RO, reset 0. -/
def RST_CNT_JOB : Fld := ⟨0x600020, 16, 16, 0⟩
/-- RST_CNT.PWRFAIL (16_events_resets_and_retention.md): RO, reset 0. -/
def RST_CNT_PWRFAIL : Fld := ⟨0x600020, 0, 16, 0⟩

end Reg

/-- The CRN_ registers. -/
def familiesCrn : List Family :=
  [ { name := "CRN_FULLER_CFG", base := 0x1000100, width := 64, dims := [(4, 0x400000)],
      fields := [⟨"HOLD", 16, 7, .rwt, 16, .ofjg, true, some (16, 64)⟩, ⟨"DOWN_QUOTA", 8, 6, .rwt, 48, .ofjg, true, some (1, 48)⟩, ⟨"UP_QUOTA", 0, 4, .rwt, 9, .ofjg, true, some (1, 9)⟩] }
  , { name := "CRN_CORE_ID", base := 0x1010000, width := 64, dims := [(4, 0x400000), (144, 0x1000)],
      fields := [⟨"FLEX", 32, 1, .ro, 0, .none, false, none⟩, ⟨"COL", 28, 4, .ro, 0, .none, false, none⟩, ⟨"ROW", 24, 4, .ro, 0, .none, false, none⟩, ⟨"CROWN", 16, 2, .ro, 0, .none, false, none⟩, ⟨"CORE", 0, 10, .ro, 0, .none, false, none⟩] }
  , { name := "CRN_ARR_STATUS", base := 0x1010008, width := 64, dims := [(4, 0x400000), (144, 0x1000)],
      fields := [⟨"QDEPTH", 11, 4, .ro, 0, .none, false, none⟩, ⟨"CLASS", 9, 2, .ro, 3, .none, false, none⟩, ⟨"SWAP_PEND", 8, 1, .ro, 0, .none, false, none⟩, ⟨"SHADOW_VALID", 7, 1, .ro, 0, .none, false, none⟩, ⟨"STEP", 3, 4, .ro, 0, .none, false, none⟩, ⟨"STATE", 0, 3, .ro, 0, .none, false, none⟩, ⟨"B_QDEPTH", 27, 4, .ro, 0, .none, false, none⟩, ⟨"B_CLASS", 25, 2, .ro, 3, .none, false, none⟩, ⟨"B_SWAP_PEND", 24, 1, .ro, 0, .none, false, none⟩, ⟨"B_SHADOW_VALID", 23, 1, .ro, 0, .none, false, none⟩, ⟨"B_STEP", 19, 4, .ro, 0, .none, false, none⟩, ⟨"B_STATE", 16, 3, .ro, 0, .none, false, none⟩] }
  , { name := "CRN_ARR_CNT_F", base := 0x1010010, width := 64, dims := [(4, 0x400000), (144, 0x1000)],
      fields := [⟨"FILL", 40, 24, .ro, 0, .of, false, none⟩, ⟨"WORK", 0, 40, .ro, 0, .of, false, none⟩] }
  , { name := "CRN_ARR_CNT_B", base := 0x1010018, width := 64, dims := [(4, 0x400000), (144, 0x1000)],
      fields := [⟨"FILL", 40, 24, .ro, 0, .of, false, none⟩, ⟨"WORK", 0, 40, .ro, 0, .of, false, none⟩] }
  , { name := "CRN_ACC_TILE_F", base := 0x1010080, width := 32, dims := [(4, 0x400000), (144, 0x1000), (16, 0x4)],
      fields := [⟨"VALID", 31, 1, .rw, 0, .of, true, none⟩, ⟨"MODE", 28, 3, .rw, 0, .of, true, none⟩, ⟨"RSZ", 25, 3, .rw, 0, .of, true, none⟩, ⟨"BASE", 0, 9, .rw, 0, .of, true, none⟩] }
  , { name := "CRN_ACC_TILE_B", base := 0x10100c0, width := 32, dims := [(4, 0x400000), (144, 0x1000), (16, 0x4)],
      fields := [⟨"VALID", 31, 1, .rw, 0, .of, true, none⟩, ⟨"MODE", 28, 3, .rw, 0, .of, true, none⟩, ⟨"RSZ", 25, 3, .rw, 0, .of, true, none⟩, ⟨"BASE", 0, 9, .rw, 0, .of, true, none⟩] }
  , { name := "CRN_ACC_SAVE", base := 0x1010020, width := 64, dims := [(4, 0x400000), (144, 0x1000)],
      fields := [⟨"B_KIB", 16, 10, .ro, 0, .ofjg, false, none⟩, ⟨"F_KIB", 8, 8, .ro, 0, .ofjg, false, none⟩, ⟨"BASE", 0, 8, .ro, 0, .ofjg, false, none⟩] }
  , { name := "CRN_ACC_STATUS", base := 0x1010028, width := 64, dims := [(4, 0x400000), (144, 0x1000)],
      fields := [⟨"CORR_CNT", 48, 16, .ro, 0, .of, false, none⟩, ⟨"SAVED_B", 6, 1, .ro, 0, .of, false, none⟩, ⟨"SAVED_F", 5, 1, .ro, 0, .of, false, none⟩, ⟨"DRAIN_B", 4, 1, .ro, 0, .of, false, none⟩, ⟨"DRAIN_F", 3, 1, .ro, 0, .of, false, none⟩, ⟨"POISON", 2, 1, .rw1c, 0, .of, false, none⟩, ⟨"DESC_ERR_B", 1, 1, .rw1c, 0, .of, false, none⟩, ⟨"DESC_ERR_F", 0, 1, .rw1c, 0, .of, false, none⟩] }
  , { name := "CRN_QZP", base := 0x1010030, width := 64, dims := [(4, 0x400000), (144, 0x1000)],
      fields := [⟨"ZS_EN_B", 56, 1, .ro, 0, .of, false, none⟩, ⟨"ZS_B", 48, 8, .ro, 0, .of, false, none⟩, ⟨"ZA_EN_B", 40, 1, .ro, 0, .of, false, none⟩, ⟨"ZA_B", 32, 8, .ro, 0, .of, false, none⟩, ⟨"ZS_EN_F", 24, 1, .ro, 0, .of, false, none⟩, ⟨"ZS_F", 16, 8, .ro, 0, .of, false, none⟩, ⟨"ZA_EN_F", 8, 1, .ro, 0, .of, false, none⟩, ⟨"ZA_F", 0, 8, .ro, 0, .of, false, none⟩] }
  , { name := "CRN_VEC_STG", base := 0x1010100, width := 64, dims := [(4, 0x400000), (144, 0x1000), (16, 0x40), (8, 0x8)],
      fields := [⟨"ENTRY", 0, 64, .rw, 0, .ofjg, true, none⟩] }
  , { name := "CRN_VEC_HDR", base := 0x1010500, width := 64, dims := [(4, 0x400000), (144, 0x1000), (16, 0x8)],
      fields := [⟨"VALID", 63, 1, .rw, 0, .ofjg, true, none⟩, ⟨"NST", 60, 3, .rw, 0, .ofjg, true, none⟩, ⟨"DREG", 54, 6, .rw, 0, .ofjg, true, none⟩, ⟨"DSREG", 48, 6, .rw, 0, .ofjg, true, none⟩, ⟨"SSREG", 42, 6, .rw, 0, .ofjg, true, none⟩, ⟨"IXREG", 36, 6, .rw, 0, .ofjg, true, none⟩, ⟨"SMASK", 35, 1, .rw, 0, .ofjg, true, none⟩, ⟨"MXSREG", 29, 6, .rw, 0, .ofjg, true, none⟩] }
  , { name := "CRN_VEC_STATUS", base := 0x1010580, width := 64, dims := [(4, 0x400000), (144, 0x1000)],
      fields := [⟨"QDEPTH", 8, 4, .ro, 0, .none, false, none⟩, ⟨"VOP_HALF1", 7, 1, .ro, 0, .none, false, none⟩, ⟨"VOP_HALF0", 6, 1, .ro, 0, .none, false, none⟩, ⟨"BUF_POISON", 5, 1, .rw1c, 0, .of, false, none⟩, ⟨"DESC_ERR", 4, 1, .rw1c, 0, .of, false, none⟩, ⟨"CMD_ERR", 3, 1, .rw1c, 0, .of, false, none⟩, ⟨"SAT", 2, 1, .rw1c, 0, .of, false, none⟩, ⟨"EMPTY", 1, 1, .rw1c, 0, .of, false, none⟩] }
  , { name := "CRN_VEC_CNT_SEL", base := 0x1010588, width := 64, dims := [(4, 0x400000), (144, 0x1000)],
      fields := [⟨"FMT", 8, 5, .rw, 0, .of, true, none⟩, ⟨"CLASS", 0, 3, .rw, 0, .of, true, none⟩] }
  , { name := "CRN_CNT_SEL", base := 0x1000200, width := 64, dims := [(4, 0x400000)],
      fields := [⟨"FMT", 8, 5, .rw, 0, .of, true, none⟩, ⟨"CLASS", 0, 3, .rw, 0, .of, true, none⟩] }
  , { name := "CRN_VEC_CNT_OVF", base := 0x1010590, width := 64, dims := [(4, 0x400000), (144, 0x1000)],
      fields := [⟨"COUNT", 0, 48, .ro, 0, .of, false, none⟩] }
  , { name := "CRN_VEC_CNT_VAN", base := 0x1010598, width := 64, dims := [(4, 0x400000), (144, 0x1000)],
      fields := [⟨"COUNT", 0, 48, .ro, 0, .of, false, none⟩] }
  , { name := "CRN_VEC_CNT_INV", base := 0x10105a0, width := 64, dims := [(4, 0x400000), (144, 0x1000)],
      fields := [⟨"COUNT", 0, 48, .ro, 0, .of, false, none⟩] }
  , { name := "CRN_CNT_OVF", base := 0x1000208, width := 64, dims := [(4, 0x400000)],
      fields := [⟨"COUNT", 0, 48, .ro, 0, .of, false, none⟩] }
  , { name := "CRN_CNT_VAN", base := 0x1000210, width := 64, dims := [(4, 0x400000)],
      fields := [⟨"COUNT", 0, 48, .ro, 0, .of, false, none⟩] }
  , { name := "CRN_CNT_INV", base := 0x1000218, width := 64, dims := [(4, 0x400000)],
      fields := [⟨"COUNT", 0, 48, .ro, 0, .of, false, none⟩] }
  , { name := "CRN_VEC_CNT_CTL", base := 0x10105a8, width := 64, dims := [(4, 0x400000), (144, 0x1000)],
      fields := [⟨"CLR_ALL", 1, 1, .wo, 0, .none, true, none⟩, ⟨"CLR_SEL", 0, 1, .wo, 0, .none, true, none⟩] }
  , { name := "CRN_CNT_CTL", base := 0x1000220, width := 64, dims := [(4, 0x400000)],
      fields := [⟨"CLR_ALL", 1, 1, .wo, 0, .none, true, none⟩, ⟨"CLR_SEL", 0, 1, .wo, 0, .none, true, none⟩] }
  , { name := "CRN_SWAP_STALL", base := 0x1010038, width := 64, dims := [(4, 0x400000), (144, 0x1000)],
      fields := [⟨"B_STALL", 32, 32, .ro, 0, .of, false, none⟩, ⟨"F_STALL", 0, 32, .ro, 0, .of, false, none⟩] }
  , { name := "CRN_FLEX_CFG", base := 0x1010040, width := 64, dims := [(4, 0x400000), (144, 0x1000)],
      fields := [⟨"EN", 0, 1, .ro, 0, .ofjg, false, none⟩] }
  , { name := "CRN_FLEX_POST", base := 0x1010048, width := 64, dims := [(4, 0x400000), (144, 0x1000)],
      fields := [⟨"ADDR", 6, 14, .wo, 0, .none, true, none⟩] }
  , { name := "CRN_FLEX_STAT", base := 0x1010050, width := 64, dims := [(4, 0x400000), (144, 0x1000)],
      fields := [⟨"JOB_ERR", 20, 1, .rw1c, 0, .of, false, none⟩, ⟨"BOUND", 15, 5, .ro, 0, .none, false, none⟩, ⟨"READY", 10, 5, .ro, 0, .none, false, none⟩, ⟨"PEND", 5, 5, .ro, 0, .none, false, none⟩] }
  , { name := "CRN_FLEX_CNT", base := 0x1010058, width := 64, dims := [(4, 0x400000), (144, 0x1000)],
      fields := [⟨"B_JOBS", 32, 32, .ro, 0, .of, false, none⟩, ⟨"F_JOBS", 0, 32, .ro, 0, .of, false, none⟩] }
  ]

/-- The TIER_ registers. -/
def familiesTier : List Family :=
  [ { name := "TIER_LOCAL", base := 0x104000, width := 64, dims := [],
      fields := [⟨"ADAPT", 20, 20, .ro, 0, .ofjg, false, none⟩, ⟨"LOCAL", 0, 20, .ro, 0, .ofjg, false, none⟩] }
  , { name := "TIER_CFG", base := 0x100000, width := 64, dims := [(4, 0x1000)],
      fields := [⟨"SCRUB_EN", 16, 1, .rwt, 1, .ofjg, true, none⟩, ⟨"POOL_MIB", 6, 10, .ro, 0, .ofjg, true, none⟩, ⟨"RATE", 0, 6, .rwt, 8, .ofjg, true, some (1, 32)⟩] }
  , { name := "TIER_QUOTA", base := 0x100008, width := 64, dims := [(4, 0x1000)],
      fields := [⟨"STATE", 40, 10, .ro, 0, .ofjg, false, none⟩, ⟨"GRADBUF", 30, 10, .ro, 0, .ofjg, false, none⟩, ⟨"STASH", 20, 10, .ro, 0, .ofjg, false, none⟩, ⟨"PHASE", 10, 10, .ro, 0, .ofjg, false, none⟩, ⟨"PIN", 0, 10, .ro, 0, .ofjg, false, none⟩] }
  , { name := "TIER_STATUS", base := 0x100010, width := 64, dims := [(4, 0x1000)],
      fields := [⟨"FREE", 32, 14, .ro, 0, .none, false, none⟩, ⟨"HOME_LOST", 8, 10, .ro, 0, .none, false, none⟩, ⟨"BRIDGE_DEG", 6, 1, .ro, 0, .none, false, none⟩, ⟨"SPILL", 5, 1, .rw1c, 0, .of, false, none⟩, ⟨"ADDR_FAULT", 4, 1, .rw1c, 0, .of, false, none⟩, ⟨"CHAN_FAIL", 3, 1, .rw1c, 0, .of, false, none⟩, ⟨"LANE_FAIL", 2, 1, .rw1c, 0, .of, false, none⟩, ⟨"SPARE_LOW", 1, 1, .rw1c, 0, .of, false, none⟩, ⟨"UNCORR", 0, 1, .rw1c, 0, .of, false, none⟩] }
  , { name := "TIER_ECC", base := 0x100018, width := 64, dims := [(4, 0x1000)],
      fields := [⟨"POISON_USE", 48, 16, .ro, 0, .of, false, none⟩, ⟨"UNCORR", 32, 16, .ro, 0, .of, false, none⟩, ⟨"CORR", 0, 32, .ro, 0, .of, false, none⟩] }
  , { name := "TIER_PAGE_CNT", base := 0x100020, width := 64, dims := [(4, 0x1000)],
      fields := [⟨"SPILLED", 48, 16, .ro, 0, .of, false, none⟩, ⟨"LEFT", 24, 24, .ro, 0, .of, false, none⟩, ⟨"STAGED", 0, 24, .ro, 0, .of, false, none⟩] }
  , { name := "TIER_MAINT", base := 0x100028, width := 64, dims := [(4, 0x1000)],
      fields := [⟨"GROUPS_FAILED", 56, 8, .ro, 0, .ofjg, false, none⟩, ⟨"LANES_SPARED", 40, 16, .ro, 0, .ofjg, false, none⟩, ⟨"ROWS_SPARED", 24, 16, .ro, 0, .ofjg, false, none⟩, ⟨"DEEP_PASSES", 12, 12, .ro, 0, .of, false, none⟩, ⟨"NEAR_PASSES", 0, 12, .ro, 0, .of, false, none⟩] }
  , { name := "TIER_ERR_ADDR", base := 0x100030, width := 64, dims := [(4, 0x1000)],
      fields := [⟨"VALID", 63, 1, .rw1c, 0, .of, false, none⟩, ⟨"KIND", 48, 2, .ro, 0, .of, false, none⟩, ⟨"ADDR", 0, 48, .ro, 0, .of, false, none⟩] }
  ]

/-- The UPD_ registers. -/
def familiesUpd : List Family :=
  [ { name := "UPD_CFG", base := 0x404000, width := 64, dims := [],
      fields := [⟨"SWEEP_AT", 16, 16, .ro, 65535, .ofjg, false, none⟩, ⟨"DIG_INT", 0, 16, .rwt, 64, .ofjg, false, none⟩] }
  , { name := "UPD_CTL", base := 0x404008, width := 64, dims := [],
      fields := [⟨"REGEN", 0, 1, .wo, 0, .none, true, none⟩] }
  , { name := "UPD_STATUS", base := 0x400000, width := 64, dims := [(4, 0x1000)],
      fields := [⟨"STEP", 32, 32, .ro, 0, .none, false, none⟩, ⟨"PHASE", 16, 2, .ro, 0, .none, false, none⟩, ⟨"OVERCOUNT", 5, 1, .rw1c, 0, .of, false, none⟩, ⟨"SHORT", 4, 1, .rw1c, 0, .of, false, none⟩, ⟨"POISON", 3, 1, .rw1c, 0, .of, false, none⟩, ⟨"NONFINITE", 2, 1, .rw1c, 0, .of, false, none⟩, ⟨"DIG_MISMATCH", 1, 1, .rw1c, 0, .of, false, none⟩, ⟨"DIG_INVALID", 0, 1, .rw1c, 0, .of, false, none⟩] }
  , { name := "UPD_PROGRESS", base := 0x400008, width := 64, dims := [(4, 0x1000)],
      fields := [⟨"TOTAL", 32, 32, .ro, 0, .none, false, none⟩, ⟨"DONE", 0, 32, .ro, 0, .none, false, none⟩] }
  , { name := "UPD_STALL", base := 0x400010, width := 64, dims := [(4, 0x1000)],
      fields := [⟨"IDLE", 32, 32, .ro, 0, .of, false, none⟩, ⟨"PASSED", 0, 32, .ro, 0, .of, false, none⟩] }
  , { name := "UPD_GRAD", base := 0x400018, width := 64, dims := [(4, 0x1000)],
      fields := [⟨"OVERCOUNT", 56, 8, .ro, 0, .of, false, none⟩, ⟨"SHORT", 40, 16, .ro, 0, .of, false, none⟩, ⟨"POISON_BLK", 24, 16, .ro, 0, .of, false, none⟩, ⟨"NONFINITE", 0, 24, .ro, 0, .of, false, none⟩] }
  , { name := "UPD_CNT_SEL", base := 0x400020, width := 64, dims := [(4, 0x1000)],
      fields := [⟨"FMT", 8, 5, .rw, 0, .of, true, none⟩, ⟨"CLASS", 0, 3, .rw, 0, .of, true, none⟩] }
  , { name := "UPD_CNT_OVF", base := 0x400028, width := 64, dims := [(4, 0x1000)],
      fields := [⟨"COUNT", 0, 48, .ro, 0, .of, false, none⟩] }
  , { name := "UPD_CNT_VAN", base := 0x400030, width := 64, dims := [(4, 0x1000)],
      fields := [⟨"COUNT", 0, 48, .ro, 0, .of, false, none⟩] }
  , { name := "UPD_CNT_INV", base := 0x400038, width := 64, dims := [(4, 0x1000)],
      fields := [⟨"COUNT", 0, 48, .ro, 0, .of, false, none⟩] }
  , { name := "UPD_CNT_TOT", base := 0x400040, width := 64, dims := [(4, 0x1000)],
      fields := [⟨"COUNT", 0, 48, .ro, 0, .of, false, none⟩] }
  , { name := "UPD_CNT_CTL", base := 0x400048, width := 64, dims := [(4, 0x1000)],
      fields := [⟨"CLR_ALL", 1, 1, .wo, 0, .none, true, none⟩, ⟨"CLR_SEL", 0, 1, .wo, 0, .none, true, none⟩] }
  , { name := "UPD_DIG_STAT", base := 0x400050, width := 64, dims := [(4, 0x1000)],
      fields := [⟨"LAST_STEP", 32, 32, .ro, 0, .of, false, none⟩, ⟨"MISMATCHES", 16, 16, .ro, 0, .of, false, none⟩, ⟨"LAST_BAD", 0, 16, .ro, 0, .none, false, none⟩] }
  ]

/-- The HB_ registers. -/
def familiesHb : List Family :=
  [ { name := "HB_LINK_CTL", base := 0x200000, width := 64, dims := [(14, 0x1000)],
      fields := [⟨"ACTIVATE", 2, 1, .wo, 0, .none, true, none⟩, ⟨"RETRAIN", 1, 1, .wo, 0, .none, true, none⟩, ⟨"EN", 0, 1, .rwt, 1, .ofjg, true, none⟩] }
  , { name := "HB_LINK_STATUS", base := 0x200008, width := 64, dims := [(14, 0x1000)],
      fields := [⟨"LINKVER", 20, 4, .ro, 0, .none, false, none⟩, ⟨"FENCED_EV", 19, 1, .rw1c, 0, .of, false, none⟩, ⟨"MISWIRE", 18, 1, .rw1c, 0, .of, false, none⟩, ⟨"REFUSED", 17, 1, .rw1c, 0, .of, false, none⟩, ⟨"DOWN_EV", 16, 1, .rw1c, 0, .of, false, none⟩, ⟨"REASON", 8, 4, .ro, 0, .none, false, none⟩, ⟨"ATTEMPTS", 4, 2, .ro, 0, .none, false, none⟩, ⟨"STATE", 0, 4, .ro, 0, .none, false, none⟩] }
  , { name := "HB_LINK_MEAS", base := 0x200010, width := 64, dims := [(14, 0x1000)],
      fields := [⟨"FLIGHT", 20, 16, .ro, 0, .none, false, none⟩, ⟨"LEN_EST", 10, 10, .ro, 0, .none, false, none⟩, ⟨"IL", 0, 10, .ro, 0, .none, false, none⟩] }
  , { name := "HB_PARTNER", base := 0x200018, width := 64, dims := [(14, 0x1000)],
      fields := [⟨"VERMAX", 43, 4, .ro, 0, .none, false, none⟩, ⟨"VERMIN", 39, 4, .ro, 0, .none, false, none⟩, ⟨"COORD_VALID", 38, 1, .ro, 0, .none, false, none⟩, ⟨"COORD", 24, 14, .ro, 0, .none, false, none⟩, ⟨"LINK", 20, 4, .ro, 0, .none, false, none⟩, ⟨"STEPPING", 16, 4, .ro, 0, .none, false, none⟩, ⟨"PRODUCT", 0, 16, .ro, 0, .none, false, none⟩] }
  , { name := "HB_LINK_ERR", base := 0x200020, width := 64, dims := [(14, 0x1000)],
      fields := [⟨"LOST_PKT", 48, 16, .ro, 0, .of, false, none⟩, ⟨"BAD_FRAME", 32, 16, .ro, 0, .of, false, none⟩, ⟨"CORR_CW", 0, 32, .ro, 0, .of, false, none⟩] }
  , { name := "HB_COORD", base := 0x20f000, width := 64, dims := [],
      fields := [⟨"VALID", 63, 1, .rwt, 0, .ofjg, true, none⟩, ⟨"COORD", 0, 14, .rwt, 0, .ofjg, true, none⟩] }
  , { name := "HB_PLANE", base := 0x20f008, width := 64, dims := [],
      fields := [⟨"TWIN", 24, 1, .rwt, 0, .ofjg, true, none⟩, ⟨"DIMZ", 16, 6, .rwt, 0, .ofjg, true, none⟩, ⟨"DIMY", 8, 5, .rwt, 0, .ofjg, true, none⟩, ⟨"DIMX", 0, 5, .rwt, 0, .ofjg, true, none⟩] }
  , { name := "HB_FAB_CFG", base := 0x20f010, width := 64, dims := [],
      fields := [⟨"PERM", 48, 10, .rwt, 140, .ofjg, false, none⟩, ⟨"ALLOW", 32, 10, .rwt, 120, .ofjg, false, none⟩, ⟨"REQ_TIMEOUT", 16, 7, .rwt, 1, .ofjg, false, some (1, 100)⟩, ⟨"HOLDOFF", 0, 10, .rwt, 20, .ofjg, false, some (10, 1000)⟩] }
  , { name := "HB_DROP", base := 0x20f018, width := 64, dims := [],
      fields := [⟨"ECRC_ERR", 48, 16, .ro, 0, .of, false, none⟩, ⟨"HOPS_DROP", 32, 16, .ro, 0, .of, false, none⟩, ⟨"DETOUR_DROP", 16, 16, .ro, 0, .of, false, none⟩, ⟨"DEST_LOST", 0, 16, .ro, 0, .of, false, none⟩] }
  , { name := "HB_FAB_STATUS", base := 0x20f020, width := 64, dims := [],
      fields := [⟨"FAIL_FULL", 16, 1, .rw1c, 0, .of, false, none⟩, ⟨"UNSPARED", 8, 8, .ro, 0, .all, false, none⟩, ⟨"FAILS", 0, 8, .ro, 0, .all, false, none⟩] }
  , { name := "HB_SPARE", base := 0x20f100, width := 64, dims := [(32, 0x8)],
      fields := [⟨"VALID", 63, 1, .ro, 0, .ofjg, false, none⟩, ⟨"TAKEN", 62, 1, .ro, 0, .all, false, none⟩, ⟨"LOST", 61, 1, .ro, 0, .all, false, none⟩, ⟨"ZHI", 43, 5, .ro, 0, .ofjg, false, none⟩, ⟨"ZLO", 38, 5, .ro, 0, .ofjg, false, none⟩, ⟨"YHI", 34, 4, .ro, 0, .ofjg, false, none⟩, ⟨"YLO", 30, 4, .ro, 0, .ofjg, false, none⟩, ⟨"XHI", 26, 4, .ro, 0, .ofjg, false, none⟩, ⟨"XLO", 22, 4, .ro, 0, .ofjg, false, none⟩, ⟨"SPARE", 0, 14, .ro, 0, .ofjg, false, none⟩] }
  , { name := "HB_FAIL", base := 0x20f200, width := 64, dims := [(32, 0x8)],
      fields := [⟨"VALID", 63, 1, .ro, 0, .all, false, none⟩, ⟨"SPARED", 62, 1, .ro, 0, .all, false, none⟩, ⟨"SPIDX", 56, 6, .ro, 63, .all, false, none⟩, ⟨"REASON", 48, 8, .ro, 0, .all, false, none⟩, ⟨"COORD", 0, 14, .ro, 0, .all, false, none⟩] }
  ]

/-- The RED_ registers. -/
def familiesRed : List Family :=
  [ { name := "RED_CFG", base := 0x300000, width := 64, dims := [],
      fields := [⟨"MIRROR_EN", 34, 1, .rwt, 1, .ofjg, false, none⟩, ⟨"MODE", 32, 2, .ro, 0, .ofjg, false, none⟩, ⟨"DL", 16, 16, .rwt, 2000, .ofjg, false, some (100, 60000)⟩, ⟨"INNER_DL", 0, 16, .rwt, 1500, .ofjg, false, some (50, 60000)⟩] }
  , { name := "RED_STATUS", base := 0x300008, width := 64, dims := [],
      fields := [⟨"STORE_HI", 16, 8, .rc, 0, .none, false, none⟩, ⟨"REMAP_FAIL", 10, 1, .rw1c, 0, .of, false, none⟩, ⟨"MIRROR_FAIL", 9, 1, .rw1c, 0, .of, false, none⟩, ⟨"RESEND", 8, 1, .rw1c, 0, .of, false, none⟩, ⟨"MISSING", 7, 1, .rw1c, 0, .of, false, none⟩, ⟨"SUBST", 6, 1, .rw1c, 0, .of, false, none⟩, ⟨"MIXED", 5, 1, .rw1c, 0, .of, false, none⟩, ⟨"SHORT_LAND", 4, 1, .rw1c, 0, .of, false, none⟩, ⟨"LATE", 3, 1, .rw1c, 0, .of, false, none⟩, ⟨"PASS", 2, 1, .rw1c, 0, .of, false, none⟩, ⟨"ADDER_FAULT", 1, 1, .rw1c, 0, .of, false, none⟩, ⟨"INTEG", 0, 1, .rw1c, 0, .of, false, none⟩] }
  , { name := "RED_ERR_CNT", base := 0x300010, width := 64, dims := [],
      fields := [⟨"ECRC_ERR", 48, 16, .ro, 0, .of, false, none⟩, ⟨"RES_ERR", 32, 16, .ro, 0, .of, false, none⟩, ⟨"LATE", 16, 16, .ro, 0, .of, false, none⟩, ⟨"DUP", 0, 16, .ro, 0, .of, false, none⟩] }
  , { name := "RED_LAND_CNT", base := 0x300018, width := 64, dims := [],
      fields := [⟨"LANDED", 32, 32, .ro, 0, .of, false, none⟩, ⟨"SHORT", 16, 16, .ro, 0, .of, false, none⟩, ⟨"MIXED", 0, 16, .ro, 0, .of, false, none⟩] }
  , { name := "RED_GUARD_CNT", base := 0x300020, width := 64, dims := [],
      fields := [⟨"PRIM_TAKEN", 40, 24, .ro, 0, .of, false, none⟩, ⟨"BACK_TAKEN", 16, 24, .ro, 0, .of, false, none⟩, ⟨"MISSING", 0, 16, .ro, 0, .of, false, none⟩] }
  , { name := "RED_STORE", base := 0x300028, width := 64, dims := [],
      fields := [⟨"TIMED", 32, 32, .ro, 0, .of, false, none⟩, ⟨"PASS", 16, 16, .ro, 0, .of, false, none⟩, ⟨"REMAP_DROP", 0, 16, .ro, 0, .of, false, none⟩] }
  , { name := "RED_ADDER", base := 0x300030, width := 64, dims := [],
      fields := [⟨"FAILED", 0, 4, .ro, 0, .ofjg, false, none⟩] }
  , { name := "RED_MIRROR", base := 0x300038, width := 64, dims := [],
      fields := [⟨"VALID", 63, 1, .ro, 0, .of, false, none⟩, ⟨"TARGET", 48, 14, .ro, 0, .of, false, none⟩, ⟨"SLOT", 32, 1, .ro, 0, .of, false, none⟩, ⟨"STEP", 0, 32, .ro, 0, .of, false, none⟩] }
  , { name := "RED_RECOVER", base := 0x300040, width := 64, dims := [],
      fields := [⟨"STATE", 61, 3, .ro, 0, .of, false, none⟩, ⟨"FAILED", 47, 14, .ro, 0, .of, false, none⟩, ⟨"LAG", 32, 8, .ro, 0, .of, false, none⟩, ⟨"MIRROR_STEP", 0, 32, .ro, 0, .of, false, none⟩] }
  ]

/-- The SHP_ registers. -/
def familiesShp : List Family :=
  [ { name := "SHP_CTL", base := 0x60000, width := 64, dims := [],
      fields := [⟨"ABORT", 3, 1, .wo, 0, .none, true, none⟩, ⟨"UNSHAPE", 2, 1, .wo, 0, .none, true, none⟩, ⟨"SHAPE", 1, 1, .wo, 0, .none, true, none⟩] }
  , { name := "SHP_IMAGE", base := 0x60008, width := 64, dims := [],
      fields := [⟨"ADDR", 12, 36, .rwt, 0, .ofjg, true, none⟩] }
  , { name := "SHP_LEN", base := 0x60010, width := 64, dims := [],
      fields := [⟨"LEN", 0, 35, .rwt, 0, .ofjg, true, none⟩] }
  , { name := "SHP_STATUS", base := 0x60018, width := 64, dims := [],
      fields := [⟨"ERR_REC", 32, 32, .ro, 0, .of, false, none⟩, ⟨"ERR_SECT", 24, 8, .ro, 0, .of, false, none⟩, ⟨"ERR", 16, 8, .ro, 0, .of, false, none⟩, ⟨"STEP_RUN", 7, 1, .ro, 0, .none, false, none⟩, ⟨"SHAPE_ERR", 6, 1, .rw1c, 0, .of, false, none⟩, ⟨"STATE", 0, 3, .ro, 0, .ofjg, false, none⟩] }
  , { name := "SHP_STEP", base := 0x60020, width := 64, dims := [],
      fields := [⟨"STEP", 32, 32, .ro, 0, .none, false, none⟩, ⟨"MARK", 16, 16, .ro, 65535, .none, false, none⟩, ⟨"STEPS", 0, 16, .ro, 0, .of, false, none⟩] }
  , { name := "SHP_SLOTS", base := 0x60028, width := 64, dims := [],
      fields := [⟨"MB_NEXT", 16, 10, .ro, 0, .none, false, none⟩, ⟨"USED", 0, 9, .ro, 0, .none, false, none⟩] }
  , { name := "SHP_CFG", base := 0x60030, width := 64, dims := [],
      fields := [⟨"STEP_WDOG", 0, 10, .rwt, 1000, .ofjg, false, some (10, 1000)⟩] }
  , { name := "SHP_URG", base := 0x60038, width := 64, dims := [],
      fields := [⟨"URG_DONE", 32, 32, .ro, 0, .of, false, none⟩, ⟨"URG_HELD", 16, 16, .ro, 0, .of, false, none⟩, ⟨"URG_REJECT", 0, 16, .ro, 0, .of, false, none⟩] }
  , { name := "SHP_SEED", base := 0x60040, width := 64, dims := [],
      fields := [⟨"SEED", 0, 64, .ro, 0, .ofjg, false, none⟩] }
  , { name := "SHP_DIGEST", base := 0x60080, width := 64, dims := [(8, 0x8)],
      fields := [⟨"DIGEST", 0, 64, .ro, 0, .ofjg, false, none⟩] }
  ]

/-- The SYN_ registers. -/
def familiesSyn : List Family :=
  [ { name := "SYN_OP", base := 0x80000, width := 64, dims := [],
      fields := [⟨"VALUE", 32, 32, .wo, 0, .none, true, none⟩, ⟨"OP", 17, 1, .wo, 0, .none, true, none⟩, ⟨"OBJ", 0, 17, .wo, 0, .none, true, none⟩] }
  , { name := "SYN_SEL", base := 0x80008, width := 64, dims := [],
      fields := [⟨"OBJ", 0, 17, .rw, 0, .of, false, none⟩] }
  , { name := "SYN_VALUE", base := 0x80010, width := 64, dims := [],
      fields := [⟨"VALUE", 0, 32, .ro, 0, .none, false, none⟩] }
  , { name := "SYN_CFG", base := 0x80018, width := 64, dims := [],
      fields := [⟨"BAR_DL", 0, 16, .rwt, 2000, .ofjg, false, some (100, 60000)⟩] }
  , { name := "SYN_STATUS", base := 0x80020, width := 64, dims := [],
      fields := [⟨"OP_ERR", 2, 1, .rw1c, 0, .of, false, none⟩, ⟨"BAR_TIMED", 1, 1, .rw1c, 0, .of, false, none⟩, ⟨"REMOTE_LOST", 0, 1, .rw1c, 0, .of, false, none⟩] }
  , { name := "SYN_CNT", base := 0x80028, width := 64, dims := [],
      fields := [⟨"REMOTE_RECV", 32, 32, .ro, 0, .of, false, none⟩, ⟨"BAR_TIMED", 16, 16, .ro, 0, .of, false, none⟩, ⟨"REMOTE_LOST", 0, 16, .ro, 0, .of, false, none⟩] }
  ]

/-- The PWR_ registers. -/
def familiesPwr : List Family :=
  [ { name := "PWR_CFG", base := 0x50000, width := 64, dims := [],
      fields := [⟨"FORCE_FB", 1, 1, .rwt, 0, .ofjg, true, none⟩, ⟨"BOOST_EN", 0, 1, .rwt, 1, .ofjg, false, none⟩] }
  , { name := "PWR_STATUS", base := 0x50008, width := 64, dims := [],
      fields := [⟨"AVS_FAULT", 4, 4, .rw1c, 0, .of, false, none⟩, ⟨"ICC_LIMIT", 3, 1, .rw1c, 0, .of, false, none⟩, ⟨"CAL_LOST", 2, 1, .rw1c, 0, .of, false, none⟩, ⟨"MODE", 0, 1, .ro, 1, .none, false, none⟩] }
  , { name := "PWR_OP", base := 0x50010, width := 64, dims := [],
      fields := [⟨"THROT", 13, 1, .ro, 0, .none, false, none⟩, ⟨"DUTY", 6, 7, .ro, 64, .none, false, none⟩, ⟨"CEIL", 3, 3, .ro, 5, .none, false, none⟩, ⟨"OP", 0, 3, .ro, 0, .none, false, none⟩, ⟨"THROT", 29, 1, .ro, 0, .none, false, none⟩, ⟨"DUTY", 22, 7, .ro, 64, .none, false, none⟩, ⟨"CEIL", 19, 3, .ro, 5, .none, false, none⟩, ⟨"OP", 16, 3, .ro, 0, .none, false, none⟩, ⟨"THROT", 45, 1, .ro, 0, .none, false, none⟩, ⟨"DUTY", 38, 7, .ro, 64, .none, false, none⟩, ⟨"CEIL", 35, 3, .ro, 5, .none, false, none⟩, ⟨"OP", 32, 3, .ro, 0, .none, false, none⟩, ⟨"THROT", 61, 1, .ro, 0, .none, false, none⟩, ⟨"DUTY", 54, 7, .ro, 64, .none, false, none⟩, ⟨"CEIL", 51, 3, .ro, 5, .none, false, none⟩, ⟨"OP", 48, 3, .ro, 0, .none, false, none⟩] }
  , { name := "PWR_PKG", base := 0x50018, width := 64, dims := [],
      fields := [⟨"P10", 48, 16, .ro, 0, .none, false, none⟩, ⟨"P1", 32, 16, .ro, 0, .none, false, none⟩, ⟨"P1MAX", 16, 16, .rc, 0, .none, false, none⟩] }
  , { name := "PWR_DOM", base := 0x50020, width := 64, dims := [(7, 0x8)],
      fields := [⟨"EST", 48, 16, .ro, 0, .none, false, none⟩, ⟨"MEAS", 32, 16, .ro, 0, .none, false, none⟩, ⟨"GAIN", 16, 16, .ro, 16384, .none, false, none⟩] }
  , { name := "PWR_DIP", base := 0x50058, width := 64, dims := [],
      fields := [⟨"RESETS", 48, 16, .ro, 0, .of, false, none⟩, ⟨"STEPDOWN", 32, 16, .ro, 0, .of, false, none⟩, ⟨"DIPS", 0, 32, .ro, 0, .of, false, none⟩] }
  , { name := "PWR_LSTEP", base := 0x50060, width := 64, dims := [],
      fields := [⟨"COUNT", 32, 32, .ro, 0, .of, false, none⟩, ⟨"LOW", 0, 1, .ro, 0, .none, false, none⟩] }
  , { name := "PWR_RAIL", base := 0x50100, width := 64, dims := [(10, 0x8)],
      fields := [⟨"PRESENT", 63, 1, .ro, 0, .ofjg, false, none⟩, ⟨"AVS", 62, 1, .ro, 0, .ofjg, false, none⟩, ⟨"PHASES", 56, 6, .ro, 0, .ofjg, false, none⟩, ⟨"ISUST", 45, 11, .ro, 0, .ofjg, false, none⟩, ⟨"IPEAK", 34, 11, .ro, 0, .ofjg, false, none⟩, ⟨"VMAX", 22, 12, .ro, 0, .ofjg, false, none⟩, ⟨"VMIN", 10, 12, .ro, 0, .ofjg, false, none⟩] }
  ]

/-- The PCAP_ registers. -/
def familiesPcap : List Family :=
  [ { name := "PCAP_CAP", base := 0x50400, width := 64, dims := [],
      fields := [⟨"CLAMPED", 32, 1, .rw1c, 0, .of, true, none⟩, ⟨"EFF", 16, 16, .ro, 3600, .none, true, none⟩, ⟨"REQ", 0, 16, .rwt, 3600, .all, true, none⟩] }
  , { name := "PCAP_STATUS", base := 0x50408, width := 64, dims := [],
      fields := [⟨"TRIM", 48, 16, .ro, 0, .none, false, none⟩, ⟨"ALARM_LIM", 3, 1, .ro, 0, .none, false, none⟩, ⟨"GAPS", 2, 1, .ro, 0, .none, false, none⟩, ⟨"UNMET_NOW", 1, 1, .ro, 0, .none, false, none⟩, ⟨"CAP_UNMET", 0, 1, .rw1c, 0, .of, false, none⟩] }
  , { name := "PCAP_LEARN", base := 0x50410, width := 64, dims := [],
      fields := [⟨"PHASE", 48, 16, .ro, 65535, .none, false, none⟩, ⟨"NPHASE", 39, 9, .ro, 0, .ofjg, false, none⟩, ⟨"LEARNED", 30, 9, .ro, 0, .none, false, none⟩] }
  ]

/-- The THM_ registers. -/
def familiesThm : List Family :=
  [ { name := "THM_CFG", base := 0x50800, width := 64, dims := [],
      fields := [⟨"UPSHARE", 0, 7, .rwt, 90, .ofjg, false, some (50, 100)⟩] }
  , { name := "THM_STATUS", base := 0x50808, width := 64, dims := [],
      fields := [⟨"THROT", 12, 4, .ro, 0, .none, false, none⟩, ⟨"SENSOR_FAULT", 11, 1, .rw1c, 0, .of, false, none⟩, ⟨"DISAGREE", 10, 1, .rw1c, 0, .of, false, none⟩, ⟨"TRIP", 9, 1, .ro, 0, .none, false, none⟩, ⟨"TRIP_POS", 6, 3, .ro, 0, .none, false, none⟩, ⟨"TRIP_TWR", 4, 2, .ro, 0, .none, false, none⟩] }
  , { name := "THM_LAYER", base := 0x50900, width := 64, dims := [(4, 0x40), (8, 0x8)],
      fields := [⟨"DISAGREE", 56, 1, .ro, 0, .none, false, none⟩, ⟨"NVALID", 52, 4, .ro, 0, .none, false, none⟩, ⟨"EFF", 32, 16, .ro, 0, .none, false, none⟩, ⟨"INF", 16, 16, .ro, 0, .none, false, none⟩, ⟨"MEAS", 0, 16, .ro, 32768, .none, false, none⟩] }
  , { name := "THM_COOL_CFG", base := 0x50c00, width := 64, dims := [],
      fields := [⟨"GFLOW", 48, 16, .rwt, 400, .ofjg, true, none⟩, ⟨"KP", 40, 8, .rwt, 50, .ofjg, true, none⟩, ⟨"KI", 32, 8, .rwt, 20, .ofjg, true, none⟩, ⟨"DMIN", 24, 8, .rwt, 20, .ofjg, true, none⟩, ⟨"OUT_SET", 16, 8, .rwt, 45, .ofjg, true, none⟩, ⟨"ALARM_CAP", 0, 16, .rwt, 1800, .ofjg, true, some (900, 3600)⟩] }
  , { name := "THM_COOL_MODEL", base := 0x50c08, width := 64, dims := [],
      fields := [⟨"TACH_K", 48, 16, .rwt, 200, .ofjg, true, none⟩, ⟨"FLOW_MIN", 32, 16, .rwt, 20, .ofjg, true, none⟩, ⟨"IN_MAX", 24, 8, .rwt, 40, .ofjg, true, none⟩, ⟨"DELAY", 8, 8, .rwt, 40, .ofjg, true, none⟩, ⟨"TAU", 0, 8, .rwt, 30, .ofjg, true, none⟩] }
  , { name := "THM_COOL_STATUS", base := 0x50c10, width := 64, dims := [],
      fields := [⟨"DEMAND", 44, 10, .ro, 1000, .none, false, none⟩, ⟨"FLOW", 32, 12, .ro, 0, .none, false, none⟩, ⟨"TOUT", 20, 12, .ro, 0, .none, false, none⟩, ⟨"TIN", 8, 12, .ro, 0, .none, false, none⟩, ⟨"OUT_PRESENT", 6, 1, .ro, 0, .ofjg, false, none⟩, ⟨"IN_PRESENT", 5, 1, .ro, 0, .ofjg, false, none⟩, ⟨"TACH_SEEN", 4, 1, .ro, 0, .none, false, none⟩, ⟨"ALARM", 0, 1, .rw1c, 0, .of, false, none⟩] }
  ]

/-- The DEV_ registers. -/
def familiesDev : List Family :=
  [ { name := "DEV_ID", base := 0x0, width := 64, dims := [],
      fields := [⟨"VENDOR", 48, 16, .ro, 8076, .ofjg, false, none⟩, ⟨"PRODUCT", 32, 16, .ro, 53298, .ofjg, false, none⟩, ⟨"STEPPING", 28, 4, .ro, 0, .ofjg, false, none⟩] }
  , { name := "DEV_CAP", base := 0x8, width := 64, dims := [],
      fields := [⟨"LINKS", 56, 8, .ro, 14, .ofjg, false, none⟩, ⟨"TOWERS", 48, 8, .ro, 4, .ofjg, false, none⟩, ⟨"CROWN_OK", 40, 4, .ro, 0, .ofjg, false, none⟩, ⟨"CORES", 24, 16, .ro, 576, .ofjg, false, none⟩, ⟨"DEEP_GIB", 16, 8, .ro, 80, .ofjg, false, none⟩, ⟨"IMG_VER", 8, 8, .ro, 1, .ofjg, false, none⟩] }
  ]

/-- The HQ_ registers. -/
def familiesHq : List Family :=
  [ { name := "HQ_SQ_BASE", base := 0x10000, width := 64, dims := [(1024, 0x20)],
      fields := [⟨"ADDR", 12, 52, .rw, 0, .jg, false, none⟩] }
  , { name := "HQ_CQ_BASE", base := 0x10008, width := 64, dims := [(1024, 0x20)],
      fields := [⟨"ADDR", 12, 52, .rw, 0, .jg, false, none⟩] }
  , { name := "HQ_Q_CFG", base := 0x10010, width := 64, dims := [(1024, 0x20)],
      fields := [⟨"EN", 63, 1, .rw, 0, .jg, true, none⟩, ⟨"CLASS", 62, 1, .rw, 0, .jg, true, none⟩, ⟨"IEN", 61, 1, .rw, 0, .jg, true, none⟩, ⟨"WEIGHT", 48, 8, .rw, 1, .jg, true, none⟩, ⟨"ITIME", 32, 16, .rw, 0, .jg, true, none⟩, ⟨"CQSZM1", 16, 16, .rw, 0, .jg, true, none⟩, ⟨"SQSZM1", 0, 16, .rw, 0, .jg, true, none⟩] }
  , { name := "HQ_Q_STATUS", base := 0x10018, width := 64, dims := [(1024, 0x20)],
      fields := [⟨"SQTAIL", 48, 16, .ro, 0, .none, false, none⟩, ⟨"SQHEAD", 32, 16, .ro, 0, .none, false, none⟩, ⟨"CQTAIL", 16, 16, .ro, 0, .none, false, none⟩, ⟨"CQHEAD", 0, 16, .ro, 0, .none, false, none⟩] }
  , { name := "HQ_EQ_BASE", base := 0x18000, width := 64, dims := [(1024, 0x10)],
      fields := [⟨"ADDR", 12, 52, .rw, 0, .jg, false, none⟩] }
  , { name := "HQ_EQ_CFG", base := 0x18008, width := 64, dims := [(1024, 0x10)],
      fields := [⟨"EN", 63, 1, .rw, 0, .jg, true, none⟩, ⟨"SRC", 61, 2, .rw, 0, .jg, true, none⟩, ⟨"SEV", 58, 3, .rw, 0, .jg, true, none⟩, ⟨"LOG2SZ", 53, 5, .rw, 4, .jg, true, none⟩, ⟨"IEN", 52, 1, .rw, 0, .jg, true, none⟩, ⟨"OBJ", 32, 17, .rw, 0, .jg, true, none⟩, ⟨"VALUE", 0, 32, .rw, 0, .jg, true, none⟩] }
  , { name := "HQ_PORT", base := 0x1c000, width := 64, dims := [],
      fields := [⟨"WIDTH", 8, 5, .ro, 0, .none, false, none⟩, ⟨"RATE", 4, 4, .ro, 0, .none, false, none⟩, ⟨"PORT", 0, 1, .ro, 0, .ofjg, false, none⟩] }
  , { name := "HQ_BAR2_WIN", base := 0x1c008, width := 64, dims := [],
      fields := [⟨"BASE", 30, 18, .rw, 0, .jg, false, none⟩] }
  , { name := "HQ_ERR", base := 0x1c010, width := 64, dims := [],
      fields := [⟨"DB_CNT", 32, 32, .ro, 0, .jg, false, none⟩, ⟨"HOLD_TO", 4, 1, .rw1c, 0, .jg, false, none⟩, ⟨"EQ_OVF", 3, 1, .rw1c, 0, .jg, false, none⟩, ⟨"CFG_BAD", 2, 1, .rw1c, 0, .jg, false, none⟩, ⟨"CMD_BAD", 1, 1, .rw1c, 0, .jg, false, none⟩, ⟨"DB_BAD", 0, 1, .rw1c, 0, .jg, false, none⟩] }
  ]

/-- The MGT_ registers. -/
def familiesMgt : List Family :=
  [ { name := "MGT_TOKEN", base := 0x500000, width := 64, dims := [],
      fields := [⟨"EPOCH", 48, 16, .ro, 0, .all, false, none⟩, ⟨"TIMEOUT_MS", 32, 16, .rwt, 1000, .ofjg, false, some (10, 60000)⟩, ⟨"HOLDER", 16, 2, .ro, 0, .holder, false, none⟩, ⟨"SELF", 8, 1, .ro, 0, .none, false, none⟩, ⟨"GIVE", 3, 1, .wo, 0, .none, true, none⟩, ⟨"RELEASE", 2, 1, .wo, 0, .none, true, none⟩, ⟨"CLAIM", 1, 1, .wo, 0, .none, true, none⟩, ⟨"BEAT", 0, 1, .wo, 0, .none, true, none⟩] }
  , { name := "MGT_STATUS", base := 0x500008, width := 64, dims := [],
      fields := [⟨"FAILOVERS", 48, 16, .ro, 0, .all, false, none⟩, ⟨"FWF", 32, 5, .ro, 0, .ofjg, false, none⟩, ⟨"STBY_OK", 8, 1, .ro, 0, .ofjg, false, none⟩, ⟨"ACTIVE_MC", 7, 1, .ro, 0, .ofjg, false, none⟩, ⟨"MODE", 4, 3, .ro, 0, .ofjg, false, none⟩, ⟨"PHASE", 0, 4, .ro, 0, .ofjg, false, none⟩] }
  ]

/-- The SEC_ registers. -/
def familiesSec : List Family :=
  [ { name := "SEC_BOOT", base := 0x501000, width := 64, dims := [],
      fields := [⟨"RESULT", 3, 4, .ro, 0, .ofjg, false, none⟩, ⟨"TRIAL", 2, 1, .ro, 0, .ofjg, false, none⟩, ⟨"PEND", 1, 1, .ro, 0, .ofjg, false, none⟩, ⟨"BANK", 0, 1, .ro, 0, .ofjg, false, none⟩, ⟨"RESULT", 11, 4, .ro, 0, .ofjg, false, none⟩, ⟨"TRIAL", 10, 1, .ro, 0, .ofjg, false, none⟩, ⟨"PEND", 9, 1, .ro, 0, .ofjg, false, none⟩, ⟨"BANK", 8, 1, .ro, 0, .ofjg, false, none⟩, ⟨"RESULT", 19, 4, .ro, 0, .ofjg, false, none⟩, ⟨"TRIAL", 18, 1, .ro, 0, .ofjg, false, none⟩, ⟨"PEND", 17, 1, .ro, 0, .ofjg, false, none⟩, ⟨"BANK", 16, 1, .ro, 0, .ofjg, false, none⟩] }
  , { name := "SEC_FW", base := 0x501008, width := 64, dims := [(3, 0x8)],
      fields := [⟨"VERSION", 32, 32, .ro, 0, .ofjg, false, none⟩, ⟨"IFE", 24, 8, .ro, 0, .ofjg, false, none⟩, ⟨"HWE_MAX", 16, 8, .ro, 0, .ofjg, false, none⟩, ⟨"HWE_MIN", 8, 8, .ro, 0, .ofjg, false, none⟩, ⟨"SVN", 2, 6, .ro, 0, .ofjg, false, none⟩, ⟨"KEYSLOT", 0, 2, .ro, 0, .ofjg, false, none⟩] }
  , { name := "SEC_FUSE", base := 0x501020, width := 64, dims := [],
      fields := [⟨"HWE", 56, 8, .ro, 0, .ofjg, false, none⟩, ⟨"DEBUG", 22, 1, .ro, 0, .all, false, none⟩, ⟨"REVOKED", 18, 4, .ro, 0, .ofjg, false, none⟩, ⟨"FLOOR_SD", 12, 6, .ro, 0, .ofjg, false, none⟩, ⟨"FLOOR_UC", 6, 6, .ro, 0, .ofjg, false, none⟩, ⟨"FLOOR_MC", 0, 6, .ro, 0, .ofjg, false, none⟩] }
  , { name := "SEC_UPD_ADDR", base := 0x501028, width := 64, dims := [],
      fields := [⟨"ADDR", 4, 44, .rwt, 0, .of, false, none⟩] }
  , { name := "SEC_UPD_LEN", base := 0x501030, width := 64, dims := [],
      fields := [⟨"LEN", 0, 23, .rwt, 0, .of, false, none⟩] }
  , { name := "SEC_UPD_CMD", base := 0x501038, width := 64, dims := [],
      fields := [⟨"CONFIRM", 16, 16, .wo, 0, .none, true, none⟩, ⟨"TYPE", 8, 2, .wo, 0, .none, true, none⟩, ⟨"OP", 0, 3, .wo, 0, .none, true, none⟩] }
  , { name := "SEC_UPD_STATUS", base := 0x501040, width := 64, dims := [],
      fields := [⟨"PENDING", 20, 3, .ro, 0, .ofjg, false, none⟩, ⟨"STAGED", 16, 3, .ro, 0, .ofjg, false, none⟩, ⟨"SOURCE", 11, 1, .ro, 0, .of, false, none⟩, ⟨"DONE", 10, 1, .rw1c, 0, .of, false, none⟩, ⟨"IFE_WARN", 9, 1, .rw1c, 0, .of, false, none⟩, ⟨"BUSY", 8, 1, .ro, 0, .none, false, none⟩, ⟨"RESULT", 4, 4, .ro, 0, .of, false, none⟩, ⟨"LAST_OP", 0, 4, .ro, 0, .of, false, none⟩] }
  , { name := "SEC_CFG", base := 0x501050, width := 64, dims := [],
      fields := [⟨"VDM_EN", 1, 1, .rwt, 1, .ofjg, false, none⟩, ⟨"BMC_UPD", 0, 1, .rwt, 1, .ofjg, false, none⟩] }
  , { name := "SEC_MEAS_SEL", base := 0x501048, width := 64, dims := [],
      fields := [⟨"INDEX", 0, 3, .rw, 0, .of, false, none⟩] }
  , { name := "SEC_MEAS_DATA", base := 0x501080, width := 64, dims := [(8, 0x8)],
      fields := [⟨"DATA", 0, 64, .ro, 0, .none, false, none⟩] }
  ]

/-- The EVR_ registers. -/
def familiesEvr : List Family :=
  [ { name := "EVR_CFG", base := 0x40000, width := 64, dims := [],
      fields := [⟨"BURST", 16, 10, .rwt, 64, .all, false, some (1, 1023)⟩, ⟨"RATE", 8, 8, .rwt, 16, .all, false, some (1, 255)⟩, ⟨"FLUSH_SEV", 0, 3, .rwt, 3, .all, false, none⟩] }
  , { name := "EVR_STATUS", base := 0x40008, width := 64, dims := [],
      fields := [⟨"FLUSHING", 49, 1, .ro, 0, .none, false, none⟩, ⟨"FLUSH_FAIL", 48, 1, .rw1c, 0, .all, false, none⟩, ⟨"NEXT_SEQ", 0, 48, .ro, 1, .all, false, none⟩] }
  , { name := "EVR_CURSOR", base := 0x40010, width := 64, dims := [],
      fields := [⟨"AUTO", 63, 1, .rw, 0, .all, false, none⟩, ⟨"SEQ", 0, 48, .rw, 0, .all, false, none⟩] }
  , { name := "EVR_OLDEST", base := 0x40018, width := 64, dims := [],
      fields := [⟨"OLDEST", 0, 48, .ro, 1, .all, false, none⟩] }
  , { name := "EVR_FLUSHED", base := 0x40020, width := 64, dims := [],
      fields := [⟨"FLUSHED", 0, 48, .ro, 1, .all, false, none⟩] }
  , { name := "EVR_LIFE", base := 0x40028, width := 64, dims := [],
      fields := [⟨"CYCLES", 32, 24, .ro, 0, .all, false, none⟩, ⟨"POWERED", 0, 29, .ro, 0, .all, false, none⟩] }
  , { name := "EVR_CNT", base := 0x40030, width := 64, dims := [],
      fields := [⟨"SUPPRESSED", 32, 32, .ro, 0, .all, false, none⟩, ⟨"LOST", 16, 16, .ro, 0, .all, false, none⟩] }
  , { name := "EVR_CLEAR", base := 0x40038, width := 64, dims := [],
      fields := [⟨"CONFIRM", 16, 16, .wo, 0, .none, true, none⟩, ⟨"CLEAR", 0, 1, .wo, 0, .none, true, none⟩] }
  , { name := "EVR_WINDOW", base := 0x40100, width := 64, dims := [(32, 0x8)],
      fields := [⟨"DATA", 0, 64, .ro, 0, .none, false, none⟩] }
  ]

/-- The RST_ registers. -/
def familiesRst : List Family :=
  [ { name := "RST_CTL", base := 0x600000, width := 64, dims := [],
      fields := [⟨"CONFIRM", 16, 16, .wo, 0, .none, true, none⟩, ⟨"TMASK", 8, 4, .wo, 0, .none, true, none⟩, ⟨"JOB", 2, 1, .wo, 0, .none, true, none⟩, ⟨"TOWER", 1, 1, .wo, 0, .none, true, none⟩, ⟨"WARM", 0, 1, .wo, 0, .none, true, none⟩] }
  , { name := "RST_LP", base := 0x600008, width := 64, dims := [],
      fields := [⟨"SLEEP_EN", 17, 1, .rwt, 1, .all, false, none⟩, ⟨"STANDBY", 16, 1, .rwt, 0, .all, true, none⟩, ⟨"SLEEP_MS", 0, 16, .rwt, 1000, .all, false, some (10, 60000)⟩] }
  , { name := "RST_STATE", base := 0x600010, width := 64, dims := [],
      fields := [⟨"STANDBY", 12, 1, .ro, 0, .none, false, none⟩, ⟨"GATED", 8, 4, .ro, 15, .none, false, none⟩, ⟨"TOWER", 0, 8, .ro, 0, .none, false, none⟩] }
  , { name := "RST_CAUSE", base := 0x600018, width := 64, dims := [],
      fields := [⟨"SEQ", 16, 48, .ro, 0, .all, false, none⟩, ⟨"CAUSE", 8, 8, .ro, 0, .all, false, none⟩, ⟨"TOWERS", 4, 4, .ro, 0, .all, false, none⟩, ⟨"KIND", 0, 4, .ro, 1, .all, false, none⟩] }
  , { name := "RST_CNT", base := 0x600020, width := 64, dims := [],
      fields := [⟨"WARM", 48, 16, .ro, 0, .all, false, none⟩, ⟨"TOWER", 32, 16, .ro, 0, .all, false, none⟩, ⟨"JOB", 16, 16, .ro, 0, .all, false, none⟩, ⟨"PWRFAIL", 0, 16, .ro, 0, .all, false, none⟩] }
  ]

/-- The whole register map. -/
def registerMap : List Family :=
  familiesCrn ++ familiesTier ++ familiesUpd ++ familiesHb ++ familiesRed ++ familiesShp ++ familiesSyn ++ familiesPwr ++ familiesPcap ++ familiesThm ++ familiesDev ++ familiesHq ++ familiesMgt ++ familiesSec ++ familiesEvr ++ familiesRst

/-- Is `d` a sum of one multiple (below its count) of each stride? -/
def dimsMatch : List (Nat × Nat) → Nat → Bool
  | [], d => d == 0
  | (n, st) :: r, d => decide (d / st < n) && dimsMatch r (d % st)

/-- Is the offset the start of a register of the family? The strides of a family fall, so the quotients are unique. -/
def Family.owns (f : Family) (off : Nat) : Bool :=
  decide (f.base ≤ off) && dimsMatch f.dims (off - f.base)

/-- The register at an offset of BAR0, if the map has one there. -/
def familyAt (off : Nat) : Option Family := registerMap.find? (·.owns off)

/-- The registers each port has a copy of: the HQ_ block, SYN_SEL, EVR_CURSOR and SEC_MEAS_SEL. -/
def perPort (f : Family) : Bool :=
  "HQ_".isPrefixOf f.name || f.name == "SYN_SEL" || f.name == "EVR_CURSOR" || f.name == "SEC_MEAS_SEL"

/-- The offset under which the field store files a register, for an access through port `p`. -/
def homeOff (f : Family) (p off : Nat) : Nat := if perPort f then off + p * portBCopy else off

end Sys2Proof.Machine
end

