-- ==== Sys2Proof/Machine/StateTypes.lean ====
section
/-! DEFINITION. The parts of the state, one structure per unit the manual describes. Every piece of state that is a
BAR0 register field lives in the field store of `State` instead; what stands here is the rest. -/

namespace Sys2Proof.Machine

/-! ### Towers, through domains and the silt channel (01) -/

/-- Tower sleep (R25, R26, R484). -/
inductive SleepPhase where
  | awake | entering | asleep | leaving
deriving DecidableEq, Repr

/-- What one tower's vertical paths and dies hold beside their registers. -/
structure TowerSt where
  sleep : SleepPhase := .awake
  /-- idle for SLEEP_MS (R485), and entry to tower sleep has not begun -/
  idle : Bool := false
  /-- position codes of the through domains that are lost (R28) -/
  lost : List Nat := []
  /-- those lost once since power-on reset (R31) -/
  lostOnce : List Nat := []
  /-- those that stay off until the next power-on reset (R31) -/
  staysOff : List Nat := []
  /-- horizons (0 is H1) whose logic is in reset (R22) -/
  horizonReset : List Nat := []
  /-- refreshes that fell due during a horizon's logic reset, per horizon (R22) -/
  refreshDue : List (Nat × Nat) := []
  /-- the cache die is in reset (R23) -/
  cacheReset : Bool := false
  /-- lane training has completed on every lane group (R26) -/
  trained : Bool := true
  /-- its uplink and memory lanes have not completed training since boot (R34, R444) -/
  untrained : Bool := false
  /-- the tower is isolated and the package reported failed (R32) -/
  isolated : Bool := false
deriving DecidableEq, Repr

/-- The sending side of one silt link direction (R36). -/
structure SiltSender where
  /-- the frame sent and not yet acknowledged -/
  waiting : Option (List Byte) := none
  /-- how often it has been sent again -/
  resends : Nat := 0
  /-- frames behind it -/
  queue : List (List Byte) := []
deriving DecidableEq, Repr

/-! ### Memory requests that wait (R22, R23, R425) -/

/-- A change of a sync object: an add, a set, or the set of a barrier's release object (R369, R375). -/
inductive SyncKind where
  | add | set | release
deriving DecidableEq, Repr

/-- Where a held request's data go. -/
inductive Sink where
  /-- a load of a control-core thread -/
  | load (core th rd : Nat)
  /-- a store of a control-core thread -/
  | store (core th : Nat)
  /-- a host read through BAR2 -/
  | hostRead (port tag : Nat)
  /-- a host write through BAR2 -/
  | hostWrite (port : Nat)
  /-- a request from another package over the fabric: who asked, and its tag -/
  | fabric (link src tag : Nat)
  /-- a host write of a register in a crown or a cache die (R425): whether it is a command of its own, and the access -/
  | hostReg (own : Bool) (acc : RegAccess)
  /-- no data: a change of a sync object whose crown a die holds back (R23, R25) -/
  | sync (kind : SyncKind) (obj value : Nat)
deriving DecidableEq, Repr

/-- What holds a request. -/
inductive Holder where
  | horizon (t h : Nat)
  | cacheDie (t : Nat)
  | sleep (t : Nat)
deriving DecidableEq, Repr

/-- A request held until a die leaves reset or its tower leaves sleep. -/
structure HeldReq where
  holder : Holder
  orig : Orig
  sink : Sink
  addr : Nat
  len : Nat
  data : List DataByte
deriving DecidableEq, Repr

/-- The port of a host request that is held: a BAR2 access, a register access, or a change of a sync object (R425). -/
def HeldReq.port (r : HeldReq) : Option Nat :=
  match r.sink, r.orig with
  | .hostRead p _, _ | .hostWrite p, _ => some p
  | .hostReg _ acc, _ => some acc.port.val
  | .sync .., .port p => some p
  | _, _ => none

/-- Is it a posted write of a port (R424)? -/
def HeldReq.posted (r : HeldReq) (p : Nat) : Bool :=
  r.port == some p && (match r.sink with
    | .hostRead .. => false
    | _ => true)

/-! ### The tier managers (08) -/

/-- The states of a managed page (R243). -/
inductive PageState where
  | absent | empty | arriving | resident | leaving | spilled | homeLost
deriving DecidableEq, Repr

/-- A directory entry (R242). `frame` counts 64 KiB frames of the home tower's page pool. -/
structure Page where
  state : PageState := .absent
  frame : Nat := 0
  /-- written since it arrived -/
  dirty : Bool := false
  /-- its LEAVE_AT has passed, and the order in which it became resident (R247) -/
  leavePassed : Bool := false
  order : Nat := 0
deriving DecidableEq, Repr

/-- The kinds of page move, in the page engine's class order (R246). -/
inductive MoveKind where
  | stateOut | stateIn | leave | stage
deriving DecidableEq, Repr

def MoveKind.rank : MoveKind → Nat
  | .stateOut => 0 | .stateIn => 1 | .leave => 2 | .stage => 3

/-- A queued page move; `marker` is the phase marker that made it due (R246). -/
structure PageMove where
  kind : MoveKind
  page : Nat
  marker : Nat
deriving DecidableEq, Repr

/-- A pool frame: in use, or free and zeroed, or free and waiting for background zeroing (R245). -/
inductive FrameSt where
  | free | unzeroed | used
deriving DecidableEq, Repr

/-- A lane takeover in progress: the lane being replaced (R251). -/
structure LaneGroup where
  failed : List Nat := []
  takingOver : Option Nat := none
deriving DecidableEq, Repr

/-- What one tower manager keeps beside its registers. -/
structure TierSt where
  frames : List (Nat × FrameSt) := []
  queue : List PageMove := []
  /-- how many pages have become resident, which numbers the next -/
  arrivals : Nat := 0
  /-- corrected words not yet written back (R237) -/
  correctedPending : List Nat := []
  /-- spared rows: channel, bank and row in one number, kept in MRAM (R250, R251) -/
  sparedRows : List Nat := []
  /-- spare rows used, per bank of a channel, kept in MRAM -/
  sparesUsed : List (Nat × Nat) := []
  /-- distinct words with corrected errors since power-on, per row (R250) -/
  rowErrors : List (Nat × List Nat) := []
  /-- rows that hold an uncorrectable word (R250) -/
  rowUncorrectable : List Nat := []
  /-- lane groups, kept in MRAM (R251) -/
  lanes : List (Nat × LaneGroup) := []
  /-- memory channels that serve CHAN_FAIL: horizon × 64 + channel (R252) -/
  failedChannels : List Nat := []
  /-- next word the patrol scrub reads, deep tier and near tier with local SRAM (R249) -/
  scrubDeep : Nat := 0
  scrubNear : Nat := 0
  /-- RATE and SCRUB_EN in force for the block in progress (R255) -/
  rateInForce : Nat := 8
  scrubInForce : Bool := true
  scrubNearInForce : Bool := true
  /-- refreshes issued per channel (R248) -/
  refreshes : List (Nat × Nat) := []
deriving DecidableEq, Repr

/-! ### The event recorder (16) -/

/-- An event record (R468). -/
structure Record where
  seq : Nat
  powered : Nat
  sev : Nat
  cycles : Nat
  source : Nat
  code : Nat
  payload : List Byte
deriving DecidableEq, Repr

/-- The recorder area in one brim's MRAM (R473, R474, R510). `oldest` 0 marks an area never written. -/
structure RecorderArea where
  records : List (Nat × Option Record) := []
  oldest : Nat := 1
  reserve : Nat := 1
  powered : Nat := 0
  fraction : Nat := 0
  cycles : Nat := 0
deriving DecidableEq, Repr

/-- An event that has reached the arbiter and waits for a sequence number (R474). -/
structure WaitingEvent where
  code : Nat
  sev : Nat
  source : Nat
  payload : List Byte
deriving DecidableEq, Repr

/-- The recorder beside its registers. -/
structure Recorder where
  fraction : Nat := 0
  /-- tokens per code; an unlisted code holds the reset BURST, 64 (R471) -/
  buckets : List (Nat × Nat) := []
  suppressed : List (Nat × Nat) := []
  /-- SEQ of the last admitted record of each code (R472) -/
  lastSeq : List (Nat × Nat) := []
  /-- the RAM ring, by SEQ mod 65,536 (R473) -/
  ring : List (Nat × Option Record) := []
  areaA : RecorderArea := {}
  areaB : RecorderArea := {}
  /-- SEQs admitted and not yet flushed, ascending -/
  unflushed : List Nat := []
  /-- events that wait for RESERVE to be raised (R474) -/
  waiting : List WaitingEvent := []
  /-- admission is closed after a power-fail record (R475) -/
  closed : Bool := false
  /-- the port whose clear waits for a flush in progress to end (R479) -/
  clearing : Option Nat := none
deriving DecidableEq, Repr

/-! ### Host ports (14) -/

/-- A completion queue beside its registers. -/
structure QueueSt where
  /-- entries written and not yet released, and entries reserved for commands taken (R429) -/
  written : Nat := 0
  reserved : Nat := 0
  /-- PHASE of the next entry (R432) -/
  phase : Bool := true
  /-- the next urgent command's number (R432) -/
  urgentNo : Nat := 0
  /-- an entry has been written whose vector waits for ITIME (R432) -/
  unsignalled : Bool := false
  /-- commands taken in the current round (R429) -/
  round : Nat := 0
  /-- counts enables, so that a command taken before the queue was disabled writes no completion (R439) -/
  epoch : Nat := 0
deriving DecidableEq, Repr

/-- An event queue. -/
structure EventQueue where
  enabled : Bool := false
  tail : Nat := 0
  used : Nat := 0
  phase : Bool := true
  /-- entries were dropped, so the next one has LOST (R434) -/
  lost : Bool := false
  armed : Bool := false
deriving DecidableEq, Repr

/-- A command taken from a queue: where its completion goes. -/
structure Ticket where
  port : Nat
  queue : Nat
  slot : Nat
  sqHead : Nat
  epoch : Nat
deriving DecidableEq, Repr

/-- A ready condition in the layout of R205. -/
structure ReadyCond where
  sync : Nat
  value : Nat
  equal : Bool
deriving DecidableEq, Repr

/-- A DMA command in a channel (R428, R431). -/
structure DmaJob where
  ticket : Ticket
  toHost : Bool
  haddr : Nat
  daddr : Nat
  len16 : Nat
  wait : ReadyCond
  signal : Nat
  started : Bool := false
  status : Nat := 0
  done16 : Nat := 0
deriving DecidableEq, Repr

/-- What a port holds beside its HQ_ registers. -/
structure HostPort where
  linkUp : Bool := false
  d3hot : Bool := false
  memEnable : Bool := false
  resetAsserted : Bool := false
  queues : List (Nat × QueueSt) := []
  /-- the enabled event queues -/
  events : List (Nat × EventQueue) := []
  dma : List (Nat × Option DmaJob) := []
  /-- BAR2 size in GiB (R421) -/
  bar2Gib : Nat := 16
  /-- the addresses of BAR0, BAR2 and BAR4 (R419, R421) -/
  bar0 : Nat := 0
  bar2 : Nat := 0
  bar4 : Nat := 0
  /-- Max Payload Size and Max Read Request Size in force, as 128 × 2^n bytes (R418, R431) -/
  payloadLog : Nat := 0
  readLog : Nat := 2
  /-- MSI-X is enabled, and masked as a whole (R418) -/
  msixOn : Bool := false
  msixMasked : Bool := false
  /-- the MSI-X table, 32-bit words by 4 × vector + word (R426): an unlisted word is 0, and an unlisted Vector Control masks -/
  msixTable : List (Nat × Nat) := []
  /-- vectors pending, which the PBA shows (R426) -/
  msixPending : List (Nat × Bool) := []
deriving DecidableEq, Repr

/-! ### Structure images, steps, sync objects and urgent work (12) -/

/-- A work unit descriptor (R360). -/
structure UnitDesc where
  core : Nat
  thread : Nat
  kind : Nat
  phase : Nat
  mb : Nat
  slotEnd : Bool
  entry : Nat
  wait0 : ReadyCond
  wait1 : ReadyCond
  signal : Nat
  footF : Nat
  lenF : Nat
  footB : Nat
  lenB : Nat
  mbsz : Nat
deriving DecidableEq, Repr

/-- An urgent unit descriptor (R360): COUNT cores from CORE on. -/
structure UrgentDesc where
  core : Nat
  count : Nat
  kind : Nat
  entry : Nat
  signal : Nat
  footF : Nat
  lenF : Nat
  footB : Nat
  lenB : Nat
deriving DecidableEq, Repr

/-- A BARRIER record (R373). -/
structure Barrier where
  arrival : Nat
  release : Nat
  members : Nat
  group : Nat
deriving DecidableEq, Repr

/-- A managed region (R240). -/
structure Region where
  page : Nat
  count : Nat
  cls : Nat
  stageAt : Nat
  leaveAt : Nat
deriving DecidableEq, Repr

/-- A step command in the step queue (R361, R429). -/
structure StepCmd where
  ticket : Ticket
  image : Nat
  step : Nat
  lrf : Nat
  done : Nat
  args : List Nat
deriving DecidableEq, Repr

/-- The running step (R362 to R367). -/
structure StepRun where
  cmd : StepCmd
  /-- next position in each thread's unit list, by 2 × core + thread -/
  next : List (Nat × Nat) := []
  /-- the status of the failure that stopped dispatch, 0 while none has (R365) -/
  failed : Nat := 0
  /-- highest phase marker signalled, none before the first (R363) -/
  mark : Option Nat := none
  flags : Nat := 0
  sweep : Bool := false
  /-- micro-batches that hold their slots, and how many SLOT_END units of each have completed (R364) -/
  mbHeld : List Nat := []
  mbEnded : List (Nat × Nat) := []
deriving DecidableEq, Repr

/-- An urgent command that was accepted (R376, R378). -/
structure UrgentCmd where
  ticket : Ticket
  unit : Nat
  signal : Nat
  args : List Nat
deriving DecidableEq, Repr

/-- A running urgent command: the cores of its unit that have not ended (R377). -/
structure UrgentRun where
  cmd : UrgentCmd
  cores : List Nat
  /-- it has ended with an error on a core (R366) -/
  failed : Bool := false
deriving DecidableEq, Repr

/-- An open generation of a remote barrier at this node (R374). -/
structure BarrierGen where
  group : Nat
  gen : Nat
  count : Nat
  /-- this node has sent on what it holds -/
  sent : Bool
deriving DecidableEq, Repr

/-- A remote add sent and not yet acknowledged (R372): its operation number, who sent it, and what it named. -/
structure RemoteAdd where
  op : Nat
  core : Nat
  thread : Nat
  coord : Nat
  obj : Nat
deriving DecidableEq, Repr

/-! ### Cores: matrix arrays, the fuller and the accumulators (03, 04, 05) -/

/-- A value that may be poisoned. -/
abbrev Val := Option Num

/-- A stationary as the cells hold it (R83, R84): `elems k n` by inner index and column, exact values after the
conversions of the shadow load path (R58, R94, R144); none marks a poisoned cell. -/
structure Stationary where
  /-- the LOAD that brought it, its register values and its zero point, for the reload of R110 and R148 -/
  cmd : ArrCmd
  regs : List Nat
  zs : Option Nat
  fmt : Fmt
  /-- the class of R86: 0 wide, 1 narrow, 2 micro -/
  cls : Nat
  crows : Nat
  elems : List (List Val)
  /-- scale bytes by column and block, empty when the format is not MX (R157) -/
  scales : List (List Nat)
deriving DecidableEq, Repr

/-- A command in an array queue: the word, the thread that wrote it, and a flex job's operand words (R206). -/
structure ArrEntry where
  word : Nat
  thread : Thr
  job : Option (List Nat) := none
deriving DecidableEq, Repr

/-- A STREAM that has left its queue (R201), with the register values it uses. -/
structure StreamSt where
  cmd : ArrCmd
  thread : Thr
  base : Nat
  stride : Nat
  mxs : Nat
  /-- the register after BASE, for the imaginary part (R100) -/
  base2 : Nat
  /-- the stream zero point in force when it reached the head (R146) -/
  za : Option Nat
  next : Nat := 0
  /-- its poison-consumed event has been recorded (R239) -/
  met : Bool := false
deriving DecidableEq, Repr

/-- The fuller's states (R101). -/
inductive FullerPhase where
  | idle | waitUp | rampUp | full | hold | waitDown | rampDown
deriving DecidableEq, Repr

/-- The STATE codes of CRN_ARR_STATUS. -/
def FullerPhase.code : FullerPhase → Nat
  | .idle => 0 | .waitUp => 1 | .rampUp => 2 | .full => 3 | .hold => 4 | .waitDown => 5 | .rampDown => 6

/-- One array's fuller (R101 to R104). `credit` counts eighths of a row, as it stands in cycle `cyc` of the current duty
step; a ramp's steps have six cycles. -/
structure Fuller where
  phase : FullerPhase := .idle
  step : Nat := 0
  credit : Nat := 0
  cyc : Nat := 0
  held : Nat := 0
  /-- a slot was granted and its ramp has not begun (R105, R106, R512) -/
  granted : Bool := false
  /-- the grant was for both arrays of the core, and this is the B-array, whose ramp waits for the next boundary (R106) -/
  later : Bool := false
  /-- the up-slot it waits for was requested from idle: no row issues before the grant (R104, R512) -/
  fromIdle : Bool := false
deriving DecidableEq, Repr

/-- What a VOP or DRAIN samples once (R142, R173): the thread's scalar registers, and the operand address and stride of an
epilogue. -/
structure Sampled where
  regs : List Nat
  ebase : Nat := 0
  estride : Nat := 0
  hdr : List Nat := []
  stages : List Nat := []
  /-- the memory blocks read at the start: address and bytes -/
  blocks : List (Nat × List DataByte)
deriving DecidableEq, Repr

/-- The drain engine's DRAIN (R132, R133). -/
structure DrainSt where
  cmd : ArrCmd
  thread : Thr
  tileBase : Nat
  mode : Nat
  rows : Nat
  sampled : Sampled
  next : Nat := 0
  met : Bool := false
  /-- its place among the DRAINs of its core, in the order they passed to their engines (R164, R174) -/
  seq : Nat := 0
deriving DecidableEq, Repr

/-- What a preempted unit leaves aside on one array (R110, R142, R148, R377). -/
structure ArraySaved where
  live : Option Stationary
  shadow : Option Stationary
  shadowValid : Bool
  stream : Option StreamSt
  drain : Option DrainSt
  queue : List ArrEntry
  /-- ZA_EN, ZA, ZS_EN and ZS of the unit (R148) -/
  zp : List Nat
  /-- a save record is held for the array (R139) -/
  record : Bool := false
deriving DecidableEq, Repr

/-- A block of the transpose buffer (R199, R200): up to 64 elements of each of K_s memory rows. -/
structure FillBlock where
  /-- it belongs to the earliest transposed STREAM that has not issued a row, not to the one that issues -/
  ahead : Bool
  /-- it supplies the stream rows 64 × `index` on -/
  index : Nat
  /-- element codes by memory row, none where poisoned, and those of the imaginary operand (R100) -/
  rows : List (List (Option Nat))
  rows2 : List (List (Option Nat))
  /-- its reads have met poison -/
  met : Bool
deriving DecidableEq, Repr

/-- A matrix array with its queue, its accumulator file and its drain engine. -/
structure ArraySt where
  queue : List ArrEntry := []
  live : Option Stationary := none
  shadow : Option Stationary := none
  /-- the shadow holds a stationary that no swap has made live yet (R91) -/
  shadowValid : Bool := false
  /-- the stationary a LOAD is writing (R89) -/
  loading : Option Stationary := none
  stream : Option StreamSt := none
  /-- the two-block transpose buffer (R199, R200) -/
  fill : List FillBlock := []
  fuller : Fuller := {}
  /-- the file, byte by byte; none is a byte of a poisoned accumulator (R117) -/
  file : List (Nat × DataByte) := []
  drain : Option DrainSt := none
  /-- commands of a flex job that have not yet entered the queue (R209) -/
  entering : List ArrEntry := []
  /-- descriptor writes that wait for commands naming their slots (R120): slot, value and the thread that waits -/
  deferred : List (Nat × Nat × Thr) := []
  /-- the array is being preempted (R110) -/
  preempting : Bool := false
  /-- the save record is being written, and has been committed (R137, R140) -/
  saving : Bool := false
  saved : Option ArraySaved := none
deriving DecidableEq, Repr

/-! ### Control-core threads (12) -/

/-- What a thread waits for. -/
inductive Wait where
  /-- a load whose data a die holds back (R22, R23) -/
  | load
  /-- a descriptor write that a command in a queue holds back (R120) -/
  | slot
  /-- SWAIT (R358): object, value, equality -/
  | sync (obj value : Nat) (equal : Bool)
deriving DecidableEq, Repr

/-- A change to a sync object that waits for the stores it is ordered after (R369). -/
structure SyncOp where
  set : Bool
  obj : Nat
  value : Nat
deriving DecidableEq, Repr

/-- A control-core thread (R357, R358). -/
structure ThreadSt where
  running : Bool := false
  suspended : Bool := false
  pc : Nat := 0
  regs : List (Nat × Nat) := []
  wait : Option Wait := none
  /-- the work unit, by its index in the UNIT section, or the urgent unit on thread U -/
  unit : Nat := 0
  /-- SADD and SSET issued and not yet made, in order -/
  ops : List SyncOp := []
deriving DecidableEq, Repr

/-! ### The vector engine and the flex scheduler (06, 07) -/

/-- What a conversion adds to a counter bank: format code, class and kind. -/
structure CountKey where
  fmt : Nat
  cls : Nat
  kind : CountKind
deriving DecidableEq, Repr

/-- A TOSCAL write (R190): the register, its value, and the index that goes to the next register; none is poison. -/
structure Toscal where
  reg : Nat
  value : Option Nat
  index : Option (Option Nat)
deriving DecidableEq, Repr

/-- A VOP that has been sampled and left its queue, and whose FENCE holds its reads back (R172, R173). -/
structure VopFence where
  word : Nat
  sampled : Sampled
  /-- its poison-consumed event has been recorded (R239) -/
  met : Bool
  /-- it waits for the core's DRAINs whose place is below this one (R174) -/
  before : Nat
deriving DecidableEq, Repr

/-- A running VOP (R173, R192): what it is still to store, count and write. -/
structure VopRun where
  thread : Thr
  fence : Option VopFence := none
  stores : List (Nat × List DataByte)
  counts : List CountKey
  toscal : Option Toscal
deriving DecidableEq, Repr

/-- A command in the vector queue. -/
structure VecEntry where
  word : Nat
  thread : Thr
deriving DecidableEq, Repr

/-- A posted flex job (R205). -/
structure FlexJob where
  thread : Thr
  kind : Nat
  arrSel : Nat
  gend : Bool
  group : Nat
  conds : List ReadyCond
  operands : List Nat
  cmds : List Nat
deriving DecidableEq, Repr

/-- One core. -/
structure CoreSt where
  /-- the core is gated (R480, G) -/
  gated : Bool := true
  arrF : ArraySt := {}
  arrB : ArraySt := {}
  thrF : ThreadSt := {}
  thrB : ThreadSt := {}
  thrU : ThreadSt := {}
  /-- thread U holds the array command queues (R377) -/
  urgent : Bool := false
  vecQueue : List VecEntry := []
  vop : Option VopRun := none
  /-- how many DRAINs have passed to the core's two drain engines: the place of the next one -/
  drainNo : Nat := 0
  /-- the counter bank (R193, R194), by (format × 8 + class) × 3 + kind -/
  counts : List (Nat × Nat) := []
  /-- flex jobs in posting order, and group bindings: group and array (R207, R210) -/
  jobs : List FlexJob := []
  bindings : List (Nat × Arr) := []
deriving DecidableEq, Repr

def CoreSt.arr (c : CoreSt) : Arr → ArraySt
  | .F => c.arrF
  | .B => c.arrB

def CoreSt.setArr (c : CoreSt) (a : Arr) (x : ArraySt) : CoreSt :=
  match a with
  | .F => { c with arrF := x }
  | .B => { c with arrB := x }

def CoreSt.thr (c : CoreSt) : Thr → ThreadSt
  | .F => c.thrF
  | .B => c.thrB
  | .U => c.thrU

def CoreSt.setThr (c : CoreSt) (t : Thr) (x : ThreadSt) : CoreSt :=
  match t with
  | .F => { c with thrF := x }
  | .B => { c with thrB := x }
  | .U => { c with thrU := x }

/-- A slot request at a crown's fuller coordinator (R105), in arrival order. -/
structure SlotReq where
  core : Nat
  arr : Arr
  up : Bool
  urgent : Bool
deriving DecidableEq, Repr

/-- A crown's fuller coordinator (R105 to R114) and its counter bank (R193). -/
structure CrownSt where
  requests : List SlotReq := []
  upQuota : Nat := 9
  downQuota : Nat := 48
  holdCycles : Nat := 16
  /-- cores of a release that wait for the boundary after LSTEP_N (R107, R113) -/
  released : List Nat := []
  /-- cores of releases whose ramps LSTEP_N still leads (R402) -/
  leading : List Nat := []
  /-- cores of urgent starts with LSTEP_N ahead of which no array has ramped up since (R113, R402) -/
  starting : List Nat := []
  counts : List (Nat × Nat) := []
deriving DecidableEq, Repr

end Sys2Proof.Machine
end

