-- ==== Sys2Proof/Machine/FabricTypes.lean ====
section
/-! DEFINITION. The parts of the state that belong to the fabric links, the reduction, the delivery of masters and the
update units (09, 10, 11). -/

namespace Sys2Proof.Machine

/-! ### Tables of the shaped image that its records point to (09, 11) -/

/-- A shard map entry (R315). -/
structure Shard where
  first : Nat
  count : Nat
  owner : Nat
  entry : Nat
  echunk : Nat
deriving DecidableEq, Repr

/-- A copy descriptor (R273). -/
structure CopyDesc where
  dst : Nat
  aux : Nat
  olist : Nat
  side : Nat
  prescale : Nat
  rq : Nat
  kind : Nat
  fmt : Nat
  ctl : Nat
  stream : Nat
  ocnt : Nat
  dstride : Nat
  /-- its reserved bits are zero -/
  clean : Bool
deriving DecidableEq, Repr

/-! ### Packets and links (10) -/

/-- A packet: its 64-byte header flit (R288) and its payload. -/
structure Pkt where
  hdr : List Byte
  data : List Byte
deriving DecidableEq, Repr

/-- A packet in an ingress buffer, with the flits that stand on its channel's own credits and on the pool's (R286). -/
structure InPkt where
  pkt : Pkt
  own : Nat
  pool : Nat
deriving DecidableEq, Repr

/-- A packet at an injection port. `merged` marks one that left an adder, and so needs credits for two packets on a
reduction channel (R334); `taken` marks one that the combining brim has already handled, and `way` the direction (dimension, negative) of a packet
that goes down a tree (R340). -/
structure InjPkt where
  pkt : Pkt
  merged : Bool
  taken : Bool
  way : Option (Nat × Bool) := none
deriving DecidableEq, Repr

/-- A frame in a replay buffer: its bytes, the packets that begin in it, whether it goes on with an earlier one, and whether
it carries flits of a delivery (R340). -/
structure SentFrame where
  bytes : List Byte
  heads : Nat
  cont : Bool
  delivery : Bool := false
deriving DecidableEq, Repr

/-- A frame that waits for room in the replay buffer (R285): its type, NAK, and SLOT0 onward. -/
structure WaitingFrame where
  type : Nat
  nak : Bool
  slots : List Byte
deriving DecidableEq, Repr

/-- What the arbiter of an egress link keeps (R291). -/
structure Arbiter where
  /-- flit slots that go to the other classes before MGT has its next, while others wait -/
  mgtWait : Nat := 0
  /-- service received by RED, PARAM, RSP and REQ, in flits divided by the class's weight, over 8 -/
  served : List (Nat × Nat) := []
  /-- the service that the class served last had when its packet began -/
  clock : Nat := 0
  /-- the channel last served, by class, and the input last served, by channel -/
  lastVc : List (Nat × Nat) := []
  lastInput : List (Nat × Nat) := []
deriving DecidableEq, Repr

/-- A link beside its registers. -/
structure LinkSt where
  /-- FSEQ expected next, and FSEQ of the next frame sent (R284, R285) -/
  rxSeq : Nat := 0
  txSeq : Nat := 0
  /-- frames sent and not yet acknowledged, oldest first -/
  replay : List SentFrame := []
  /-- bytes of a packet of which not every flit has arrived -/
  partialPkt : List Byte := []
  /-- whole packets received and not yet forwarded or ejected, in arrival order -/
  ingress : List InPkt := []
  /-- credits of the partner's buffer in use, by channel, and of its pool -/
  vcUsed : List (Nat × Nat) := []
  poolUsed : Nat := 0
  /-- the partner's flits held here, by channel, and in the pool -/
  vcHeld : List (Nat × Nat) := []
  poolHeld : Nat := 0
  /-- credits to return: CVC and CCNT -/
  owed : List (Nat × Nat) := []
  /-- HB_PLANE of the partner, from its capability block (R295) -/
  partnerPlane : Nat := 0
  /-- notices, NAKs and acknowledgements that wait for room in the replay buffer -/
  waiting : List WaitingFrame := []
  arb : Arbiter := {}
deriving DecidableEq, Repr

/-- A REQ sent and not yet answered (R292, R293). -/
structure FabricReq where
  tag : Nat
  dst : Nat
  write : Bool
  len : Nat
  sink : Sink
deriving DecidableEq, Repr

/-! ### Reduction (11) -/

/-- The key of a piece (R331), with its SEQ for ORDER mode. -/
structure RedKey where
  chan : Nat
  tag : Nat
  bchunk : Nat
  piece : Nat
  step8 : Nat
deriving DecidableEq, Repr

/-- An entry of a combining store (R330): one piece's sums and residues. -/
structure StoreEntry where
  key : RedKey
  seq : Nat
  /-- header of its first input -/
  hdr : List Byte
  /-- element codes (FP32, or the first input's format while it has one input) and residues -/
  elems : List (Nat × Nat)
  inputs : Nat
  cnt : Nat
  /-- INNER_DL in force when it was taken (R349) -/
  inner : Nat
deriving DecidableEq, Repr

/-- What one brim keeps for the reduction. -/
structure BrimRed where
  store : List StoreEntry := []
  /-- positions of each channel forwarded or landed in this step; H is the lowest other (R332) -/
  passed : List (Nat × List Nat) := []
  /-- the last 256 timed-out keys, newest first (R335) -/
  timed : List RedKey := []
deriving DecidableEq, Repr

/-- One piece of a chunk at its owner. -/
structure LandPiece where
  elems : List (Nat × Nat)
  inputs : Nat
  cnt : Nat
deriving DecidableEq, Repr

/-- A guarded copy at the owner (R338): GID, whether it is the primary's, and the pieces that have arrived. -/
structure GuardCopy where
  gid : Nat
  primary : Bool
  pieces : List (Nat × List (Nat × Nat))
deriving DecidableEq, Repr

/-- A chunk at its owner. -/
structure LandChunk where
  bchunk : Nat
  entry : Nat
  echunk : Nat
  pieces : List (Nat × LandPiece) := []
  copies : List GuardCopy := []
  /-- GIDs of which a copy has been taken -/
  taken : List Nat := []
  landed : Bool := false
  /-- pieces of it were discarded before the package's restore completed, so it lands with cnt 0 (R346) -/
  voided : Bool := false
deriving DecidableEq, Repr

/-- A landing window (R338): a bucket of the step, its group and the deadline in force. -/
structure Window where
  bucket : Nat
  step8 : Nat
  dl : Nat
  closed : Bool := false
  chunks : List LandChunk := []
deriving DecidableEq, Repr

/-- A delivery at a replica (R341): the sweep's T, pieces counted, and whether they come as RESEND. -/
structure DeliverySt where
  entry : Nat
  step : Nat
  count : Nat
  resent : Bool
  complete : Bool
deriving DecidableEq, Repr

/-- One piece of a mirror in a slot: entry, region, offset, length, and the device-physical address at which it lies. -/
structure MirrorPiece where
  entry : Nat
  region : Nat
  offset : Nat
  len : Nat
  place : Nat
deriving DecidableEq, Repr

/-- What this package holds as a mirror target, and what it has sent as an owner (R343, R344). -/
structure MirrorSt where
  /-- the two slots reserved in the deep tier for the package that mirrors here, and the size the image gives each; nothing is
  reserved before an image is shaped -/
  base0 : Nat := 0
  base1 : Nat := 0
  size : Nat := 0
  /-- what the slots hold, by piece -/
  slot0 : List MirrorPiece := []
  slot1 : List MirrorPiece := []
  /-- the committed slot and its STEP -/
  committed : Option (Nat × Nat) := none
  /-- pieces received since the last commit -/
  received : Nat := 0
  /-- own mirrors sent and not yet answered, oldest first, by STEP -/
  sending : List Nat := []
deriving DecidableEq, Repr

/-! ### The update units (09) -/

/-- A chunk that a sweep lane has taken and not yet committed: what it stores. -/
structure ChunkRun where
  /-- the sweep lane that took it (R262) -/
  lane : Nat
  entry : Nat
  chunk : Nat
  stores : List (Nat × List DataByte)
  /-- 2,048-element pieces of the master in which an element changes (R340) -/
  changed : List Nat
deriving DecidableEq, Repr

/-- What the current sweep keeps for one plan entry. -/
structure EntrySt where
  /-- contribution counts plus 1 of the chunks that have landed (R266) -/
  landed : List (Nat × Nat) := []
  /-- sums of the measuring pre-pass, by chunk: sw and sr as FP32 codes (R269) -/
  measured : List (Nat × Nat × Nat) := []
  /-- the entry's pre-pass is complete -/
  prepared : Bool := false
  /-- rbar of the statistics pre-pass (R270), and RATIO of the measuring one (R269), as FP32 codes -/
  rbar : Nat := 0
  ratio : Nat := 0
  /-- chunks counted as passed over -/
  passed : List Nat := []
  /-- T of the sweep (R260), or STEP of a replica's delivery -/
  sweepT : Nat := 0
  /-- a replica's delivery for this step is complete, and one for the next step already -/
  arrived : Bool := false
  early : Bool := false
  taken : List Nat := []
  committed : List Nat := []
  changed : List Nat := []
  /-- c1, c2 and lr of R260 as FP32 codes -/
  c1 : Nat := 0
  c2 : Nat := 0
  lr : Nat := 0
  /-- copies: not begun, being written, written -/
  copying : Bool := false
  complete : Bool := false
  /-- digest of the last sweep, and whether it is valid (R277, R278) -/
  digest : Nat := 0
  digestValid : Bool := true
  /-- the owner's first delivery since shaping has been sent (R340) -/
  delivered : Bool := false
  /-- replicas whose next delivery sends the whole master (R278) -/
  diverged : List Nat := []
  /-- this pass regenerates copies only (R280) -/
  regen : Bool := false
  /-- the step whose number drew the copies of its last sweep; none where that is the last sweep's of the tower (R276) -/
  drawn : Option Nat := none
deriving DecidableEq, Repr

/-- One update unit beside its registers. -/
structure UpdSt where
  /-- the counter bank (R279): overflow, vanish and invalid as `bankAdd` keeps them, and TOT by format × 8 + class -/
  counts : List (Nat × Nat) := []
  totals : List (Nat × Nat) := []
  runs : List ChunkRun := []
  /-- SWEEP_AT has been signalled in this step -/
  sweeping : Bool := false
deriving DecidableEq, Repr

/-! ### The whole -/

/-- The fabric and what depends on it. -/
structure FabricSt where
  links : List (Nat × LinkSt) := []
  /-- injection ports, by brim -/
  inject : List (Nat × List InjPkt) := []
  /-- packets ejected to this package and not yet acted on, with the brim they left the switch at -/
  ejected : List (Nat × Pkt) := []
  /-- failure notices held (R304), and those that have arrived and are not yet entered, with the link (14 is the package
  itself) -/
  notices : List (List Byte) := []
  noticeIn : List (Nat × List Byte) := []
  requests : List FabricReq := []
  brims : List (Nat × BrimRed) := []
  windows : List Window := []
  deliveries : List DeliverySt := []
  mirror : MirrorSt := {}
  /-- buckets already injected in the running step -/
  injected : List Nat := []
  /-- reduction group entries, bucket descriptors and plan entries of the shaped image, as its records hold them -/
  groups : List (List Byte) := []
  buckets : List (List Byte) := []
  plan : List (List Byte) := []
  /-- what those records point to, read as the image was shaped, by record: guard lists (primary and backup), shard maps and copy
  descriptors (R313, R315, R273) -/
  guards : List (List (Nat × Nat)) := []
  shardMaps : List (List Shard) := []
  copies : List (List CopyDesc) := []
  /-- failed packages that found HB_FAIL_0 to HB_FAIL_31 full (R307) -/
  overflowed : List Nat := []
  /-- the spare index that a takeover names for such a failure (R298, R306) -/
  overSpared : List (Nat × Nat) := []
  /-- physical coordinate this package has taken over, with its logical coordinate (R306) -/
  takenOver : Option Nat := none
  /-- the part of the coordinate taken over has been applied (R368) -/
  partApplied : Bool := false
  /-- what a spare has restored so far: entry, region and offset (R347), and the highest STEP delivered to it since -/
  restored : List (Nat × Nat × Nat) := []
  restoreT : Nat := 0
deriving DecidableEq, Repr

end Sys2Proof.Machine
end

