-- ==== Sys2Proof/Machine/PowerTypes.lean ====
section
/-! DEFINITION. The parts of the state that belong to power, droop and thermal control (13), and exact fractions: the
formulas of that chapter are over real quantities whose stored precision the manual does not give. -/

namespace Sys2Proof.Machine

/-- A fraction in lowest terms. -/
structure Frac where
  num : Int := 0
  den : Nat := 1
deriving DecidableEq, Repr

/-- n ÷ d in lowest terms; a zero denominator gives zero (the callers say what stands there).
[DESIGN CHOICE: log entry 19] -/
def Frac.make (n : Int) (d : Nat) : Frac :=
  let g := Nat.gcd n.natAbs d
  if d = 0 then {} else ⟨n / (g : Int), d / g⟩

def Frac.ofInt (n : Int) : Frac := ⟨n, 1⟩
def Frac.ofNat (n : Nat) : Frac := ⟨n, 1⟩
def Frac.add (a b : Frac) : Frac := Frac.make (a.num * b.den + b.num * a.den) (a.den * b.den)
def Frac.neg (a : Frac) : Frac := ⟨-a.num, a.den⟩
def Frac.sub (a b : Frac) : Frac := a.add b.neg
def Frac.mul (a b : Frac) : Frac := Frac.make (a.num * b.num) (a.den * b.den)
def Frac.sq (a : Frac) : Frac := a.mul a
/-- a ÷ b for b other than zero. -/
def Frac.div (a b : Frac) : Frac := Frac.make (a.num * b.den * b.num.sign) (a.den * b.num.natAbs)
def Frac.isZero (a : Frac) : Bool := a.num == 0
def Frac.lt (a b : Frac) : Bool := decide (a.num * b.den < b.num * a.den)
def Frac.le (a b : Frac) : Bool := decide (a.num * b.den ≤ b.num * a.den)
def Frac.max (a b : Frac) : Frac := if a.lt b then b else a
def Frac.min (a b : Frac) : Frac := if b.lt a then b else a
/-- A value kept within two bounds: `v.clamp lo hi`. -/
def Frac.clamp (v lo hi : Frac) : Frac := if v.lt lo then lo else if hi.lt v then hi else v
def Frac.sum (l : List Frac) : Frac := l.foldl Frac.add {}
/-- The mean of the first `n` of a list; samples that are missing draw nothing. -/
def Frac.mean (n : Nat) (l : List Frac) : Frac := (Frac.sum (l.take n)).mul (Frac.make 1 n)
/-- Largest whole number not above. -/
def Frac.floor (a : Frac) : Int := a.num / (a.den : Int)

/-- What is kept of one 2 µs sample: each domain's estimate, each crown's dynamic power normalised to OP5 and full duty
(R395), and each die's estimate by 8 × tower + position, all in watts. -/
structure PowerSample where
  est : List Frac
  dyn : List Frac
  die : List Frac
deriving DecidableEq, Repr

/-- A change of one operating point under way (R386): the point it leads to, its direction, whether the clock or the
voltage is moving, and whether the AVSBus write has been repeated (R387). -/
structure OpChange where
  goal : Nat
  up : Bool
  clock : Bool
  repeated : Bool := false
deriving DecidableEq, Repr

/-- What the controller keeps for one crown. -/
structure CrownPower where
  /-- the operating point and duty that the allocator chose -/
  op : Nat := 0
  duty : Nat := 64
  change : Option OpChange := none
  /-- thermal ceilings (R412): 7 and 64 while there is no throttling -/
  thermOp : Nat := 7
  thermDuty : Nat := 64
  /-- allocator ticks left in which no upward change starts (R387), and since the rail was last stepped down (R406) -/
  avsHold : Nat := 0
  dipHold : Nat := 0
  /-- the fast limiter of R404 acts, for the rail's peak, for its sustained current (R393), or for the package -/
  limited : Bool := false
  sustained : Bool := false
  pkgLimited : Bool := false
  /-- the last current sample, in amperes -/
  amps : Nat := 0
  /-- the current samples of the last 10 ms, newest first, at most 5,000 (R393) -/
  history : List Nat := []
  /-- sense integral since the last calibration: sample count, the sum of amperes, and of amperes × commanded millivolts; and the
  READ_VOUT of that millisecond (R390) -/
  senseN : Nat := 0
  senseAmps : Nat := 0
  senseSum : Nat := 0
  vout : Option Nat := none
  /-- sums for the trim of the sense gain over 64 ms: samples, amperes, readings made (one a millisecond), those that succeeded, and
  the milliamperes they read -/
  trimN : Nat := 0
  trimAmps : Nat := 0
  readN : Nat := 0
  readOk : Nat := 0
  readMa : Nat := 0
  senseGain : Frac := ⟨1, 1⟩
deriving DecidableEq, Repr

/-- A power phase record (R394). -/
structure PhaseRec where
  marker : Nat
  boost : Bool
  maxOp : Nat
  shares : List Nat
deriving DecidableEq, Repr

/-- The current instance of a phase: samples and sums, crowns normalised (R395). -/
structure PhaseRun where
  phase : Nat
  samples : Nat
  sums : List Frac
deriving DecidableEq, Repr

/-- The learned power of a phase by domain, and how many instances gave it. -/
structure Learned where
  power : List Frac := []
  count : Nat := 0
deriving DecidableEq, Repr

/-- A temperature sensor: its last sample in units of 0.0625 °C, and whether it is valid (R408). -/
structure Sensor where
  last : Option Int := none
  valid : Bool := true
deriving DecidableEq, Repr

/-- A layer: measured temperature in units of 0.0625 °C, inferred and effective temperatures in °C (R408 to R411). -/
structure Layer where
  sensors : List (Nat × Sensor) := []
  tm : Option Int := none
  ti : Option Frac := none
  te : Option Frac := none
  /-- the sensor-fault event of the present loss, and the alert of a brim, have been recorded -/
  faulted : Bool := false
  alerted : Bool := false
  /-- samples in a row with Tm and Ti more than 8 °C apart, and within it -/
  apart : Nat := 0
  agreed : Nat := 0
  /-- a disagreement event was recorded and 1 s of agreement has not followed -/
  reported : Bool := false
deriving DecidableEq, Repr

/-- The coolant loop (R415, R416): x and its history, the integral, the demand, and how many 100 ms steps each alarm
condition has held or been absent. -/
structure Coolant where
  x : Frac := {}
  history : List Frac := []
  integ : Frac := {}
  dem : Frac := ⟨100, 1⟩
  /-- steps with a demand of at least DMIN and no TACH pulse -/
  silent : Nat := 0
  held : List (Nat × Nat) := []
  absent : List (Nat × Nat) := []
  standing : List CoolAlarm := []
  /-- ALARM_CAP as the last 100 ms step took it (R417) -/
  alarmCap : Nat := 1800
deriving DecidableEq, Repr

/-- Power and thermal control beside its registers. -/
structure PowerSt where
  /-- the activity counters of the last sample (R389) -/
  activity : List Activity := []
  /-- 2 µs samples, newest first, at most 5,000 (10 ms) -/
  samples : List PowerSample := []
  /-- package power the allocator predicted, by tick, newest first, at most 200 (10 ms) -/
  plans : List Frac := []
  trim : Frac := {}
  crowns : List (Nat × CrownPower) := []
  phases : List PhaseRec := []
  current : Option Nat := none
  run : Option PhaseRun := none
  learned : List (Nat × Learned) := []
  /-- calibration gains by domain (R390) -/
  gains : List (Nat × Frac) := []
  /-- successive good calibrations, and successive ones out of range, by domain (R391) -/
  good : List (Nat × Nat) := []
  bad : List (Nat × Nat) := []
  /-- readings of rails 4 to 9 in the present 4 ms window: rail, millivolts and milliamperes -/
  readings : List (Nat × Nat × Nat) := []
  failedReads : List Nat := []
  /-- successive failed readings, by rail -/
  misses : List (Nat × Nat) := []
  /-- rails below their warning level (R405, R406) -/
  below : List Nat := []
  /-- the clocks of every crown are stopped: by the trip (R413), or by power fail (R475) -/
  stopped : Bool := false
  /-- THERMTRIP_N is asserted, which it stays until VAON is removed (R413) -/
  trip : Bool := false
  layers : List (Nat × Layer) := []
  coolant : Coolant := {}
deriving DecidableEq, Repr

end Sys2Proof.Machine
end

