-- ==== Sys2Proof/Machine/State.lean ====
section
/-! DEFINITION. The state of the package as plain data, the reasons a step can stop, and the state after reset. -/

namespace Sys2Proof.Machine

/-- The reasons a step can fault. No meaning raises one: the manual names no command whose effect it calls undefined,
and every condition it describes (ADDR_FAULT, PATH_LOST, poison) is a status the commands carry on with. -/
inductive Fault where
  /-- raised by no meaning; safe -/
  | none
deriving DecidableEq, Repr

/-- The reasons a step can be refused. -/
inductive Refusal where
  /-- the row has no meaning yet; raised by its arm of `exec` alone; safe -/
  | notModelled (mnemonic : String)
deriving DecidableEq, Repr

/-- What the package emits, in order (the outside world's view of it). -/
inductive Out where
  /-- a read completion to a host: port, tag, the data (none is a poisoned byte, EP set), and the PCIe status:
  0 successful, 1 Unsupported Request, 2 Completer Abort, 3 Request Retry Status -/
  | completion (port tag : Nat) (data : List DataByte) (status : Nat)
  /-- a posted write into host memory -/
  | hostWrite (port addr : Nat) (data : List DataByte)
  /-- an MSI-X vector -/
  | msix (port vector : Nat)
  /-- a silt frame sent from the die at a tower's position -/
  | silt (t p : Nat) (dir : SiltDir) (frame : List Byte)
  /-- a pin driven to a level -/
  | pin (name : String) (level : Bool)
  /-- every output is high-impedance: VAON is below its operating range (R503) -/
  | outputsOff
  /-- an MCTP message, as the payloads of its packets: on SMBus (path 0) or a port (1, 2) -/
  | mctp (path : Nat) (packets : List (List Byte))
  /-- what the JTAG port shifts out -/
  | jtag (data : List Byte)
  /-- a frame sent on a fabric link (R284) -/
  | frame (link : Nat) (bytes : List Byte)
  /-- the package's capability block, sent in training frames of a link (R295) -/
  | training (link : Nat) (block : Capability)
  /-- an AVSBus Voltage write: rail select and millivolts (R387) -/
  | avsVoltage (rail mv : Nat)
deriving DecidableEq, Repr

/-- The state. -/
structure State where
  /-- BAR0 register fields, by offset × 64 + low bit (port B's copies above `portBCopy`); an unlisted field holds its
  Reset value -/
  flds : List (Nat × Nat) := []
  /-- lower halves written and not yet taken (R11), by register offset -/
  latch : List (Nat × Nat) := []
  /-- every byte of storage (R223, R226); see `placeOf` for the keys -/
  mem : List Host.Cell := []
  /-- poisoned 128-bit words, by key ÷ 16 (R236) -/
  poison : List (Nat × Bool) := []
  /-- bits of words that have changed and that no read has met: for the reads that no operand of a command speaks for (R234, R237) -/
  upsets : List EccHit := []
  /-- the directory of managed pages, by deep-tier page number (R242) -/
  pages : List (Nat × Page) := []
  /-- the towers: sleep, through domains, dies in reset (R18 to R32, R485) -/
  towers : List (Nat × TowerSt) := []
  /-- the package is in standby (R484); the request, RST_LP.STANDBY, outlives a warm reset that ends it (R481) -/
  standby : Bool := false
  /-- silt frames sent and not yet acknowledged (R36) -/
  silt : List (Nat × SiltSender) := []
  /-- payloads that silt frames delivered to a die: register writes, bulk data, log records, read responses -/
  siltTaken : List (Nat × List Byte) := []
  /-- bridges failed beyond their spare lanes: 0 T0–T1, 1 T2–T3, 2 T0–T2, 3 T1–T3 (R39) -/
  bridgesFailed : List Nat := []
  /-- requests that dies in reset and sleeping towers hold, oldest first (R22, R23, R25, R425) -/
  held : List HeldReq := []
  /-- the tier managers: page moves, spared rows and lanes, refresh, scrubbing (R241 to R255) -/
  tiers : List (Nat × TierSt) := []
  /-- the last telemetry snapshot is held in brim 0's SRAM (R485) -/
  telemetryInBrim : Bool := false
  /-- telemetry snapshots taken (R248) -/
  telemetry : Nat := 0
  /-- the event recorder: its clock, ring, waiting records, rate limits and MRAM areas (R468 to R479, R510) -/
  recorder : Recorder := {}
  /-- the two host ports: power state, queues, DMA channels (R419, R426 to R434) -/
  hosts : List (Nat × HostPort) := []
  /-- the cores: threads, arrays, vector engine, flex scheduler, counter banks (03 to 07, R358) -/
  cores : List (Nat × CoreSt) := []
  /-- the crowns' slot coordinators and counter banks (R103 to R109, R194) -/
  crowns : List (Nat × CrownSt) := []
  /-- the level of LSTEP_N: asserted (low) while true (R402) -/
  lstep : Bool := false
  /-- the JTAG port drives TDO, which is high-impedance after a power-on reset (R503) -/
  tdo : Bool := false
  /-- sync objects (R369) -/
  sync : List (Nat × Nat) := []
  /-- unit descriptors of the shaped image (R351, R360) -/
  units : List UnitDesc := []
  /-- urgent unit descriptors of the image (R376) -/
  urgents : List UrgentDesc := []
  /-- barriers of the image (R373) -/
  barriers : List Barrier := []
  /-- initial values of sync objects of the image (R350, R369) -/
  syncInit : List (Nat × Nat) := []
  /-- managed regions of the image (R243) -/
  regions : List Region := []
  /-- the role of each core (R352) -/
  roles : List (Nat × Nat) := []
  /-- where the shaped image lies (R350) -/
  imageBase : Nat := 0
  /-- step commands waiting (R429, R430) -/
  stepQueue : List StepCmd := []
  /-- the step that runs (R362) -/
  step : Option StepRun := none
  /-- urgent commands that run (R377) -/
  urgentRuns : List UrgentRun := []
  /-- urgent commands that are held, first in, first out (R378) -/
  urgentHeld : List UrgentCmd := []
  /-- barrier generations with arrivals (R374) -/
  barrierGens : List BarrierGen := []
  /-- remote adds sent and not yet acknowledged (R372) -/
  remoteAdds : List RemoteAdd := []
  /-- remote adds already applied: source coordinate and operation number (R372) -/
  remoteSeen : List (Nat × Nat) := []
  /-- the fabric: links, queues, adders, landing windows, deliveries, mirrors, failures (10, 11) -/
  fabric : FabricSt := {}
  /-- the update units (R260, R279) -/
  upd : List (Nat × UpdSt) := []
  /-- power, temperatures and the coolant loop (13) -/
  power : PowerSt := {}
  /-- firmware, the fuses, updates and attestation (15) -/
  boot : BootSt := {}
  /-- reference clocks that have stopped: the SerDes reference of brim b as b, the PCIe reference of port p as 4 + p (R501) -/
  refLost : List Nat := []
  /-- plan entries in the current sweep, by index -/
  entries : List (Nat × EntrySt) := []
  /-- the port whose step command entered the step queue last (R430) -/
  lastStepPort : Nat := 1
  /-- MODEL: how often the heartbeat timeout of the control token has started (R435) -/
  tokenTimer : Nat := 0
  /-- next operation number or tag -/
  nextOp : Nat := 0
  /-- MODEL: what the package has emitted, oldest first -/
  outbox : List Out := []
  /-- completions, event entries and interrupts a port in D3hot holds back (R419), with the port -/
  heldOut : List (Nat × Out) := []
  /-- MODEL: how many free values have been drawn -/
  fresh : Nat := 0
  /-- commands waiting, first in, first out -/
  pending : List Instr := []
deriving DecidableEq, Repr

/-- The state right after a power-on reset, before the boot that POWER_ON_RESET runs: every register field at its
Reset value, storage as manufacture left it, nothing queued. [DESIGN CHOICE: log entries 3 and 4 and 5 and 6] -/
def State.reset : State := {}

end Sys2Proof.Machine
end

