-- ==== Sys2Proof/Machine/Paths.lean ====
section
/-! DEFINITION. The paths inside the package: where originators sit (R225, R469, R514), the through domains that a
transfer crosses (R18), the relays of traffic between towers (R38, R39), and which paths are lost (R28, R30). -/

namespace Sys2Proof.Machine

def State.tower (s : State) (t : Nat) : TowerSt := Sparse.get {} s.towers t
def State.setTower (s : State) (t : Nat) (x : TowerSt) : State := { s with towers := Sparse.put {} s.towers t x }

/-- The crown and the local index of a core (R79). -/
def crownOf (c : Nat) : Nat := c / 144
def localOf (c : Nat) : Nat := c % 144

/-! ### Originators -/

/-- The tower of an originator (R225). -/
def origTower : Orig → Nat
  | .core n => crownOf n
  | .port p | .dma p _ => 2 * p.val
  | .tier t | .update t | .router t => t.val
  | .mgmt => 0

/-- The originator values of R469. -/
def origCode : Orig → Nat
  | .core n => n.val
  | .port p => 0x0400 + p.val
  | .dma p c => 0x0480 + 8 * p.val + c.val
  | .tier t => 0x0500 + t.val
  | .update t => 0x0600 + t.val
  | .router b => 0x0700 + b.val
  | .mgmt => 0x0800

/-- Originators by number. -/
def coreOrig (c : Nat) : Orig := .core (Fin.ofNat 576 c)
def routerOrig (b : Nat) : Orig := .router (Fin.ofNat 4 b)
def updateOrig (t : Nat) : Orig := .update (Fin.ofNat 4 t)
def tierOrig (t : Nat) : Orig := .tier (Fin.ofNat 4 t)

/-- Does the originator sit in the brim? (R514) -/
def origInBrim : Orig → Bool
  | .port _ | .dma .. | .router _ | .mgmt => true
  | _ => false

/-- Does the originator sit in the crown? -/
def origInCrown : Orig → Bool
  | .core _ => true
  | _ => false

/-! ### Relays between towers -/

/-- The bridge between two adjacent towers. -/
def bridgeBetween (a b : Nat) : Nat :=
  match min a b, max a b with
  | 0, 1 => 0
  | 2, 3 => 1
  | 0, 2 => 2
  | _, _ => 3

def State.bridgeOk (s : State) (a b : Nat) : Bool := !s.bridgesFailed.contains (bridgeBetween a b)

/-- The towers whose brims a transfer between two different towers crosses, ends included: directly, the other way
round the ring when the bridge has failed, or by the relay that bit 21 selects (R38, R39). The manual speaks only of the
traffic between the two towers that a failed bridge joined. Two points are the model's: diagonal traffic whose selected relay
needs a failed bridge takes the other relay; and with two or more bridges failed, traffic sent the other way round (or to the
other relay) goes on over whatever bridges that way has. [DESIGN CHOICE: log entry 20] -/
def State.route (s : State) (src dst bit21 : Nat) : List Nat :=
  let d := src ^^^ dst
  if d = 3 then
    let byRow := src ^^^ 1
    let byCol := src ^^^ 2
    let first := if bit21 = 0 then byRow else byCol
    let other := if bit21 = 0 then byCol else byRow
    if s.bridgeOk src first && s.bridgeOk first dst then [src, first, dst] else [src, other, dst]
  else if s.bridgeOk src dst then [src, dst]
  else [src, src ^^^ (3 - d), dst ^^^ (3 - d), dst]

/-! ### The through domains of a path -/

/-- The die of a tower at which a transfer ends. -/
inductive PathEnd where
  | brim | cacheDie | crown
  /-- H1 is 0 -/
  | horizon (h : Nat)
deriving DecidableEq, Repr

/-- The five horizons between a tower's brim and its cache die. -/
def stackDomains (t : Nat) : List (Nat × Nat) := [1, 2, 3, 4, 5].map (t, ·)

/-- The domains between a tower's cache die and the die at which a transfer ends: the horizons above a horizon, or the cache
die's own relay to the crown. -/
def PathEnd.inner (t : Nat) : PathEnd → List (Nat × Nat)
  | .horizon h => (List.range h).map fun k => (t, 5 - k)
  | .crown => [(t, 6)]
  | _ => []

/-- The domains from a tower's brim to the die at which a transfer ends. -/
def PathEnd.fromBrim (t : Nat) (e : PathEnd) : List (Nat × Nat) :=
  if e = .brim then [] else stackDomains t ++ e.inner t

/-- The domains from an originator down to its own brim. -/
def origDown (o : Orig) : List (Nat × Nat) :=
  if origInBrim o then []
  else (if origInCrown o then [(origTower o, 6)] else []) ++ stackDomains (origTower o)

/-- The through domains (tower, position code) that a transfer from an originator to a die of a tower crosses (R18). Traffic
that carries no device-physical address has `bit21` 0 (R38). -/
def State.pathTo (s : State) (o : Orig) (dst : Nat) (e : PathEnd) (bit21 : Nat) : List (Nat × Nat) :=
  let src := origTower o
  if src = dst then
    if origInBrim o then e.fromBrim dst
    else match e with
      | .brim => origDown o
      | .crown => []
      | e => e.inner dst
  else origDown o ++ (s.route src dst bit21).map (·, 0) ++ e.fromBrim dst

/-- Is a domain lost? -/
def State.domainLost (s : State) (d : Nat × Nat) : Bool := (s.tower d.1).lost.contains d.2

/-- Is the path from an originator to a crown lost, for traffic that carries no address: sync operations (R30, R38)? -/
def State.crownPathLost (s : State) (o : Orig) (n : Nat) : Bool := (s.pathTo o n .crown 0).any s.domainLost

/-- Is an originator cut off from its own brim, and so from the fabric (R30)? -/
def State.cutOff (s : State) (o : Orig) : Bool := (origDown o).any s.domainLost

/-! ### Registers -/

/-- The tower and the die in which a register lies: a crown window in its crown, a TIER_ or UPD_ block in its cache die.
Every other block is taken to lie in the brim of whoever accesses it. [DEDUCED: log entry 20] -/
def regDie (off : Nat) : Option (Nat × PathEnd) :=
  if 0x1000000 ≤ off ∧ off < 0x2000000 then some ((off - 0x1000000) / 0x400000, .crown)
  else if 0x100000 ≤ off ∧ off < 0x104000 then some ((off - 0x100000) / 0x1000, .cacheDie)
  else if 0x400000 ≤ off ∧ off < 0x404000 then some ((off - 0x400000) / 0x1000, .cacheDie)
  else none

/-- The through domains that an access to a register crosses. [DEDUCED: log entry 20] -/
def State.regPath (s : State) (o : Orig) (off : Nat) : List (Nat × Nat) :=
  match regDie off with
  | some (t, e) => s.pathTo o t e 0
  | none => origDown o

/-- Is the path to a register lost (R30)? [DEDUCED: log entry 20] -/
def State.regPathLost (s : State) (o : Orig) (off : Nat) : Bool := (s.regPath o off).any s.domainLost

end Sys2Proof.Machine
end

