-- ==== Sys2Proof/Machine/Ops.lean ====
section
/-! DEFINITION. The named operations every meaning is built from: register fields and register accesses (R7 to R11,
R509), what the package emits, the event recorder's admission (R467 to R474), event queues (R433, R434), free values. -/

namespace Sys2Proof.Machine

abbrev Result := Host.Outcome State Fault Refusal

/-! ### Register fields -/

/-- The stored value of a register field. [DESIGN CHOICE: log entry 2] -/
def State.rd (s : State) (f : Fld) : Nat := Sparse.get f.reset s.flds f.key

/-- Store a value in a register field, cut to the field's width. [DESIGN CHOICE: log entry 2] -/
def State.wr (s : State) (f : Fld) (v : Nat) : State :=
  { s with flds := Sparse.put f.reset s.flds f.key (v % 2 ^ f.width) }

def State.rdB (s : State) (f : Fld) : Bool := s.rd f != 0
def State.setB (s : State) (f : Fld) : State := s.wr f 1
def State.clrB (s : State) (f : Fld) : State := s.wr f 0
def State.wrB (s : State) (f : Fld) (b : Bool) : State := s.wr f b.toNat

/-- Add to a counter that wraps at its width. -/
def State.incWrap (s : State) (f : Fld) (n : Nat := 1) : State := s.wr f (s.rd f + n)
/-- Add to a counter that stops at its top. -/
def State.incStop (s : State) (f : Fld) (n : Nat := 1) : State := s.wr f (satAdd f.width (s.rd f) n)

/-! ### Parts of the state by index -/

def State.tier (s : State) (t : Nat) : TierSt := Sparse.get {} s.tiers t
def State.setTier (s : State) (t : Nat) (x : TierSt) : State := { s with tiers := Sparse.put {} s.tiers t x }
def State.host (s : State) (p : Nat) : HostPort := Sparse.get {} s.hosts p
def State.setHost (s : State) (p : Nat) (x : HostPort) : State := { s with hosts := Sparse.put {} s.hosts p x }
def State.core (s : State) (c : Nat) : CoreSt := Sparse.get {} s.cores c
def State.setCore (s : State) (c : Nat) (x : CoreSt) : State := { s with cores := Sparse.put {} s.cores c x }
def State.crown (s : State) (n : Nat) : CrownSt := Sparse.get {} s.crowns n
def State.setCrown (s : State) (n : Nat) (x : CrownSt) : State := { s with crowns := Sparse.put {} s.crowns n x }
def State.arr (s : State) (c : Nat) (a : Arr) : ArraySt := (s.core c).arr a
def State.setArr (s : State) (c : Nat) (a : Arr) (x : ArraySt) : State := s.setCore c ((s.core c).setArr a x)
def State.thr (s : State) (c : Nat) (t : Thr) : ThreadSt := (s.core c).thr t
def State.setThr (s : State) (c : Nat) (t : Thr) (x : ThreadSt) : State := s.setCore c ((s.core c).setThr t x)
def State.modRec (s : State) (f : Recorder → Recorder) : State := { s with recorder := f s.recorder }

def HostPort.queue (h : HostPort) (q : Nat) : QueueSt := Sparse.get {} h.queues q
def HostPort.setQueue (h : HostPort) (q : Nat) (x : QueueSt) : HostPort := { h with queues := Sparse.put {} h.queues q x }

/-- Is a rail that the cache die (VCORE t, VSRAM) or the horizons (VDDM, VPPM) of a tower use missing (R495, R498)? -/
def State.cacheUnpowered (s : State) (t : Nat) : Bool := s.boot.missing.any fun r => r == t || r == 4
def State.horizonsUnpowered (s : State) : Bool := s.boot.missing.any fun r => r == 5 || r == 6

/-- The flex cores of R80. -/
def isFlex (c : Nat) : Bool :=
  let f (x : Nat) := x == 1 || x == 4 || x == 7 || x == 10
  f (localOf c / 12) && f (localOf c % 12)

/-! ### Free values and what the package emits -/

/-- A fresh free 64-bit value, and the state that has drawn it. [DESIGN CHOICE: log entries 6 and 12] -/
def State.drawWord (s : State) : Nat × State := ((Config.freeValue s.fresh).toNat, { s with fresh := s.fresh + 1 })

/-- `n` fresh free bytes. [DESIGN CHOICE: log entry 12] -/
def State.drawBytes (s : State) (n : Nat) : List Byte × State :=
  (padBytes n (Config.freeBytes s.fresh), { s with fresh := s.fresh + 1 })

/-- What leaves the package joins the outbox. [DESIGN CHOICE: log entry 30] -/
def State.emit (s : State) (o : Out) : State := { s with outbox := s.outbox ++ [o] }

/-- Emit toward a host: a port in D3hot holds its entries and interrupts back (R419). [DESIGN CHOICE: log entry 30] -/
def State.emitHost (s : State) (p : Nat) (o : Out) : State :=
  if (s.host p).d3hot then { s with heldOut := s.heldOut ++ [(p, o)] } else s.emit o

/-- Is a vector masked in the MSI-X table: bit 0 of its Vector Control, which is 1 after a reset? [PRESUMED: log entry 30] -/
def HostPort.vectorMasked (h : HostPort) (v : Nat) : Bool := bit (Sparse.get 1 h.msixTable (4 * v + 3)) 0

/-- A vector is sent (R433): where MSI-X is on. While it is masked it is pending, and the PBA shows it. [PRESUMED: log entry 30] -/
def State.sendVector (s : State) (p v : Nat) : State :=
  let h := s.host p
  if !h.msixOn then s
  else if h.msixMasked || h.vectorMasked v then s.setHost p { h with msixPending := Sparse.put false h.msixPending v true }
  else s.emitHost p (.msix p v)

/-- Pending vectors that nothing masks any longer are sent. [PRESUMED: log entry 30] -/
def State.sendPending (s : State) (p : Nat) : State :=
  let h := s.host p
  if !h.msixOn || h.msixMasked then s
  else
    let due := h.msixPending.filter fun e => !h.vectorMasked e.1
    due.foldl (fun s e => s.emitHost p (.msix p e.1)) (s.setHost p { h with
      msixPending := h.msixPending.filter fun e => h.vectorMasked e.1 })

/-! ### Event queues (R433, R434) -/

/-- Write one entry, bytes 0 to 14 given, to an enabled event queue. [DESIGN CHOICE: log entry 30] -/
def State.eqPost (s : State) (p e : Nat) (body : List Byte) : State :=
  let h := s.host p
  let q := Sparse.get {} h.events e
  let size := 2 ^ s.rd (Reg.HQ_EQ_CFG_LOG2SZ p e)
  if q.used ≥ size then
    (s.setHost p { h with events := Sparse.put {} h.events e { q with lost := true } }).setB (Reg.HQ_ERR_EQ_OVF p)
  else
    let ctl := q.phase.toNat + 2 * q.lost.toNat
    let addr := s.rd (Reg.HQ_EQ_BASE_ADDR p e) * 4096 + q.tail * 16
    let wrap := q.tail + 1 ≥ size
    let q' : EventQueue := { q with
      tail := if wrap then 0 else q.tail + 1
      used := q.used + 1
      phase := if wrap then !q.phase else q.phase
      lost := false }
    let s := s.setHost p { h with events := Sparse.put {} h.events e q' }
    let s := s.emitHost p (.hostWrite p addr ((padBytes 15 body ++ [BitVec.ofNat 8 ctl]).map some))
    if s.rdB (Reg.HQ_EQ_CFG_IEN p e) then s.sendVector p (1024 + e) else s

/-- Write an entry to every enabled event queue of both ports that a test selects. -/
def State.eqBroadcast (s : State) (sel : State → Nat → Nat → Bool) (body : List Byte) : State :=
  [0, 1].foldl (fun s p =>
    ((s.host p).events.map (·.1)).foldl (fun s e =>
      if s.rdB (Reg.HQ_EQ_CFG_EN p e) && sel s p e then s.eqPost p e body else s) s) s

/-! ### The event recorder -/

/-- Is the event never suppressed? (R471) -/
def exemptEvent (code sev : Nat) : Bool := sev == 4 || decide (code ≤ 0x000E)

/-- The RESERVE in force: the higher of the two headers (R474). -/
def State.reserve (s : State) : Nat := max s.recorder.areaA.reserve s.recorder.areaB.reserve

/-- Give an event the next sequence number and enter its record (R467, R468, R473, R434). [DEDUCED: log entry 24] -/
def State.admitNow (s : State) (w : WaitingEvent) : State :=
  let seq := s.rd Reg.EVR_STATUS_NEXT_SEQ
  let r : Record := { seq, powered := s.rd Reg.EVR_LIFE_POWERED, sev := w.sev, cycles := s.rd Reg.EVR_LIFE_CYCLES,
                      source := w.source, code := w.code, payload := w.payload }
  let s := s.modRec fun k => { k with
    ring := Sparse.put none k.ring (seq % 65536) (some r)
    unflushed := k.unflushed ++ [seq]
    lastSeq := Sparse.put 0 k.lastSeq w.code seq }
  let s := s.wr Reg.EVR_STATUS_NEXT_SEQ (seq + 1)
  let s := if s.recorder.unflushed.length ≥ 256 ∨ w.sev ≥ s.rd Reg.EVR_CFG_FLUSH_SEV
    then s.setB Reg.EVR_STATUS_FLUSHING else s
  s.eqBroadcast
    (fun s p e => s.rd (Reg.HQ_EQ_CFG_SRC p e) == 1 && decide (s.rd (Reg.HQ_EQ_CFG_SEV p e) ≤ w.sev))
    (leBytes 6 seq ++ leBytes 2 w.code ++ leBytes 2 w.source ++ leBytes 1 w.sev)

/-- Admit an event that holds its token: at once, or after the RESERVE write it must wait for (R474).
[DEDUCED: log entry 24] -/
def State.enterRecord (s : State) (w : WaitingEvent) : State :=
  if s.recorder.waiting ≠ [] ∨ s.rd Reg.EVR_STATUS_NEXT_SEQ ≥ s.reserve then
    s.modRec fun k => { k with waiting := k.waiting ++ [w] }
  else s.admitNow w

/-- Count an event as suppressed (R471, R475). [DEDUCED: log entry 24] -/
def State.suppress (s : State) (code : Nat) : State :=
  (s.modRec fun k => { k with suppressed := Sparse.put 0 k.suppressed code (Sparse.get 0 k.suppressed code + 1) }).incWrap
    Reg.EVR_CNT_SUPPRESSED

/-- An event reaches the arbiter (R467, R471, R475). -/
def State.recordCode (s : State) (code sev src : Nat) (body : List Byte) : State :=
  if s.recorder.closed then s.suppress code
  else if exemptEvent code sev then s.enterRecord ⟨code, sev, src, body⟩
  else
    let b := Sparse.get 64 s.recorder.buckets code
    if b = 0 then s.suppress code
    else (s.modRec fun k => { k with buckets := Sparse.put 64 k.buckets code (b - 1) }).enterRecord ⟨code, sev, src, body⟩

def State.record (s : State) (e : Event) (src : Nat) (vals : List PayVal) : State :=
  s.recordCode e.code e.sev src (payload vals)

/-- Events that reach the arbiter in the same cycle, in its order: the lower SOURCE first, and of equal sources the lower CODE (R467). -/
def insertEvent (e : Event × Nat × List PayVal) : List (Event × Nat × List PayVal) → List (Event × Nat × List PayVal)
  | [] => [e]
  | f :: fs =>
    if e.2.1 < f.2.1 ∨ (e.2.1 = f.2.1 ∧ e.1.code ≤ f.1.code) then e :: f :: fs else f :: insertEvent e fs

/-- Events of the same cycle are recorded (R467). [DESIGN CHOICE: log entry 33] -/
def State.recordTogether (s : State) (es : List (Event × Nat × List PayVal)) : State :=
  (es.foldr insertEvent []).foldl (fun s e => s.record e.1 e.2.1 e.2.2) s

/-- SOURCE of a host port (R468): unit 3 of brim 0 or brim 2. -/
def portSource (p : Nat) : Nat := source (2 * p) 0 3

/-- SOURCE of a core: the logic of its crown. -/
def coreSource (c : Nat) : Nat := source (crownOf c) 7 0

/-- One rejected-write event: the BAR0 offset and the port (R469). -/
def State.rejectWrite (s : State) (p off : Nat) : State :=
  s.record .rejectedWrite (portSource p) [pv4 off, pv1 p]

/-! ### The control token (R435, R436) -/

/-- Does the port hold the control token? -/
def State.holds (s : State) (p : Nat) : Bool := s.rd Reg.MGT_TOKEN_HOLDER == p + 1

/-- Is a port available? (R435) -/
def State.portAvailable (s : State) (p : Nat) : Bool :=
  let h := s.host p
  !h.d3hot && h.linkUp && h.memEnable && !h.resetAsserted

/-- The holder changes: EPOCH, the token-change event, for which the manual names no payload, and an entry in every control-token queue
(R433, R436, R469). -/
def State.setHolder (s : State) (h cause : Nat) : State :=
  let s := ({ s with tokenTimer := s.tokenTimer + 1 } : State).wr Reg.MGT_TOKEN_HOLDER h
  let s := s.incWrap Reg.MGT_TOKEN_EPOCH
  let epoch := s.rd Reg.MGT_TOKEN_EPOCH
  let s := s.record .tokenChange (source 0 0 2) []
  s.eqBroadcast (fun s p e => s.rd (Reg.HQ_EQ_CFG_SRC p e) == 2)
    (leBytes 2 epoch ++ leBytes 1 h ++ leBytes 1 cause)

/-- The token leaves its holder for the other port if that is available, else for neither (R435). -/
def State.passToken (s : State) (cause : Nat) : State :=
  let h := s.rd Reg.MGT_TOKEN_HOLDER
  if h = 0 then s
  else
    let other := 2 - h   -- port index of the other port: holder 1 is port A (0), holder 2 is port B (1)
    s.setHolder (if s.portAvailable other then other + 1 else 0) cause

/-! ### Register accesses (R7, R9, R11, R422, R509) -/

/-- A register field's place for an access through a port. -/
def rowFld (f : Family) (p off : Nat) (r : FieldRow) : Fld := ⟨homeOff f p off, r.lo, r.width, r.reset⟩

/-- The register, its offset, and the part of it that an access of 4 or 8 bytes covers; none where the access is not
an aligned 32-bit or 64-bit one or no register lies there (R422). -/
def regAccess (off size : Nat) : Option (Family × Nat × RegPart) :=
  if (size ≠ 4 ∧ size ≠ 8) ∨ off % size ≠ 0 then none
  else match familyAt off with
    | some f =>
      if size = 8 then (if f.width = 64 then some (f, off, .whole) else none)
      else if f.width = 32 then some (f, off, .whole) else some (f, off, .lower)
    | none =>
      if size = 4 ∧ off % 8 = 4 then
        match familyAt (off - 4) with
        | some f => if f.width = 64 then some (f, off - 4, .upper) else none
        | none => none
      else none

/-- The value an access writes to a field, where it reaches the field and the field takes effect with it: a field in
both halves takes effect with its upper half, with the lower half last written (R11). [DEDUCED: log entry 2] -/
def writtenValue (s : State) (key : Nat) (f : Fld) (part : RegPart) (v : Nat) : Option Nat :=
  let hi := f.lo + f.width - 1
  match part with
  | .whole => some (bits v hi f.lo)
  | .lower => if hi < 32 then some (bits v hi f.lo) else none
  | .upper =>
    if f.lo ≥ 32 then some (bits v (hi - 32) (f.lo - 32))
    else if hi ≥ 32 then
      let low := Sparse.get ((s.rd f * 2 ^ f.lo) % 2 ^ 32) s.latch key
      some (bits (v * 2 ^ 32 + low) hi f.lo)
    else none

/-- A field that lies in both halves of its register (R11); a register has at most one. -/
def FieldRow.spans (r : FieldRow) : Bool := decide (r.lo < 32) && decide (32 < r.lo + r.width)

/-- Keep the lower half a 32-bit write brought, for the upper half to take (R11); a write of the upper half or of the
whole register uses it up. [DEDUCED: log entry 2] -/
def State.latchHalf (s : State) (key : Nat) (part : RegPart) (v : Nat) : State :=
  match part with
  | .lower => { s with latch := Sparse.put (2 ^ 64) s.latch key (v % 2 ^ 32) }
  | _ => { s with latch := Sparse.put (2 ^ 64) s.latch key (2 ^ 64) }

/-- Does a write without the authority to set RWT fields leave the kept lower half alone? It does where the field that the
half would go to is RWT: such a write neither keeps a half for that field nor uses one up (R509). [DEDUCED: log entry 2] -/
def latchBarred (fam : Family) (auth : Bool) : Bool := !auth && fam.fields.any fun r => r.acc == .rwt && r.spans

/-- Apply a field's clamp. -/
def FieldRow.clamped (r : FieldRow) (v : Nat) : Nat :=
  match r.clamp with
  | some (lo, hi) => clampNat lo hi v
  | none => v

/-- One field under its access code; `auth` says whether RWT fields may be set (R7). -/
def fieldWrite (s : State) (f : Fld) (r : FieldRow) (auth : Bool) (v : Nat) : State :=
  match r.acc with
  | .rw => s.wr f (r.clamped v)
  | .rwt => if auth then s.wr f (r.clamped v) else s
  | .rw1c => s.wr f (s.rd f &&& (2 ^ f.width - 1 - v % 2 ^ f.width))
  | _ => s

/-- Do the bits that an access brings to a field differ from those the field holds there? Each half of a field in both
halves is compared with the half of the value that stands there (R11, R509). [DEDUCED: log entry 2] -/
def broughtDiffers (s : State) (f : Fld) (part : RegPart) (v : Nat) : Bool :=
  let hi := f.lo + f.width - 1
  match part with
  | .whole => bits v hi f.lo != s.rd f
  | .lower => decide (f.lo < 32) && bits v (min hi 31) f.lo != s.rd f % 2 ^ (min hi 31 + 1 - f.lo)
  | .upper => decide (32 ≤ hi) && bits v (hi - 32) (max f.lo 32 - 32) != s.rd f / 2 ^ (max f.lo 32 - f.lo)

/-- Would the write change an RWT field that it may not set? (R509) [DEDUCED: log entry 2] -/
def rwtDiffers (s : State) (fam : Family) (p off : Nat) (part : RegPart) (v : Nat) : Bool :=
  fam.fields.any fun r => r.acc == .rwt && broughtDiffers s (rowFld fam p off r) part v

/-- The fields of a register that `sel` picks, each under its access code (R7, R509), with the one rejected-write
event of a write that would change an RWT field without the token. [DEDUCED: log entry 2] -/
def State.writeFields (s : State) (fam : Family) (p off : Nat) (part : RegPart) (v : Nat)
    (sel : FieldRow → Bool) : State :=
  let auth := s.holds p
  let key := homeOff fam p off
  let reject := !auth && rwtDiffers s fam p off part v
  let s' := fam.fields.foldl (fun t r =>
    if sel r then
      match writtenValue s key (rowFld fam p off r) part v with
      | some w => fieldWrite t (rowFld fam p off r) r auth w
      | none => t
    else t) s
  let s' := if latchBarred fam auth then s' else s'.latchHalf key part v
  if reject then s'.rejectWrite p off else s'

/-- Blocks that stay open from a reset's start to step 8 of R443 (R482). -/
def bootBlock (off : Nat) : Bool :=
  decide (off < 0x50000) || (decide (0x500000 ≤ off) && decide (off < 0x700000))

/-- Blocks that work in ROM recovery mode: DEV_, EVR_, MGT_ and SEC_ (R451). -/
def recoveryBlock (off : Nat) : Bool :=
  decide (off < 0x10000) || (decide (0x40000 ≤ off) && decide (off < 0x50000)) ||
    (decide (0x500000 ≤ off) && decide (off < 0x600000))

/-- Does BAR0 serve the offset now? (R451, R482) [DEDUCED: log entry 23] -/
def State.bar0Open (s : State) (off : Nat) : Bool :=
  if s.rd Reg.MGT_STATUS_MODE = 3 then recoveryBlock off else bootBlock off || s.rd Reg.MGT_STATUS_PHASE == 8

/-- The same over a register named by its offset: what a row of its own does with the fields it leaves to their
access codes. [DEDUCED: log entry 2] -/
def State.writeReg (s : State) (off : Nat) (a : RegAccess) (sel : FieldRow → Bool) : State :=
  match familyAt off with
  | some fam => if s.bar0Open off then s.writeFields fam a.port off a.part a.value sel else s
  | none => s

/-- The value a register access of a row of its own brings to a field, or the field's value where the access does not
reach it. -/
def State.accessVal (s : State) (a : RegAccess) (off : Nat) (f : Fld) : Nat :=
  (writtenValue s off f a.part a.value).getD (s.rd f)

/-- The same for a WO field: zero where the access does not reach it, or BAR0 does not serve it (R482). -/
def State.accessBits (s : State) (a : RegAccess) (f : Fld) : Nat :=
  if s.bar0Open f.off then (writtenValue s f.off f a.part a.value).getD 0 else 0

/-! ### Core, crown and counter helpers -/

/-- The state with one count added to a bank (R193, R194). -/
def bankAdd (bank : List (Nat × Nat)) (k : CountKey) : List (Nat × Nat) :=
  let i := (k.fmt * 8 + k.cls) * 3 + (match k.kind with | .overflow => 0 | .vanish => 1 | .invalid => 2)
  if k.fmt ≤ 0x11 then Sparse.put 0 bank i (satAdd 48 (Sparse.get 0 bank i) 1) else bank

/-- Counts of a core go to its bank and to its crown's (R193). -/
def State.countCore (s : State) (c : Nat) (ks : List CountKey) : State :=
  let x := s.core c
  let y := s.crown (crownOf c)
  (s.setCore c { x with counts := ks.foldl bankAdd x.counts }).setCrown (crownOf c)
    { y with counts := ks.foldl bankAdd y.counts }

/-- A scalar register of a thread: s0 reads zero (R78). -/
def ThreadSt.reg (t : ThreadSt) (r : Nat) : Nat := if r = 0 then 0 else Sparse.get 0 t.regs r

/-- Write a scalar register: s0 ignores writes (R78). -/
def ThreadSt.setReg (t : ThreadSt) (r v : Nat) : ThreadSt :=
  if r = 0 then t else { t with regs := Sparse.put 0 t.regs r (v % 2 ^ 64) }

/-! ### DRAINs and the halves of the vector engine -/

/-- The tile slots a stream adds to. -/
def StreamSt.tiles (x : StreamSt) : List Nat :=
  match x.cmd with
  | .stream _ _ _ _ _ _ dual _ tile tile2 .. => if dual = 1 then [tile, tile2] else [tile]
  | _ => []

/-- The slot a drain reads. -/
def DrainSt.tile (d : DrainSt) : Nat :=
  match d.cmd with
  | .drain _ tile .. => tile
  | _ => 0

/-- Does a DRAIN with a place below `n` still run on the core, in its engine or set aside by a preemption? For thread U, whose end
gives back what was set aside, such a DRAIN is none to wait for; no rule says so. [DESIGN CHOICE: log entry 11] -/
def CoreSt.drainBefore (x : CoreSt) (th : Thr) (n : Nat) : Bool :=
  [x.arrF, x.arrB].any fun a => a.drain.any (fun d => decide (d.seq < n)) ||
    (th != .U && a.saved.any fun v => v.drain.any fun d => decide (d.seq < n))

/-- A DRAIN must wait: a STREAM ahead of it is still adding to its tile (R134), or its epilogue waits for the chain stores of the
core's earlier DRAINs (R164). [DEDUCED: log entry 11] -/
def CoreSt.drainWaits (x : CoreSt) (arr : Arr) (d : DrainSt) : Bool :=
  (match (x.arr arr).stream with
    | some y => decide (0 < y.next) && y.tiles.contains d.tile
    | none => false) ||
  (match d.cmd with
    | .drain _ _ epi .. => epi != 0 && x.drainBefore d.thread d.seq
    | _ => false)

/-- The halves of the vector engine that DRAINs leave free: half 0 by the F-array's, half 1 by the B-array's. A DRAIN takes its half
when a row of it is ready, and keeps it until its engine is free (R191). -/
def CoreSt.halfFree (x : CoreSt) : Bool × Bool :=
  let free (a : Arr) : Bool := ((x.arr a).drain.map (x.drainWaits a)).getD true
  (free .F, free .B)

end Sys2Proof.Machine
end

