-- ==== Sys2Proof/Machine/Pages.lean ====
section
/-! DEFINITION. The directory of managed pages (R227, R240, R242, R243): which tower holds a deep-tier page, its region, and
its state. -/

namespace Sys2Proof.Machine

/-- deep_place of R226, up to the tower and the address within it; `loc` is TIER_LOCAL.LOCAL. -/
def deepTa (loc a : Nat) : Nat × Nat :=
  let j := bits a 36 32
  let o := a % 2 ^ 32
  if bit loc j then (bits o 31 30, j * 2 ^ 30 + o % 2 ^ 30)
  else (bits o 22 21 ^^^ bits o 24 23, j * 2 ^ 30 + (bits o 31 23 * 2 ^ 21 + o % 2 ^ 21))

/-- The managed region of a deep-tier page (R240). -/
def State.regionOf (s : State) (pg : Nat) : Option Region :=
  s.regions.find? fun r => decide (r.page ≤ pg) && decide (pg < r.page + r.count)

def State.page (s : State) (pg : Nat) : Page := Sparse.get {} s.pages pg
def State.setPage (s : State) (pg : Nat) (x : Page) : State := { s with pages := Sparse.put {} s.pages pg x }

/-- Is the page served from its near-tier frame? (R243) -/
def PageState.inFrame : PageState → Bool
  | .resident | .leaving | .homeLost => true
  | _ => false

/-- The home tower of a deep-tier page, and the address of its first byte within that tower (R227). -/
def State.pageHome (s : State) (pg : Nat) : Nat × Nat := deepTa (s.rd Reg.TIER_LOCAL_LOCAL) (pg * 65536)

/-- Pages of a tower in HOME_LOST (R243). -/
def State.homeLostPages (s : State) (t : Nat) : List Nat :=
  (s.pages.filter fun e => e.2.state == .homeLost && (s.pageHome e.1).1 == t).map (·.1)

end Sys2Proof.Machine
end

