-- ==== Sys2Proof/Machine/LiveRegs.lean ====
section
/-! DEFINITION. Reading registers: the fields whose value is a view of other state, and register reads by hosts and by
the package's own engines (R7, R9, R11, R478). -/

namespace Sys2Proof.Machine

/-- The value of a sync object (R369). -/
def State.obj (s : State) (o : Nat) : Nat := Sparse.get 0 s.sync o

/-- Does a ready condition hold? (R205) -/
def State.condHolds (s : State) (c : ReadyCond) : Bool :=
  if c.equal then s.obj c.sync == c.value else decide (c.value ≤ s.obj c.sync)

/-- A ready condition that may be none, with a SYNC field of 0x1_FFFF: WAIT1 of a unit (R360) and WAIT of a DMA command
(R428). -/
def State.optCondHolds (s : State) (c : ReadyCond) : Bool := c.sync == 0x1FFFF || s.condHolds c

/-- The bytes of a record (R468). -/
def Record.bytes (r : Record) : List Byte :=
  leBytes 6 r.seq ++ leBytes 4 (r.powered % 2 ^ 29 + r.sev * 2 ^ 29) ++ leBytes 3 r.cycles ++ leBytes 1 r.source
    ++ leBytes 2 r.code ++ padBytes 16 r.payload

/-- The record of a SEQ as the window shows it: from the ring, else from MRAM; zeros when it is below OLDEST, not yet
admitted, or overwritten in both (R478). -/
def State.windowRecord (s : State) (seq : Nat) : List Byte :=
  let k := s.recorder
  let pick (o : Option Record) : Option Record := o.bind fun r => if r.seq = seq then some r else none
  if seq < s.rd Reg.EVR_OLDEST_OLDEST ∨ s.rd Reg.EVR_STATUS_NEXT_SEQ ≤ seq then List.replicate 32 0
  else
    match pick (Sparse.get none k.ring (seq % 65536)) with
    | some r => r.bytes
    | none => match pick (Sparse.get none k.areaA.records (seq % 130944)) with
      | some r => r.bytes
      | none => match pick (Sparse.get none k.areaB.records (seq % 130944)) with
        | some r => r.bytes
        | none => List.replicate 32 0

/-- The duty step a fuller shows: 8 while at full activity. -/
def Fuller.shownStep (f : Fuller) : Nat :=
  match f.phase with
  | .full | .hold => 8
  | _ => f.step

/-- A SWAP stands at the head and waits for the shadow (R91). While a STREAM ahead of it still issues rows (R201) it waits for
those too, and whether it is then pending is not said; it is not, here. [DESIGN CHOICE: log entry 10] -/
def ArraySt.swapPending (a : ArraySt) : Bool :=
  match a.queue with
  | e :: _ => (match decodeArr e.word with | some (.swap _) => a.loading.isSome && a.stream.isNone | _ => false)
  | [] => false

/-- A field of CRN_ARR_STATUS. -/
def ArraySt.status (a : ArraySt) (field : String) : Option Nat :=
  match field with
  | "QDEPTH" => some (min 8 a.queue.length)
  | "CLASS" => some (match a.live with | some x => x.cls | none => 3)
  | "SWAP_PEND" => some a.swapPending.toNat
  | "SHADOW_VALID" => some a.shadowValid.toNat
  | "STEP" => some a.fuller.shownStep
  | "STATE" => some a.fuller.phase.code
  | _ => none

/-- Sample slots held by the running step (R364). -/
def State.slotsUsed (s : State) : Nat :=
  match s.step with
  | none => 0
  | some r => (r.mbHeld.map fun m => ((s.units.find? (·.mb == m)).map (·.mbsz)).getD 0).sum

/-- Frames of a tower's page pool (R247). -/
def State.poolFrames (s : State) (t : Nat) : Nat := s.rd (Reg.TIER_CFG_POOL_MIB t) * 16

/-- RST_STATE's two bits for a tower. -/
def SleepPhase.code : SleepPhase → Nat
  | .awake => 0 | .entering => 1 | .asleep => 2 | .leaving => 3

/-- Is every core of a crown gated? -/
def State.crownGated (s : State) (n : Nat) : Bool :=
  (List.range 144).all fun c => (s.core (144 * n + c)).gated

/-- The towers a bridge joins (R39). -/
def bridgeTowers : Nat → Nat × Nat
  | 0 => (0, 1) | 1 => (2, 3) | 2 => (0, 2) | _ => (1, 3)

/-- A measurement (R461): 64 bytes. -/
def State.measurement (s : State) (i : Nat) : List Byte :=
  if i = 0 then padBytes 64 Config.romDigest
  else if i ≤ 5 then padBytes 64 (Sparse.get [] s.boot.measured i)
  else if i = 6 ∧ s.rd Reg.SHP_STATUS_STATE = 3 then
    (List.range 8).flatMap fun k => leBytes 8 (s.rd (Reg.SHP_DIGEST_DIGEST k))
  else List.replicate 64 0

/-- The value of a field that is a view of other state, for a read through port `p`; none where the field is stored. -/
def State.liveField (s : State) (p : Nat) (fam : Family) (off : Nat) (r : FieldRow) : Option Nat :=
  let n := (off - 0x1000000) / 0x400000
  let l := ((off - 0x1000000) % 0x400000 - 0x10000) / 0x1000
  let c := 144 * n + l
  let t := (off - fam.base) / 0x1000
  match fam.name, r.name with
  | "CRN_CORE_ID", "FLEX" => some (isFlex c).toNat
  | "CRN_CORE_ID", "COL" => some (l % 12)
  | "CRN_CORE_ID", "ROW" => some (l / 12)
  | "CRN_CORE_ID", "CROWN" => some n
  | "CRN_CORE_ID", "CORE" => some c
  | "CRN_ARR_STATUS", x => if r.lo < 16 then (s.arr c .F).status x else (s.arr c .B).status ((x.drop 2).toString)
  | "CRN_ACC_STATUS", "SAVED_F" => some ((s.arr c .F).saved.any (·.record)).toNat
  | "CRN_ACC_STATUS", "SAVED_B" => some ((s.arr c .B).saved.any (·.record)).toNat
  | "CRN_ACC_STATUS", "DRAIN_F" => some (s.arr c .F).drain.isSome.toNat
  | "CRN_ACC_STATUS", "DRAIN_B" => some (s.arr c .B).drain.isSome.toNat
  | "CRN_VEC_STATUS", "QDEPTH" => some (s.core c).vecQueue.length
  | "CRN_VEC_STATUS", "VOP_HALF0" => some ((s.core c).vop.isSome && (s.core c).halfFree.1).toNat
  | "CRN_VEC_STATUS", "VOP_HALF1" => some ((s.core c).vop.isSome && (s.core c).halfFree.2).toNat
  | "CRN_FLEX_STAT", "BOUND" => some (s.core c).bindings.length
  | "CRN_FLEX_STAT", "READY" => some ((s.core c).jobs.filter fun j => j.conds.all s.condHolds).length
  | "CRN_FLEX_STAT", "PEND" => some (s.core c).jobs.length
  | "TIER_STATUS", "FREE" =>
    some ((List.range (s.poolFrames t)).filter fun f => Sparse.get FrameSt.free (s.tier t).frames f != .used).length
  | "TIER_STATUS", "HOME_LOST" => some (min 1023 (s.homeLostPages t).length)
  | "TIER_MAINT", "GROUPS_FAILED" => some ((s.tier t).lanes.filter fun g => decide (5 ≤ g.2.failed.length)).length
  | "TIER_MAINT", "LANES_SPARED" => some ((s.tier t).lanes.map fun g => min 4 g.2.failed.length).sum
  | "TIER_MAINT", "ROWS_SPARED" => some (s.tier t).sparedRows.length
  | "TIER_STATUS", "BRIDGE_DEG" =>
    some (s.bridgesFailed.any fun b => (bridgeTowers b).1 == t || (bridgeTowers b).2 == t).toNat
  | "SHP_STATUS", "STEP_RUN" => some s.step.isSome.toNat
  | "SHP_SLOTS", "USED" => some s.slotsUsed
  | "SHP_SLOTS", "MB_NEXT" => some (match s.step with
    | none => 0
    | some r => ((List.range 1024).find? fun m => !r.mbHeld.contains m &&
        decide (Sparse.get 0 r.mbEnded m = 0)).getD 0)
  | "SYN_VALUE", _ => some (s.obj (s.rd (Reg.SYN_SEL_OBJ p)))
  | "PCAP_STATUS", "GAPS" => some ([0, 1, 2, 3].any fun n => decide (s.rd (Reg.PWR_OP_DUTY n) < 64)).toNat
  | "THM_STATUS", "TRIP" => some s.power.trip.toNat
  | "PWR_LSTEP", "LOW" => some s.lstep.toNat
  | "MGT_TOKEN", "SELF" => some (s.holds p).toNat
  | "HQ_PORT", "PORT" => some p
  | "DEV_ID", "STEPPING" => some Config.stepping.toNat
  | "EVR_WINDOW", _ =>
    let k := (off - fam.base) / 8
    some (fieldNat (s.windowRecord (s.rd (Reg.EVR_CURSOR_SEQ p) + k / 4)) (8 * (k % 4)) 8)
  | "SEC_MEAS_DATA", _ => some (fieldNat (s.measurement (s.rd (Reg.SEC_MEAS_SEL_INDEX p))) (off - fam.base) 8)
  | "RST_STATE", "STANDBY" => some s.standby.toNat
  | "RST_STATE", "GATED" => some ((List.range 4).foldl (fun a n => a + (s.crownGated n).toNat * 2 ^ n) 0)
  | "RST_STATE", "TOWER" => some ((List.range 4).foldl (fun a t => a + (s.tower t).sleep.code * 4 ^ t) 0)
  | _, _ => none

/-- The value of a field for a read through port `p`: WO fields read as zero, and so do the flex registers of a standard
core. -/
def State.fieldVal (s : State) (p : Nat) (fam : Family) (off : Nat) (r : FieldRow) : Nat :=
  if r.acc = .wo then 0
  else if "CRN_FLEX".isPrefixOf fam.name ∧
      !isFlex (144 * ((off - 0x1000000) / 0x400000) + ((off - 0x1000000) % 0x400000 - 0x10000) / 0x1000) then 0
  else ((s.liveField p fam off r).getD (s.rd (rowFld fam p off r))) % 2 ^ r.width

/-- A whole register as port `p` reads it: reserved bits are zero (R9). -/
def State.regVal (s : State) (p : Nat) (fam : Family) (off : Nat) : Nat :=
  fam.fields.foldl (fun a r => a + s.fieldVal p fam off r * 2 ^ r.lo) 0

/-- Read a register through a port: the value of the part covered, and the state after the read's own effects: RC
fields of that part are cleared (R7), and the cursor of R478 advances. An access that no register answers reads zero
(R422). -/
def State.readOne (s : State) (p off size : Nat) : Nat × State :=
  match regAccess off size with
  | none => (0, s)
  | some (fam, ro, part) =>
    if !s.bar0Open ro then (0, s)
    else
      let v := s.regVal p fam ro
      let covers (r : FieldRow) : Bool := match part with
        | .whole => true
        | .lower => decide (r.lo < 32)
        | .upper => decide (r.lo + r.width > 32)
      let out := match part with
        | .whole => v
        | .lower => v % 2 ^ 32
        | .upper => v / 2 ^ 32
      let s' := fam.fields.foldl (fun t r =>
        if r.acc = .rc ∧ covers r then t.wr (rowFld fam p ro r) 0 else t) s
      let s' := if ro = 0x401F8 ∧ part ≠ .lower ∧ s.rdB (Reg.EVR_CURSOR_AUTO p) then
          s'.wr (Reg.EVR_CURSOR_SEQ p) (s.rd (Reg.EVR_CURSOR_SEQ p) + 8) else s'
      (out, s')

/-- Read registers through a port: one register, or the two 32-bit registers that an aligned 64-bit access covers. -/
def State.readReg (s : State) (p off size : Nat) : Nat × State :=
  if size = 8 ∧ off % 8 = 0 ∧ ((familyAt off).map (·.width)) = some 32 then
    let (v, s) := s.readOne p off 4
    let (w, s) := s.readOne p (off + 4) 4
    (v + w * 2 ^ 32, s)
  else s.readOne p off size

end Sys2Proof.Machine
end

