-- ==== Sys2Proof/Machine/Memory.lean ====
section
/-! DEFINITION. Storage: the device address map (R223), the path an access crosses and the
status it completes with (R18, R24, R28, R30, R38, R39, R224, R225, R252), managed pages (R242 to R245), poison (R238,
R239), the storage code at the controllers (R234 to R237), and reading and writing bytes. -/

namespace Sys2Proof.Machine

/-! ### The address map and placement -/

/-- Where a device-physical address lies (R223). -/
inductive Place where
  /-- deep tier: home tower and address within the tower's 20 GiB -/
  | deep (t ta : Nat)
  | near (t off : Nat)
  | sram (core off : Nat)
  | reg (off : Nat)
  | reserved
deriving DecidableEq, Repr

/-- Horizon (0 is H1), channel, bank, row and column of an address within a tower (R226). -/
structure DeepPlace where
  horizon : Nat
  channel : Nat
  bank : Nat
  row : Nat
  col : Nat
deriving DecidableEq, Repr

def deepPlace (ta : Nat) : DeepPlace :=
  let blk := ta / 512
  let g := blk % 320
  let ca := blk / 320 * 512 + ta % 512
  ⟨g / 64, g % 64, bits ca 14 11, bits ca 25 15, bits ca 10 0⟩

/-- A DRAM row of a tower as one number: channel of the tower, bank, row. -/
def DeepPlace.rowId (d : DeepPlace) : Nat := ((d.horizon * 64 + d.channel) * 16 + d.bank) * 2048 + d.row
def DeepPlace.bankId (d : DeepPlace) : Nat := (d.horizon * 64 + d.channel) * 16 + d.bank

def placeOf (loc a : Nat) : Place :=
  if a < 0x1400000000 then let (t, ta) := deepTa loc a; .deep t ta
  else if 0x4000000000 ≤ a ∧ a < 0x40C0000000 then .near ((a - 0x4000000000) / 0x30000000) ((a - 0x4000000000) % 0x30000000)
  else if 0x5000000000 ≤ a ∧ a < 0x5024000000 then .sram ((a - 0x5000000000) / 0x100000) ((a - 0x5000000000) % 0x100000)
  else if 0x6000000000 ≤ a ∧ a < 0x6004000000 then .reg (a - 0x6000000000)
  else .reserved

def State.place (s : State) (a : Nat) : Place := placeOf (s.rd Reg.TIER_LOCAL_LOCAL) a

/-- The storage key of a byte: deep-tier storage is keyed by tower and place in it, so that a change of TIER_LOCAL
shows whatever is stored where an address then decodes (R228); other storage by its device address.
[DESIGN CHOICE: log entry 7] -/
def deepKey (t ta : Nat) : Nat := t * 2 ^ 35 + ta
/-- The storage key of a byte of the near tier. [DESIGN CHOICE: log entry 7] -/
def nearKey (t off : Nat) : Nat := 0x4000000000 + t * 0x30000000 + off
/-- The storage key of a byte of local SRAM. [DESIGN CHOICE: log entry 7] -/
def sramKey (c off : Nat) : Nat := 0x5000000000 + c * 0x100000 + off

/-- The home tower of a place that has one (R225). -/
def Place.home : Place → Option Nat
  | .deep t _ => some t
  | .near t _ => some t
  | .sram c _ => some (crownOf c)
  | _ => none

/-- Start of a tower's page pool in its near tier: the pool takes the top POOL_MIB of it. [DESIGN CHOICE: log entry 7] -/
def State.poolStart (s : State) (t : Nat) : Nat := 0x30000000 - s.poolFrames t * 65536

/-- Offset in the near tier of a pool frame: frames are counted down from the top, so that a page keeps its frame whatever the
pool's size becomes (R253). [DESIGN CHOICE: log entry 7] -/
def frameOff (f : Nat) : Nat := 0x30000000 - (f + 1) * 65536

/-! ### Where a page is served (R242, R243) -/

/-- Which storage serves a managed page. -/
inductive Served where
  /-- its deep-tier storage -/
  | deep
  /-- a frame of its home tower's near tier -/
  | frame (f : Nat)
  /-- none: an EMPTY page -/
  | nothing
deriving DecidableEq, Repr

/-- What serves the page of a deep-tier address: a page that is not managed is ABSENT. -/
def State.served (s : State) (a : Nat) : Served :=
  let pg := s.page (a / 65536)
  if pg.state = .empty then .nothing else if pg.state.inFrame then .frame pg.frame else .deep

/-- The storage key of the byte at an address, none for an EMPTY page, which touches no storage (R242, R243). -/
def State.keyOf (s : State) (a : Nat) : Option Nat :=
  match s.place a with
  | .deep t ta =>
    match s.served a with
    | .deep => some (deepKey t ta)
    | .frame f => some (nearKey t (frameOff f + a % 65536))
    | .nothing => none
  | .near t off => some (nearKey t off)
  | .sram c off => some (sramKey c off)
  | _ => none

/-- The tower and channel (horizon × 64 + channel) that serve an address from the horizons, if they do. -/
def State.channelOf (s : State) (a : Nat) : Option (Nat × Nat) :=
  match s.place a with
  | .deep t ta =>
    let d := deepPlace ta
    if s.served a = .deep then some (t, d.horizon * 64 + d.channel) else none
  | _ => none

/-- Does the address's word lie in a failed channel? (R252) -/
def State.chanFailed (s : State) (a : Nat) : Bool :=
  match s.channelOf a with
  | some (t, ch) => (s.tier t).failedChannels.contains ch
  | none => false

/-! ### The path to an address (R18, R22 to R30) -/

/-- The tower and the die that serve an address; none where a register lies in a brim, and in reserved addresses. -/
def State.dieOf (s : State) (a : Nat) : Option (Nat × PathEnd) :=
  match s.place a with
  | .deep t ta => some (t, if s.served a = .deep then .horizon (deepPlace ta).horizon else .cacheDie)
  | .near t _ => some (t, .cacheDie)
  | .sram c _ => some (crownOf c, .crown)
  | .reg off => regDie off
  | .reserved => none

/-- The through domains (tower, position code) that a transfer from an originator to a place crosses (R18): a page served from
its frame, or from nothing, ends at the cache die (R242, R243). -/
def State.domains (s : State) (o : Orig) (a : Nat) : List (Nat × Nat) :=
  match s.place a, s.dieOf a with
  | .reg off, _ => s.regPath o off
  | _, some (t, e) => s.pathTo o t e (bits a 21 21)
  | _, none => []

/-- Does the path to the address cross a lost domain? (R30) -/
def State.pathLost (s : State) (o : Orig) (a : Nat) : Bool := (s.domains o a).any s.domainLost

/-- What holds a request to a die of a tower, but for a horizon's own reset: a cache die in reset (R23), or a tower that lets no
transfer in (R25, R26). An originator in the crown reaches its own crown past both. -/
def State.towerHolder (s : State) (o : Orig) (t : Nat) (e : PathEnd) : Option Holder :=
  let x := s.tower t
  if e = .crown && origInCrown o && origTower o == t then none
  else if x.cacheReset then some (.cacheDie t)
  else if x.sleep ≠ .awake ∨ !x.trained then some (.sleep t)
  else none

/-- What holds a request to an address, if anything does: a cache die or horizon in reset (R22, R23), or a tower that lets no
transfer in (R25, R26). A core's access to its own crown crosses neither. -/
def State.holderOf (s : State) (o : Orig) (a : Nat) : Option Holder :=
  match s.dieOf a with
  | none => none
  | some (t, e) =>
    match s.towerHolder o t e, e with
    | some h, _ => some h
    | none, .horizon h => if (s.tower t).horizonReset.contains h then some (.horizon t h) else none
    | none, _ => none

/-- What holds an access to a register back, if anything does. [DEDUCED: log entry 20] -/
def State.regHolder (s : State) (o : Orig) (off : Nat) : Option Holder :=
  match regDie off with
  | some (t, e) => s.towerHolder o t e
  | none => none

/-! ### Bytes and words -/

/-- What an unlisted byte of storage reads as: zero (R444 zeroes the tiers at boot). [DESIGN CHOICE: log entry 7] -/
def memDefault : Byte := 0

/-- The one canonical form of a memory: addresses strictly rising, and no entry that reads as an unlisted byte does. -/
def Memory.wf (m : List Host.Cell) : Bool := Sparse.wf memDefault m

def State.byteAt (s : State) (key : Nat) : Byte := Sparse.get memDefault s.mem key
def State.poisoned (s : State) (key : Nat) : Bool := Sparse.get false s.poison (key / 16)

/-- One byte as a consumer reads it: none when its word is poisoned or its channel has failed.
[DESIGN CHOICE: log entry 7] -/
def State.readByte (s : State) (a : Nat) : DataByte :=
  if s.chanFailed a then none
  else match s.keyOf a with
    | none => some 0
    | some k => if s.poisoned k then none else some (s.byteAt k)

/-- Bytes of storage from an address on. -/
def State.readBytes (s : State) (a n : Nat) : List DataByte := (List.range n).map fun i => s.readByte (a + i)

/-- Put bytes at a storage key. -/
def State.putBytes (s : State) (key : Nat) (bs : List Byte) : State :=
  { s with mem := (bs.zipIdx).foldl (fun m (b, i) => Sparse.put memDefault m (key + i) b) s.mem }

/-- Write the poison encoding to the 128-bit word that holds a key: 128 zero data bits (R236). -/
def State.poisonKey (s : State) (key : Nat) : State :=
  let s := s.putBytes (key / 16 * 16) (List.replicate 16 0)
  { s with poison := Sparse.put false s.poison (key / 16) true }

def State.unpoisonKey (s : State) (key : Nat) : State := { s with poison := Sparse.put false s.poison (key / 16) false }

/-- The 128 data bits of the word at a storage key. -/
def State.dataAt (s : State) (k : Nat) : BitVec 128 :=
  BitVec.ofNat 128 (leNat ((List.range 16).map fun i => s.byteAt (k / 16 * 16 + i)))

/-- Put a word's data at a storage key. [DEDUCED: log entry 7] -/
def State.putData (s : State) (k : Nat) (d : BitVec 128) : State := s.putBytes (k / 16 * 16) (leBytes 16 d.toNat)

/-- Clear a range of storage to zero. -/
def State.clearRange (s : State) (k n : Nat) : State :=
  { s with mem := s.mem.filter fun c => !(decide (k ≤ c.1) && decide (c.1 < k + n))
           poison := s.poison.filter fun c => !(decide (k / 16 ≤ c.1) && decide (c.1 < (k + n) / 16)) }

/-- Copy a range of storage word for word, poison as poison (R238, R244). -/
def State.copyRange (s : State) (src dst n : Nat) : State :=
  let cells := s.mem.filter fun c => decide (src ≤ c.1) && decide (c.1 < src + n)
  let bad := s.poison.filter fun c => decide (src / 16 ≤ c.1) && decide (c.1 < (src + n) / 16)
  let s := s.clearRange dst n
  { s with mem := cells.foldl (fun m c => Sparse.put memDefault m (c.1 - src + dst) c.2) s.mem
           poison := bad.foldl (fun m c => Sparse.put false m (c.1 - src / 16 + dst / 16) c.2) s.poison }

/-- Write a part of the word at a key (R238): marked data make the word poison; a partial write leaves a poisoned word
poisoned; a whole write replaces the poison. [DEDUCED: log entry 7] -/
def State.putWord (s : State) (k : Nat) (bs : List DataByte) : State :=
  if bs.any (·.isNone) then s.poisonKey k
  else if s.poisoned k then
    if bs.length = 16 then (s.unpoisonKey k).putBytes k (bs.map fun b => b.getD 0) else s
  else s.putBytes k (bs.map fun b => b.getD 0)

/-- Cut bytes that start at an address into the parts of the 128-bit words they cover: address and bytes. -/
def wordParts (a : Nat) (bs : List DataByte) : List (Nat × List DataByte) :=
  let n := bs.length
  let words := if n = 0 then 0 else (a + n - 1) / 16 - a / 16 + 1
  (List.range words).map fun i =>
    let lo := max a ((a / 16 + i) * 16)
    let hi := min (a + n) ((a / 16 + i + 1) * 16)
    (lo, (bs.drop (lo - a)).take (hi - lo))

/-- The addresses of the words that an access covers, the first one as the access gives it. -/
def rangeWords (a n : Nat) : List Nat := (wordParts a (List.replicate n none)).map (·.1)

/-! ### Statuses -/

/-- The statuses of R224. -/
def stOk : Nat := 0
def stPathLost : Nat := 1
def stAddrFault : Nat := 2
def stChanFail : Nat := 3

/-- SOURCE of an originator: the die it sits in. -/
def origSource : Orig → Nat
  | .core n => coreSource n.val
  | .port p | .dma p _ => portSource p.val
  | .tier t | .update t => source t.val 6 0
  | .router b => source b.val 0 4
  | .mgmt => source 0 0 2

/-- Keep the first error's address (R256). -/
def State.errAddr (s : State) (t kind a : Nat) : State :=
  if s.rdB (Reg.TIER_ERR_ADDR_VALID t) then s
  else ((s.wr (Reg.TIER_ERR_ADDR_KIND t) kind).wr (Reg.TIER_ERR_ADDR_ADDR t) a).setB (Reg.TIER_ERR_ADDR_VALID t)

/-! ### Poison at consumers -/

/-- The first addresses of the poisoned words among bytes read from an address. -/
def poisonWords (a : Nat) (bs : List DataByte) : List Nat :=
  ((wordParts a bs).filter fun w => w.2.any (·.isNone)).map (·.1)

/-- Count poisoned words met, each at its word's home tower (R239). -/
def State.countPoison (s : State) (ws : List Nat) : State :=
  ws.foldl (fun s a => match (s.place a).home with
    | some t => s.incStop (Reg.TIER_ECC_POISON_USE t)
    | none => s) s

/-- Flag the running step (R365). -/
def State.flagStep (s : State) (b : Nat) : State :=
  { s with step := s.step.map fun r => { r with flags := r.flags ||| 2 ^ b } }

/-- One command or transfer meets poison: the counts, one event, and the step's POISON flag (R239, R365). -/
def State.consumePoison (s : State) (o : Orig) (ws : List Nat) (already : Bool := false) : State :=
  if ws = [] then s
  else
    let s := s.countPoison ws
    if already then s else (s.record .poisonConsumed (origSource o) []).flagStep 4

/-! ### Frames and page moves (R244, R245, R247, R253) -/

/-- Quota of a region class in frames (R247). [DESIGN CHOICE: log entry 7] -/
def State.quotaFrames (s : State) (t cls : Nat) : Nat :=
  16 * (match cls with
    | 0 => s.rd (Reg.TIER_QUOTA_PIN t)
    | 1 => s.rd (Reg.TIER_QUOTA_PHASE t)
    | 2 => s.rd (Reg.TIER_QUOTA_STASH t)
    | 3 => s.rd (Reg.TIER_QUOTA_GRADBUF t)
    | _ => s.rd (Reg.TIER_QUOTA_STATE t))

/-- The first pool frame of a class: the classes take the pool in the order of TIER_QUOTA. [DESIGN CHOICE: log entry 7] -/
def State.quotaStart (s : State) (t cls : Nat) : Nat := ((List.range cls).map (s.quotaFrames t)).sum

/-- A free frame of a class, if it has one (R247). [DESIGN CHOICE: log entry 7] -/
def State.freeFrame (s : State) (t cls : Nat) : Option Nat :=
  ((List.range (s.quotaFrames t cls)).map (s.quotaStart t cls + ·)).find? fun f =>
    Sparse.get FrameSt.free (s.tier t).frames f != .used

def State.setFrame (s : State) (t f : Nat) (x : FrameSt) : State :=
  let m := s.tier t
  s.setTier t { m with frames := Sparse.put .free m.frames f x }

/-- Zero a pool frame (R245). -/
def State.zeroFrame (s : State) (t f : Nat) : State := s.clearRange (nearKey t (frameOff f)) 65536

/-- The memory channel (horizon × 64 + channel) of an address within a tower. -/
def channelNo (ta : Nat) : Nat := (deepPlace ta).horizon * 64 + (deepPlace ta).channel

/-- Is a 512-byte block of a tower's deep tier in a failed channel (R252)? -/
def State.blockFailed (s : State) (t ta : Nat) : Bool := (s.tier t).failedChannels.contains (channelNo ta)

/-- Copy a page's 512-byte blocks between its deep-tier storage and a frame: words of a failed channel arrive as poison
and are not written (R244, R252). -/
def State.copyPage (s : State) (t ta f : Nat) (intoFrame : Bool) : State :=
  let near := nearKey t (frameOff f)
  (List.range 128).foldl (fun s b =>
    let lost := s.blockFailed t (ta + 512 * b)
    let d := deepKey t (ta + 512 * b)
    let n := near + 512 * b
    if intoFrame then
      (if lost then (List.range 32).foldl (fun s w =>
          { s with poison := Sparse.put false s.poison (n / 16 + w) true }) (s.clearRange n 512)
        else s.copyRange d n 512)
    else if lost then s else s.copyRange n d 512) s

/-- Zero a page's deep-tier storage, but for words of a failed channel. -/
def State.zeroDeepPage (s : State) (t ta : Nat) : State :=
  (List.range 128).foldl (fun s b =>
    if s.blockFailed t (ta + 512 * b) then s else s.clearRange (deepKey t (ta + 512 * b)) 512) s

/-- The blocks of a page whose channel has failed. -/
def State.failedBlocks (s : State) (t ta : Nat) : List Nat := (List.range 128).filter fun b => s.blockFailed t (ta + 512 * b)

/-- The addresses of the words of a page that a copy of it meets as poison: those poisoned at its source, and, into a frame,
those of failed channels (R239, R252). -/
def State.pagePoison (s : State) (pg t ta f : Nat) (intoFrame : Bool) : List Nat :=
  let src := if intoFrame then deepKey t ta else nearKey t (frameOff f)
  let marked := (s.poison.filter fun c => decide (src / 16 ≤ c.1) && decide (c.1 < src / 16 + 4096)).map
    fun c => pg * 65536 + (c.1 - src / 16) * 16
  if intoFrame then
    let lost := s.failedBlocks t ta
    marked.filter (fun a => !lost.contains (a % 65536 / 512)) ++
      lost.flatMap fun b => (List.range 32).map fun w => pg * 65536 + 512 * b + 16 * w
  else marked

/-- Poison words (address ÷ 16) of a page where a copy put them: those of failed channels are not written. -/
def State.poisonMoved (s : State) (t ta f : Nat) (intoFrame : Bool) (ws : List Nat) : State :=
  ws.foldl (fun s w =>
    let o := w % 4096 * 16
    if intoFrame then s.poisonKey (nearKey t (frameOff f + o))
    else if s.blockFailed t (ta + o / 512 * 512) then s else s.poisonKey (deepKey t (ta + o))) s

/-- A page engine's copy: words that it meets as poison, in storage or on the path (`bad`), are consumed, and the first block of a
failed channel is reported (R237, R239, R244, R252). -/
def State.movePage (s : State) (pg t ta f : Nat) (intoFrame : Bool) (bad : List Nat := []) : State :=
  let ws := s.pagePoison pg t ta f intoFrame
  let met := bad.filter fun w => w / 4096 == pg && !ws.contains (w * 16)
  let lost := s.failedBlocks t ta
  let s := (s.copyPage t ta f intoFrame).poisonMoved t ta f intoFrame met
  let s := match lost with
    | b :: _ => s.errAddr t 2 (pg * 65536 + 512 * b)
    | [] => s
  s.consumePoison (tierOrig t) (ws ++ met.map (· * 16))

/-- A page becomes resident: it takes the next place in the order of residents. Its LEAVE_AT may have passed while it was on its way. -/
def State.becomeResident (s : State) (pg t f : Nat) (dirty : Bool) : State :=
  let m := s.tier t
  (s.setTier t { m with arrivals := m.arrivals + 1 }).setPage pg
    { state := .resident, frame := f, dirty, leavePassed := m.queue.any fun q => q.kind == .leave && q.page == pg
      order := m.arrivals + 1 }

/-- The horizons that a page's blocks lie in. -/
def pageHorizons (ta : Nat) : List Nat := ((List.range 128).map fun b => (deepPlace (ta + 512 * b)).horizon).eraseDups

/-- Does a page move between a tower's deep tier and its frames meet a lost through domain? -/
def State.movePathLost (s : State) (t ta : Nat) : Bool :=
  (pageHorizons ta).any fun h => ((PathEnd.horizon h).inner t).any s.domainLost

/-- What holds a page move back, if anything does: the cache die or a horizon of the page in reset (R22), or a tower whose memory
channels admit no transfer (R25). A move that meets a lost domain is not held (R24). -/
def State.moveHolder (s : State) (t ta : Nat) : Option Holder :=
  if s.movePathLost t ta then none
  else match s.towerHolder (tierOrig t) t (.horizon 0) with
    | some h => some h
    | none => ((pageHorizons ta).find? (s.tower t).horizonReset.contains).map (.horizon t)

/-- Is a page move held back (R22, R25)? -/
def State.moveHeld (s : State) (t ta : Nat) : Bool := (s.moveHolder t ta).isSome

/-- A frame returns to the pool, to be zeroed in the background (R245). -/
def State.freeUp (s : State) (t f : Nat) : State := s.setFrame t f .unzeroed

/-- A write-back ends (R243, R244, R253): the page becomes ABSENT and its frame is free, or HOME_LOST where the path is
lost. -/
def State.finishLeave (s : State) (pg : Nat) (bad : List Nat := []) : State :=
  let x := s.page pg
  let (t, ta) := s.pageHome pg
  if x.dirty && s.movePathLost t ta then
    (s.setPage pg { x with state := .homeLost }).errAddr t 3 (pg * 65536)
  else
    let s := if x.dirty then s.movePage pg t ta x.frame false bad else s
    ((s.setPage pg {}).freeUp t x.frame).incWrap (Reg.TIER_PAGE_CNT_LEFT t)

/-- The oldest resident page of a class past its LEAVE_AT in a tower (R247). -/
def State.oldestPast (s : State) (t cls : Nat) : Option Nat :=
  let ps := s.pages.filter fun e => e.2.state == .resident && e.2.leavePassed && (s.pageHome e.1).1 == t &&
    (match s.regionOf e.1 with
      | some r => r.cls == cls
      | none => false)
  (ps.foldl (fun (b : Option (Nat × Nat)) e => match b with
    | none => some (e.1, e.2.order)
    | some (p, o) => if e.2.order < o then some (e.1, e.2.order) else some (p, o)) none).map (·.1)

/-- A STASH page that finds no free frame takes that of the oldest resident page past its LEAVE_AT (R247). -/
def State.makeRoom (s : State) (t cls : Nat) : State :=
  match s.freeFrame t cls, s.oldestPast t cls with
  | none, some old => if cls = 2 then s.finishLeave old else s
  | _, _ => s

/-- A frame as a page takes it: zero (R245). -/
def State.cleanFrame (s : State) (t f : Nat) : State :=
  if Sparse.get FrameSt.free (s.tier t).frames f = .unzeroed then s.zeroFrame t f else s

/-- The first write to an EMPTY page: it takes a zeroed frame; where there is none, it spills to the deep tier, zero but for
the write (R245, R247); zeros whose path is lost do not arrive. -/
def State.firstWrite (s : State) (pg : Nat) (r : Region) : State :=
  let (t, ta) := s.pageHome pg
  let s := s.makeRoom t r.cls
  match s.freeFrame t r.cls with
  | some f => ((s.cleanFrame t f).setFrame t f .used).becomeResident pg t f true
  | none =>
    let s := (if s.movePathLost t ta then s else s.zeroDeepPage t ta).setPage pg { state := .spilled }
    (s.incWrap (Reg.TIER_PAGE_CNT_SPILLED t)).setB (Reg.TIER_STATUS_SPILL t)

/-- A write to an EMPTY managed page is its first (R242). -/
def State.openPage (s : State) (a : Nat) : State :=
  match s.place a, s.regionOf (a / 65536) with
  | .deep .., some r => if (s.page (a / 65536)).state == PageState.empty then s.firstWrite (a / 65536) r else s
  | _, _ => s

/-- A write to a page served from its frame makes it dirty. -/
def State.markDirty (s : State) (a : Nat) : State :=
  match s.place a with
  | .deep .. =>
    let pg := s.page (a / 65536)
    if pg.state.inFrame then s.setPage (a / 65536) { pg with dirty := true } else s
  | _ => s

/-! ### Writing -/

/-- Write the part of one 128-bit word that starts at `a`. -/
def State.writeWord (s : State) (a : Nat) (bs : List DataByte) : State :=
  let s := s.openPage a
  if s.chanFailed a then s
  else match s.keyOf a with
    | none => s
    | some k => (s.markDirty a).putWord k bs

/-- Write bytes, word by word. [DEDUCED: log entry 7] -/
def State.writeBytes (s : State) (a : Nat) (bs : List DataByte) : State :=
  (wordParts a bs).foldl (fun s w => s.writeWord w.1 w.2) s

/-- A write takes the EMPTY pages it reaches out of that state (R245). -/
def State.openRange (s : State) (a n : Nat) : State := (rangeWords a n).foldl State.openPage s

/-! ### Accesses (R224, R225, R252) -/

/-- An access completes with ADDR_FAULT: the event, and the status and address of exactly one tower (R225). -/
def State.addrFault (s : State) (o : Orig) (a : Nat) : State :=
  let t := ((s.place a).home).getD (origTower o)
  ((s.record .addressFault (origSource o) [pv6 a, pv2 (origCode o)]).setB (Reg.TIER_STATUS_ADDR_FAULT t)).errAddr t 1 a

/-- Does R225 refuse the byte? Reserved addresses, and page pools by near-tier address. -/
def State.refused (s : State) (a : Nat) : Bool :=
  match s.place a with
  | .reserved => true
  | .near t off => decide (s.poolStart t ≤ off) && decide (0 < s.poolFrames t)
  | _ => false

/-- May the originator read or write the register region this way? From inside the package only aligned 32-bit and
64-bit accesses, and no write to an RWT field (R225). -/
def regionFault (off n : Nat) (write : Bool) : Bool :=
  (n != 4 && n != 8) || off % n != 0 ||
    (write && (match regAccess off n with
      | some (fam, _, part) => fam.fields.any fun r => r.acc == .rwt &&
          (match part with
            | .whole => true
            | .lower => decide (r.lo < 32)
            | .upper => decide (r.lo + r.width > 32))
      | none => false))

/-- Is the address in the register region? -/
def State.inRegion (s : State) (a : Nat) : Bool :=
  match s.place a with
  | .reg _ => true
  | _ => false

/-- Does R225 refuse an access? One that begins outside the register region must not reach into it. -/
def State.accessFault (s : State) (a n : Nat) (write : Bool) : Bool :=
  match s.place a with
  | .reg off => regionFault off n write
  | _ => (rangeWords a n).any fun w => s.refused w || s.inRegion w

/-- The addresses of the words an access covers that lie in failed channels. -/
def State.failedWords (s : State) (a n : Nat) : List Nat := (rangeWords a n).filter s.chanFailed

/-- A path to one of the words is lost. -/
def State.rangePathLost (s : State) (o : Orig) (a n : Nat) : Bool := (rangeWords a n).any (s.pathLost o)

/-- What holds an access to some bytes: the first word of it that a die holds back (R22, R23, R25). An access that crosses a
lost domain, or that R225 refuses, is not held: it completes at once (R24, R30). [DEDUCED: log entry 20] -/
def State.rangeHolder (s : State) (o : Orig) (a n : Nat) : Option Holder :=
  if s.accessFault a n false || s.rangePathLost o a n then none else (rangeWords a n).findSome? (s.holderOf o)

/-- A sleeping tower starts to leave sleep: its switches close and its lanes retrain (R26). [DEDUCED: log entry 20] -/
def State.wake (s : State) (t : Nat) : State :=
  let x := s.tower t
  if x.sleep = .asleep then s.setTower t { x with sleep := .leaving, trained := false } else s

/-- A request is held; where a tower asleep holds it, it ends that sleep (R425, R484). [DEDUCED: log entry 20] -/
def State.holdReq (s : State) (r : HeldReq) : State :=
  let s := { s with held := s.held ++ [r] }
  match r.holder with
  | .sleep t => s.wake t
  | _ => s

/-- Does a place lie in a tower's near tier or horizons? -/
def Place.inTiers (x : Place) (t : Nat) : Bool :=
  match x with
  | .deep u _ | .near u _ => u == t
  | _ => false

/-- An access that counts for R485: the towers whose near tier or horizons it addresses are idle no more.
[DEDUCED: log entry 20] -/
def State.countAccess (s : State) (a n : Nat) : State :=
  [0, 1, 2, 3].foldl (fun s t =>
    if (s.tower t).idle && (rangeWords a n).any fun w => (s.place w).inTiers t then
      s.setTower t { s.tower t with idle := false }
    else s) s

/-- Does a die in reset, or a tower asleep, hold one of some stores back? -/
def State.storesHeld (s : State) (o : Orig) (ws : List (Nat × List DataByte)) : Bool :=
  ws.any fun w => (s.rangeHolder o w.1 w.2.length).isSome

/-- Read through the internal paths: the status, the bytes, and the state after the access. -/
def State.memRead (s : State) (o : Orig) (a n : Nat) : Nat × List DataByte × State :=
  if s.accessFault a n false then (stAddrFault, List.replicate n none, s.addrFault o a)
  else match s.place a with
    | .reg off =>
      if s.regPathLost o off then (stPathLost, List.replicate n none, s)
      else
        let (v, s) := s.readReg 0 off n
        (stOk, (leBytes n v).map some, s)
    | _ =>
      if s.rangePathLost o a n then (stPathLost, List.replicate n none, s)
      else
        match s.failedWords a n with
        | [] => (stOk, s.readBytes a n, s)
        | w :: _ =>
          let t := ((s.place w).home).getD 0
          (stChanFail, s.readBytes a n, s.errAddr t 2 w)

/-- A write of a register from inside the device by an engine that no command of its own speaks for: the fields act under
their access codes (R225). The value of a poisoned store to a register is stated nowhere.
[DEDUCED: log entry 7; DESIGN CHOICE: log entry 12] -/
def State.plainRegWrite (s : State) (off n : Nat) (bs : List DataByte) : State :=
  let (v, s) := if bs.any (·.isNone) then s.drawWord else (leNat (bs.map (·.getD 0)), s)
  match regAccess off n with
  | some (_, ro, part) => s.writeReg ro ⟨0, part, v⟩ fun r => !r.own
  | none => s

/-- Write through the internal paths: the status, and the state after the access. A first write to an EMPTY page takes its
frame, or spills, before the word's path is known (R245, R247). -/
def State.memWrite (s : State) (o : Orig) (a : Nat) (bs : List DataByte) : Nat × State :=
  let n := bs.length
  if s.accessFault a n true then (stAddrFault, s.addrFault o a)
  else match s.place a with
    | .reg off => if s.regPathLost o off then (stPathLost, s) else (stOk, s.plainRegWrite off n bs)
    | _ =>
      if s.rangePathLost o a n then (stPathLost, s)
      else
        let s := s.openRange a n
        if s.rangePathLost o a n then (stPathLost, s)
        else match s.failedWords a n with
          | [] => (stOk, s.writeBytes a bs)
          | w :: _ =>
            let t := ((s.place w).home).getD 0
            (stChanFail, (s.writeBytes a bs).errAddr t 2 w)

/-! ### The storage code at the controllers (R237) -/

/-- What a word at a storage key decodes to with some bits changed (R236). -/
def State.decodeAt (s : State) (k : Nat) (error : Word144) : Decoded := decode144 (s.poisoned k) (s.dataAt k) error

/-- The rows a tower manager keeps for sparing: one more uncorrectable word, or one more corrected word, of a row (R250). -/
def TierSt.noteRow (m : TierSt) (row : Option Nat) (addr : Nat) (bad : Bool) : TierSt :=
  match row with
  | none => m
  | some r =>
    if bad then { m with rowUncorrectable := if m.rowUncorrectable.contains r then m.rowUncorrectable
                                             else m.rowUncorrectable ++ [r] }
    else
      let ws := Sparse.get [] m.rowErrors r
      { m with rowErrors := Sparse.put [] m.rowErrors r (if ws.contains (addr / 16) then ws else ws ++ [addr / 16]) }

/-- What a controller or scrub engine does with a word it decoded from storage at a key, with some bits changed: counts, the
event, the word as it goes on, and the rows that sparing watches (R237, R249, R250). [DEDUCED: log entry 8] -/
def State.storageWord (s : State) (t key addr pos : Nat) (row : Option Nat) (error : Word144) : State :=
  match s.decodeAt key error with
  | .clean d => if s.poisoned key ∨ d ≠ s.dataAt key then (s.unpoisonKey key).putData key d else s
  | .poison => if s.poisoned key then s else s.poisonKey key
  | .corrected d =>
    let m := (s.tier t).noteRow row addr false
    let s := if s.poisoned key ∨ d ≠ s.dataAt key then (s.unpoisonKey key).putData key d else s
    (s.setTier t { m with correctedPending := m.correctedPending ++ [addr / 16 * 16] }).incWrap (Reg.TIER_ECC_CORR t)
  | .uncorrectable =>
    let s := ((s.poisonKey key).setTier t ((s.tier t).noteRow row addr true)).incStop (Reg.TIER_ECC_UNCORR t)
    ((s.setB (Reg.TIER_STATUS_UNCORR t)).record .storageUncorrectable (source t pos 0)
      [pv6 addr, pv1 t, pv1 pos]).errAddr t 0 addr

/-- The position code of the die whose storage holds a place as it is served: a horizon, the cache die or the crown. -/
def PathEnd.pos : PathEnd → Nat
  | .brim => 0
  | .horizon h => 5 - h
  | .cacheDie => 6
  | .crown => 7

/-- A word that a command reads has bits changed in storage (R237); bits changed on the path leave storage alone.
[DESIGN CHOICE: log entry 8] -/
def State.eccHit (s : State) (h : EccHit) : State :=
  if h.later then { s with upsets := s.upsets ++ [{ h with later := false }] }
  else if h.onPath || s.chanFailed h.addr then s
  else match s.dieOf h.addr, s.keyOf h.addr with
    | some (t, e), some k =>
      let row := match s.channelOf h.addr, s.place h.addr with
        | some _, .deep _ ta => some (deepPlace ta).rowId
        | _, _ => none
      s.storageWord t k h.addr e.pos row h.error
    | _, _ => s

/-- The hits of a command, one after another (R237). [DESIGN CHOICE: log entry 8] -/
def State.eccHits (s : State) (hs : List EccHit) : State := hs.foldl State.eccHit s

/-- The words (address ÷ 16) that decode as uncorrectable, or as poison, on the path to the consumer alone: it treats them as
poison, and nothing else happens (R237). [DEDUCED: log entry 8] -/
def State.pathBad (s : State) (hs : List EccHit) : List Nat :=
  (hs.filter fun h => h.onPath && !h.later && (match s.keyOf h.addr with
    | some k => (s.decodeAt k h.error).bad
    | none => (decode144 false 0 h.error).bad)).map (·.addr / 16)

/-- Bytes read from an address, where the path spoiled some words. -/
def spoil (bad : List Nat) (a : Nat) (bs : List DataByte) : List DataByte :=
  if bad = [] then bs else bs.zipIdx.map fun e => if bad.contains ((a + e.2) / 16) then none else e.1

/-! ### Reads that no operand of a command speaks for -/

/-- A read of some bytes meets the bits of their words that have changed (R234, R237): the words that the path spoils, and the
state in which the controllers have decoded the words. [DESIGN CHOICE: log entry 8] -/
def State.meet (s : State) (a n : Nat) : List Nat × State :=
  let mine := s.upsets.filter fun h => (rangeWords a n).any fun w => w / 16 == h.addr / 16
  if mine = [] then ([], s)
  else (s.pathBad mine, ({ s with upsets := s.upsets.filter fun h => !mine.contains h } : State).eccHits mine)

/-- Read through the internal paths, and meet the bits of the words that have changed. An access that completes without a read of
storage meets none. [DESIGN CHOICE: log entry 8] -/
def State.memReadMet (s : State) (o : Orig) (a n : Nat) : Nat × List DataByte × State :=
  if s.accessFault a n false || s.rangePathLost o a n then s.memRead o a n
  else
    let (bad, s) := s.meet a n
    let (st, bs, s) := s.memRead o a n
    (st, spoil bad a bs, s)

/-- Read through the internal paths as an engine that computes on the bytes does: poison met is consumed, and a byte that did not
come is a free value. The status, the bytes with their poison, the bytes, and the state after the access.
[DESIGN CHOICE: log entry 12] -/
def State.readFree (s : State) (o : Orig) (a n : Nat) : Nat × List DataByte × List Byte × State :=
  let (st, data, s) := s.memReadMet o a n
  let s := if st = stAddrFault ∨ st = stPathLost then s else s.consumePoison o (poisonWords a data)
  let (free, s) := if data.any (·.isNone) then s.drawBytes n else ([], s)
  (st, data, data.zipIdx.map (fun (d, i) => d.getD (free.getD i 0)), s)

end Sys2Proof.Machine
end

