-- ==== Sys2Proof/Machine/Fabric.lean ====
section
/-! DEFINITION. The fabric: packets and their checks (R288, R289), frames, sequence numbers and credits (R284 to R286),
injection and ejection (R298). -/

namespace Sys2Proof.Machine

/-! ### CRC-32 and bytes -/

/-- One byte of the IEEE 802.3 CRC-32, bit-reflected. -/
def crc32Byte (c : Nat) (b : Byte) : Nat :=
  (List.range 8).foldl (fun c _ => if c % 2 = 1 then (c / 2) ^^^ 0xEDB88320 else c / 2) (c ^^^ b.toNat)

/-- CRC-32 with the IEEE 802.3 polynomial. -/
def crc32 (bs : List Byte) : Nat := (bs.foldl crc32Byte 0xFFFFFFFF) ^^^ 0xFFFFFFFF

/-- Put bytes into a layout at an offset. -/
def setField (bs : List Byte) (off : Nat) (vs : List Byte) : List Byte :=
  bs.take off ++ vs ++ bs.drop (off + vs.length)

/-! ### Coordinates (R288) -/

def cx (c : Nat) : Nat := bits c 3 0
def cy (c : Nat) : Nat := bits c 7 4
def cz (c : Nat) : Nat := bits c 12 8
def cplane (c : Nat) : Nat := bits c 13 13
def mkCoord (x y z p : Nat) : Nat := x + y * 16 + z * 256 + p * 8192

/-- A coordinate by dimension: 0 x, 1 y, 2 z. -/
def cdim (c : Nat) : Nat → Nat
  | 0 => cx c
  | 1 => cy c
  | _ => cz c

def setDim (c d v : Nat) : Nat :=
  match d with
  | 0 => mkCoord v (cy c) (cz c) (cplane c)
  | 1 => mkCoord (cx c) v (cz c) (cplane c)
  | _ => mkCoord (cx c) (cy c) v (cplane c)

def State.dimSize (s : State) : Nat → Nat
  | 0 => s.rd Reg.HB_PLANE_DIMX
  | 1 => s.rd Reg.HB_PLANE_DIMY
  | _ => s.rd Reg.HB_PLANE_DIMZ

/-- This package's physical coordinate, and its logical one: that of the package it has taken over (R306). -/
def State.physSelf (s : State) : Nat := s.rd Reg.HB_COORD_COORD
def State.logSelf (s : State) : Nat := s.fabric.takenOver.getD s.physSelf

/-- HB_PLANE and HB_COORD are valid (R311). -/
def State.coordsValid (s : State) : Bool :=
  let ok (d top : Nat) : Bool := decide (1 ≤ s.dimSize d) && decide (s.dimSize d ≤ top) &&
    decide (cdim s.physSelf d < s.dimSize d)
  s.rdB Reg.HB_COORD_VALID && ok 0 16 && ok 1 16 && ok 2 32

/-- The neighbour of a coordinate in a dimension and direction. -/
def State.neighbour (s : State) (c d : Nat) (neg : Bool) : Nat :=
  let n := s.dimSize d
  setDim c d (if n = 0 then cdim c d else if neg then (cdim c d + n - 1) % n else (cdim c d + 1) % n)

/-- Link number by dimension, direction and index; 12 and 13 are the twin links (R281). -/
def linkNo (d : Nat) (neg : Bool) (idx : Nat) : Nat := if d = 3 then 12 + idx else d * 4 + (if neg then 2 else 0) + idx
def linkDim (l : Nat) : Nat := if 12 ≤ l then 3 else l / 4
def linkNeg (l : Nat) : Bool := l < 12 && 2 ≤ l % 4
def linkIdx (l : Nat) : Nat := l % 2

/-- The brim of a link (R281). -/
def linkBrim (l : Nat) : Nat := [0, 1, 0, 2, 0, 2, 0, 2, 1, 3, 1, 3, 2, 3].getD l 0

/-- The index of the TAKEN spare that stands for a failed coordinate, as HB_FAIL has it, or, for a failure that found HB_FAIL full, as
the takeover named it (R298, R306, R307). [DEDUCED: log entry 16] -/
def State.takenSpare (s : State) (c : Nat) : Option Nat :=
  let listed := (List.range 32).filterMap fun n =>
    if s.rdB (Reg.HB_FAIL_VALID n) && s.rdB (Reg.HB_FAIL_SPARED n) && s.rd (Reg.HB_FAIL_COORD n) == c then
      some (s.rd (Reg.HB_FAIL_SPIDX n)) else none
  let more := (s.fabric.overSpared.filter (·.1 == c)).map (·.2)
  (listed ++ more).find? fun k => s.rdB (Reg.HB_SPARE_TAKEN k)

/-- The physical coordinate that stands for a destination: the spare that a takeover put in its place (R298, R306). -/
def State.physOf (s : State) (dst : Nat) : Nat :=
  match s.takenSpare dst with
  | some k => s.rd (Reg.HB_SPARE_SPARE k)
  | none => dst

/-! ### Packets -/

def Pkt.dst (p : Pkt) : Nat := fieldNat p.hdr 0 2 % 16384
def Pkt.src (p : Pkt) : Nat := fieldNat p.hdr 2 2 % 16384
def Pkt.vc (p : Pkt) : Nat := fieldNat p.hdr 4 1 % 32
def Pkt.rflags (p : Pkt) : Nat := fieldNat p.hdr 5 1
def Pkt.detour (p : Pkt) : Bool := bit p.rflags 0
def Pkt.twinDone (p : Pkt) : Bool := bit p.rflags 1
def Pkt.len (p : Pkt) : Nat := fieldNat p.hdr 6 2 % 8192
def Pkt.poison (p : Pkt) : Bool := bit (fieldNat p.hdr 6 2) 15
def Pkt.hops (p : Pkt) : Nat := fieldNat p.hdr 8 1
def Pkt.kind (p : Pkt) : Nat := fieldNat p.hdr 9 1
def Pkt.flow (p : Pkt) : Nat := fieldNat p.hdr 10 2
def Pkt.addr (p : Pkt) : Nat := fieldNat p.hdr 12 6
def Pkt.tag (p : Pkt) : Nat := fieldNat p.hdr 18 2
def Pkt.flits (p : Pkt) : Nat := 1 + (p.data.length + 63) / 64

/-- The class of a channel: 0 MGT, 1 REQ, 2 RSP, 3 PARAM, 4 RED (R290). -/
def vcClass (vc : Nat) : Nat :=
  if vc < 8 then vc / 2 else if vc < 16 then 4 else (vc - 16) / 2

/-- ECRC of a packet (R288): over the header before ECRC with bytes 4, 5 and 8 as zero, the extension and the payload.
[DEDUCED: log entry 17] -/
def Pkt.ecrcOf (p : Pkt) : Nat :=
  let h := setField (setField p.hdr 4 [0, 0]) 8 [0]
  crc32 (h.take 28 ++ h.drop 32 ++ p.data)

def Pkt.ecrcOk (p : Pkt) : Bool := p.ecrcOf == fieldNat p.hdr 28 4

/-- A payload in whole 128-bit words: LEN is a multiple of 16 (R288), and zeros fill the last word.
[DESIGN CHOICE: log entry 17] -/
def wholeWords (data : List Byte) : List Byte := padBytes ((data.length + 15) / 16 * 16) data

/-- A packet before injection: destination, source, channel, kind, payload with POISON, flow, address, KDATA and
extension. -/
def Pkt.make (dst src vc kind : Nat) (poison : Bool) (flow addr : Nat) (kdata ext payload : List Byte) : Pkt :=
  let data := wholeWords payload
  ⟨leBytes 2 dst ++ leBytes 2 src ++ leBytes 1 vc ++ leBytes 1 0 ++ leBytes 2 (data.length + poison.toNat * 32768)
    ++ leBytes 1 40 ++ leBytes 1 kind ++ leBytes 2 flow ++ leBytes 6 addr ++ padBytes 10 kdata ++ leBytes 4 0
    ++ padBytes 32 ext, data⟩

def State.modFabric (s : State) (f : FabricSt → FabricSt) : State := { s with fabric := f s.fabric }
def State.link (s : State) (l : Nat) : LinkSt := Sparse.get {} s.fabric.links l
def State.setLink (s : State) (l : Nat) (x : LinkSt) : State :=
  s.modFabric fun f => { f with links := Sparse.put {} f.links l x }
def State.injectQ (s : State) (b : Nat) : List InjPkt := Sparse.get [] s.fabric.inject b
def State.setInjectQ (s : State) (b : Nat) (q : List InjPkt) : State :=
  s.modFabric fun f => { f with inject := Sparse.put [] f.inject b q }

/-- A packet with its ECRC. -/
def Pkt.sealed (p : Pkt) : Pkt := { p with hdr := setField p.hdr 28 (leBytes 4 p.ecrcOf) }

/-- Inject a packet at a brim: the spare remap, HOPS and ECRC (R288, R298). -/
def State.injectPkt (s : State) (b : Nat) (merged taken : Bool) (p : Pkt) (way : Option (Nat × Bool) := none) : State :=
  let p := { p with hdr := setField (setField p.hdr 0 (leBytes 2 (s.physOf p.dst))) 8 [40] }.sealed
  s.setInjectQ b (s.injectQ b ++ [⟨p, merged, taken, way⟩])

/-- Is the way of a packet that changes brim cut: does it cross a lost brim domain, by the same-row relay where the brims are diagonal
(R30, R38, R282)? Such a packet is discarded. [DEDUCED: log entry 20] -/
def State.brimCut (s : State) (a b : Nat) : Bool := a != b && (s.route a b 0).any fun t => s.domainLost (t, 0)

/-- Can an originator send a packet at a brim: is neither its path down to its own brim lost, nor the way from there (R30, R511)?
What it cannot send is discarded. [DEDUCED: log entry 20] -/
def State.sendsAt (s : State) (o : Orig) (b : Nat) : Bool := !s.cutOff o && !s.brimCut (origTower o) b

/-- Send a packet of MGT, REQ, RSP or PARAM whose flow number the sender chooses freely (R288). [DESIGN CHOICE: log entry 17] -/
def State.sendPkt (s : State) (b cls dst kind : Nat) (poison : Bool) (addr : Nat) (kdata ext data : List Byte) : State :=
  let (w, s) := s.drawWord
  s.injectPkt b false false (Pkt.make dst s.physSelf (2 * cls) kind poison (w % 65536) addr kdata ext data)

/-- An originator sends at its own brim what it can (R30, R511). -/
def State.sendOwn (s : State) (o : Orig) (send : State → State) : State := if s.cutOff o then s else send s

/-- Take the first ejected packet of a class and kind whose ECRC holds; one whose ECRC fails is discarded and counted
(R289). -/
def State.takeEjected (s : State) (cls kind : Nat) : Option (Nat × Pkt) × State :=
  match s.fabric.ejected.find? fun e => vcClass e.2.vc == cls && e.2.kind == kind with
  | none => (none, s)
  | some e =>
    let s := s.modFabric fun f => { f with ejected := f.ejected.erase e }
    if e.2.ecrcOk then (some e, s) else (none, s.incStop Reg.HB_DROP_ECRC_ERR)

/-- Payload bytes as the destination takes them: all poison when POISON is set (R289). -/
def Pkt.bytes (p : Pkt) : List DataByte := p.data.map fun b => if p.poison then none else some b

/-! ### Frames (R284 to R286) -/

/-- A frame: frame control, forty slots, FCRC. [DEDUCED: log entry 17] -/
def mkFrame (fctl : Nat) (slots : List Byte) : List Byte :=
  let body := leBytes 6 fctl ++ padBytes 2560 slots
  body ++ leBytes 4 (crc32 body)

def frameCtl (ty fseq ack : Nat) (nak : Bool) (cvc ccnt : Nat) : Nat :=
  ty + fseq * 2 ^ 3 + ack * 2 ^ 15 + nak.toNat * 2 ^ 27 + cvc * 2 ^ 28 + ccnt * 2 ^ 33

def frameType (bs : List Byte) : Nat := bits (fieldNat bs 0 6) 2 0

/-- Flits of a channel that a sender may still send on it, and with the pool (R286): 128 per channel, 24 channels, and the
rest of 12,288 in the pool. -/
def poolFlits : Nat := 12288 - 24 * 128
def LinkSt.ownCredits (k : LinkSt) (vc : Nat) : Nat := 128 - Sparse.get 0 k.vcUsed vc
def LinkSt.credits (k : LinkSt) (vc : Nat) : Nat := k.ownCredits vc + (poolFlits - k.poolUsed)

/-- Spend credits, the channel's own first. [DEDUCED: log entry 17] -/
def LinkSt.spend (k : LinkSt) (vc n : Nat) : LinkSt :=
  let own := min n (128 - Sparse.get 0 k.vcUsed vc)
  { k with vcUsed := Sparse.put 0 k.vcUsed vc (Sparse.get 0 k.vcUsed vc + own), poolUsed := k.poolUsed + (n - own) }

/-- Take returned credits (CVC 31 is the pool). The partner counts a flit on its channel where it finds room there, though it may have
been sent on a credit of the pool: credits beyond what the channel has in use go back to the pool. [DEDUCED: log entry 17] -/
def LinkSt.refund (k : LinkSt) (cvc n : Nat) : LinkSt :=
  if cvc = 31 then { k with poolUsed := k.poolUsed - n }
  else
    let used := Sparse.get 0 k.vcUsed cvc
    { k with vcUsed := Sparse.put 0 k.vcUsed cvc (used - n), poolUsed := k.poolUsed - (n - used) }

/-- Put one frame on a link: it acknowledges, returns credits, and stays in the replay buffer (R284, R285). -/
def State.putFrame (s : State) (l ty : Nat) (nak : Bool) (slots : List Byte) (heads : Nat) (cont delivery : Bool) : State :=
  let k := s.link l
  let ack := if nak then k.rxSeq else (k.rxSeq + 4095) % 4096
  let (cvc, ccnt) := k.owed.headD (31, 0)
  let bs := mkFrame (frameCtl ty k.txSeq ack nak cvc (min ccnt 4095)) slots
  let owed := if 4095 < ccnt then (cvc, ccnt - 4095) :: k.owed.drop 1 else k.owed.drop 1
  (s.setLink l { k with txSeq := (k.txSeq + 1) % 4096, replay := k.replay ++ [⟨bs, heads, cont, delivery⟩], owed }).emit
    (.frame l bs)

/-- Send a frame that carries no packet: one that finds the replay buffer full waits for room (R285).
[DEDUCED: log entry 17] -/
def State.sendFrame (s : State) (l ty : Nat) (nak : Bool) (slots : List Byte) : State :=
  let k := s.link l
  if 512 ≤ k.replay.length ∨ k.waiting ≠ [] then s.setLink l { k with waiting := k.waiting ++ [⟨ty, nak, slots⟩] }
  else s.putFrame l ty nak slots 0 false false

/-- Frames that wait go out, as far as the replay buffer has room. -/
def State.sendWaiting (s : State) (l : Nat) : Nat → State
  | 0 => s
  | n + 1 =>
    let k := s.link l
    match k.waiting with
    | [] => s
    | w :: r =>
      if 512 ≤ k.replay.length then s
      else ((s.setLink l { k with waiting := r }).putFrame l w.type w.nak w.slots 0 false false).sendWaiting l n

/-- Frames a packet's flits need. -/
def Pkt.frames (p : Pkt) : Nat := (p.flits + 39) / 40

/-- Is the packet part of a delivery (R340)? -/
def Pkt.isDelivery (p : Pkt) : Bool := vcClass p.vc == 3 && (p.kind == 0x41 || p.kind == 0x42)

/-- Send a packet's flits, forty to a frame. -/
def State.sendFlits (s : State) (l : Nat) (delivery : Bool) : Nat → List Byte → Bool → State
  | 0, _, _ => s
  | n + 1, bs, first =>
    (s.putFrame l 0 false (bs.take 2560) first.toNat (!first) delivery).sendFlits l delivery n (bs.drop 2560) false

/-- Can the link carry the packet now: credits (on a reduction channel after an adder or from injection, those of the channel
itself for two full pieces, R334) and room in the replay buffer? -/
def State.linkRoom (s : State) (l : Nat) (p : Pkt) (two : Bool) : Bool :=
  let k := s.link l
  (if two then decide (74 ≤ k.ownCredits p.vc) else decide (p.flits ≤ k.credits p.vc)) &&
    decide (k.waiting = []) && decide (k.replay.length + p.frames ≤ 512)

/-- Put a packet on a link. [DEDUCED: log entry 17] -/
def State.transmit (s : State) (l : Nat) (p : Pkt) : State :=
  let s := s.setLink l ((s.link l).spend p.vc p.flits)
  s.sendFlits l p.isDelivery p.frames (p.hdr ++ padBytes (64 * ((p.data.length + 63) / 64)) p.data) true

/-- Acknowledge frames up to and including a sequence number (R285). [DEDUCED: log entry 17] -/
def LinkSt.ackTo (k : LinkSt) (ack : Nat) : LinkSt :=
  let oldest := (k.txSeq + 4096 - k.replay.length) % 4096
  let n := (ack + 1 + 4096 - oldest) % 4096
  if n ≤ k.replay.length then { k with replay := k.replay.drop n } else k

/-- Take a frame that was received: its checks, its acknowledgement and its credits (R285, R286). none where it is
rejected or discarded. `ok` says that all four codewords decoded, `corrected` how many needed correction.
[DEDUCED: log entry 17] -/
def State.takeFrame (s : State) (l : Nat) (ok : Bool) (corrected : Nat) (bs : List Byte) : Bool × State :=
  let s := s.incWrap (Reg.HB_LINK_ERR_CORR_CW l) corrected
  let f := padBytes 2570 bs
  if !ok || crc32 (f.take 2566) != fieldNat f 2566 4 then
    (false, (s.incStop (Reg.HB_LINK_ERR_BAD_FRAME l)).sendFrame l 0 true [])
  else
    let c := fieldNat f 0 6
    let k := s.link l
    if bits c 14 3 != k.rxSeq then (false, s)
    else
      let k := { k with rxSeq := (k.rxSeq + 1) % 4096 }
      let ack := bits c 26 15
      let nak := bit c 27
      let k := k.ackTo (if nak then (ack + 4095) % 4096 else ack)
      let k := k.refund (bits c 32 28) (bits c 44 33)
      let s := s.setLink l k
      let s := if nak then k.replay.foldl (fun s r => s.emit (.frame l r.bytes)) s else s
      (true, s.sendWaiting l k.waiting.length)

/-- Flits of a channel enter the ingress buffer: on the channel's own part first, as the sender counts them. -/
def LinkSt.hold (k : LinkSt) (p : Pkt) : LinkSt :=
  let used := Sparse.get 0 k.vcHeld p.vc
  let own := min p.flits (128 - used)
  { k with ingress := k.ingress ++ [⟨p, own, p.flits - own⟩], vcHeld := Sparse.put 0 k.vcHeld p.vc (used + own)
           poolHeld := k.poolHeld + (p.flits - own) }

/-- A packet leaves the ingress buffer, and its credits are owed to the sender. -/
def LinkSt.release (k : LinkSt) (e : InPkt) : LinkSt :=
  let vc := e.pkt.vc
  let add (o : List (Nat × Nat)) (v n : Nat) : List (Nat × Nat) := if n = 0 then o else o ++ [(v, n)]
  { k with ingress := k.ingress.erase e, vcHeld := Sparse.put 0 k.vcHeld vc (Sparse.get 0 k.vcHeld vc - e.own)
           poolHeld := k.poolHeld - e.pool, owed := add (add k.owed vc e.own) 31 e.pool }

/-- The flit slots of a data frame in order: idle flits between packets are skipped, and a packet enters the buffer with
its last flit (R284). -/
def LinkSt.absorb (k : LinkSt) : Nat → List Byte → LinkSt
  | 0, _ => k
  | n + 1, bs =>
    let slot := bs.take 64
    let rest := bs.drop 64
    if k.partialPkt = [] ∧ slot.all (· == 0) then k.absorb n rest
    else
      let got := k.partialPkt ++ slot
      let len := fieldNat got 6 2 % 8192
      if got.length ≥ 64 + 64 * ((len + 63) / 64) then
        ({ k with partialPkt := [] }.hold ⟨got.take 64, (got.drop 64).take len⟩).absorb n rest
      else { k with partialPkt := got }.absorb n rest

/-! ### Link states -/

def State.linkState (s : State) (l : Nat) : Nat := s.rd (Reg.HB_LINK_STATUS_STATE l)
def State.linkActive (s : State) (l : Nat) : Bool := s.linkState l == 8
def State.linkUp (s : State) (l : Nat) : Bool := s.linkState l == 8 || s.linkState l == 7

/-- A link begins to carry frames: sequence numbers and credits start anew. -/
def State.startLink (s : State) (l : Nat) : State :=
  let k := s.link l
  s.setLink l { ({} : LinkSt) with ingress := k.ingress.map fun e => { e with own := 0, pool := 0 }
                                   partnerPlane := k.partnerPlane }

/-- A link stops: frames in its replay buffer are gone, with the packets they held. -/
def State.dropLink (s : State) (l : Nat) : Nat × State :=
  let k := s.link l
  let lost := (k.replay.map (·.heads)).sum + (match k.replay with
    | r :: _ => r.cont.toNat
    | [] => 0)
  (lost, s.setLink l { k with replay := [], partialPkt := [], owed := [], waiting := [] })

/-- Declare a link DOWN (R287). -/
def State.declareDown (s : State) (l reason : Nat) : State :=
  let (lost, s) := s.dropLink l
  let s := s.incStop (Reg.HB_LINK_ERR_LOST_PKT l) lost
  ((s.wr (Reg.HB_LINK_STATUS_STATE l) 9).wr (Reg.HB_LINK_STATUS_REASON l) reason).setB (Reg.HB_LINK_STATUS_DOWN_EV l)

/-- A link goes to FENCED (R305), where it sends fence frames (R294). They carry no packet and are not acknowledged.
[DEDUCED: log entry 16] -/
def State.fenceLink (s : State) (l : Nat) : State :=
  let (_, s) := s.dropLink l
  let k := s.link l
  let s := ((s.wr (Reg.HB_LINK_STATUS_STATE l) 11).wr (Reg.HB_LINK_STATUS_REASON l) 4).setB (Reg.HB_LINK_STATUS_FENCED_EV l)
  s.emit (.frame l (mkFrame (frameCtl 2 k.txSeq ((k.rxSeq + 4095) % 4096) false 31 0) []))

/-! ### Failure notices (R304) -/

/-- The eight bytes of a notice. -/
def noticeBytes (failed notifier reason spare : Nat) : List Byte :=
  leBytes 2 failed ++ leBytes 2 notifier ++ leBytes 1 reason ++ leBytes 2 spare ++ [0]

/-- A notice waits to be taken; link 14 stands for the package itself. [DEDUCED: log entry 16] -/
def State.raiseNotice (s : State) (link : Nat) (n : List Byte) : State :=
  s.modFabric fun f => { f with noticeIn := f.noticeIn ++ [(link, n)] }

end Sys2Proof.Machine
end

