-- ==== Sys2Proof/Machine/Tree.lean ====
section
/-! DEFINITION. Reduction groups, shard maps and trees (R313 to R320), and the remapped legs of R345. -/

namespace Sys2Proof.Machine

/-! ### Reduction groups -/

/-- A group entry (R313). -/
structure Group where
  lo : List Nat
  hi : List Nat
  planes : Nat
  chan : Nat
  dl : Nat
  guards : List (Nat × Nat)
deriving DecidableEq, Repr

def State.group (s : State) (g : Nat) : Group :=
  let r := s.fabric.groups.getD g []
  ⟨[fieldNat r 0 1, fieldNat r 2 1, fieldNat r 4 1], [fieldNat r 1 1, fieldNat r 3 1, fieldNat r 5 1],
    fieldNat r 6 1 % 4, fieldNat r 7 1 % 8, fieldNat r 8 2,
    s.fabric.guards.getD g []⟩

/-- Does the group's box wrap in a dimension? -/
def State.wraps (s : State) (g : Group) (d : Nat) : Bool := g.lo.getD d 0 == 0 && g.hi.getD d 0 + 1 == s.dimSize d

/-- Is a logical coordinate inside the box? -/
def Group.contains (g : Group) (c : Nat) : Bool :=
  bit g.planes (cplane c) && [0, 1, 2].all fun d => decide (g.lo.getD d 0 ≤ cdim c d) && decide (cdim c d ≤ g.hi.getD d 0)

/-- Every member of a group: x first, then y, then z, plane 0 before plane 1. -/
def Group.members (g : Group) : List Nat :=
  let r (d : Nat) : List Nat := (List.range (g.hi.getD d 0 + 1 - g.lo.getD d 0)).map (g.lo.getD d 0 + ·)
  ([0, 1].filter fun p => bit g.planes p).flatMap fun p =>
    (r 2).flatMap fun z => (r 1).flatMap fun y => (r 0).map fun x => mkCoord x y z p

/-- The group's deadline window in µs (R313, R338). -/
def State.groupDl (s : State) (g : Group) : Nat := if g.dl = 0 then s.rd Reg.RED_CFG_DL else g.dl

/-! ### Trees (R317 to R320) -/

/-- Direction toward an owner in one dimension: none when already there. -/
def State.treeDir (s : State) (g : Group) (d p o : Nat) : Option Bool :=
  if p = o then none
  else if s.wraps g d then
    let n := s.dimSize d
    let fwd := (o + n - p) % n
    let bwd := (p + n - o) % n
    some (if fwd < bwd then false else if bwd < fwd then true else o % 2 == 1)
  else some (decide (o < p))

/-- The next hop of a member toward the owner: dimension (3 is the twin hop) and direction (R317). -/
def State.nextHop (s : State) (g : Group) (p o : Nat) : Option (Nat × Bool) :=
  match s.treeDir g 0 (cx p) (cx o) with
  | some n => some (0, n)
  | none => match s.treeDir g 1 (cy p) (cy o) with
    | some n => some (1, n)
    | none => match s.treeDir g 2 (cz p) (cz o) with
      | some n => some (2, n)
      | none => if cplane p = cplane o then none else some (3, false)

/-- The logical coordinate one hop away. -/
def State.hopTo (s : State) (p : Nat) (h : Nat × Bool) : Nat :=
  if h.1 = 3 then mkCoord (cx p) (cy p) (cz p) (1 - cplane p) else s.neighbour p h.1 h.2

/-- The members a route passes, its start included. -/
def State.routeOf (s : State) (g : Group) (o : Nat) : Nat → Nat → List Nat
  | 0, p => [p]
  | n + 1, p => match s.nextHop g p o with
    | none => [p]
    | some h => p :: s.routeOf g o n (s.hopTo p h)

/-- Parent of a member in an owner's tree. -/
def State.parentOf (s : State) (g : Group) (p o : Nat) : Option Nat := (s.nextHop g p o).map (s.hopTo p)

/-- Children of a node in an owner's tree. -/
def State.childrenOf (s : State) (g : Group) (p o : Nat) : List Nat := g.members.filter fun m => s.parentOf g m o == some p

/-- Expected count E at a node (R320). -/
def State.expected (s : State) (g : Group) (node o : Nat) : Nat :=
  (g.members.filter fun m => !(g.guards.any (·.1 == m)) && (s.routeOf g o 66 m).contains node).length

/-- The index bits of a chunk's tree (R318). -/
def treeIdx (chunk owner : Nat) : Nat :=
  let k := chunk % 65536 ^^^ owner
  k ^^^ (k >>> 5) ^^^ (k >>> 10)

/-- The link of a hop: the index that the bits give, else the other (R318, R300). -/
def State.hopLink (s : State) (g d : Nat) (neg : Bool) : Option Nat :=
  let i := bits g d d
  if s.linkActive (linkNo d neg i) then some (linkNo d neg i)
  else if s.linkActive (linkNo d neg (1 - i)) then some (linkNo d neg (1 - i)) else none

/-- The link a hop uses, without regard to its state (R319's combining brim). -/
def State.hopBrim (s : State) (g d : Nat) (neg : Bool) : Nat :=
  linkBrim ((s.hopLink g d neg).getD (linkNo d neg (bits g d d)))

/-! ### Remapped legs (R345) -/

/-- Is the logical coordinate one that a spare has taken? -/
def State.isTaken (s : State) (c : Nat) : Bool := (s.takenSpare c).isSome

/-- Has a physical coordinate failed? -/
def State.hasFailed (s : State) (c : Nat) : Bool :=
  ((List.range 32).any fun n => s.rdB (Reg.HB_FAIL_VALID n) && s.rd (Reg.HB_FAIL_COORD n) == c) ||
    s.fabric.overflowed.contains c

/-- Direction of R299 in a dimension: fewer hops; when equal, by the source's coordinate. -/
def State.torusDir (s : State) (d here dst src : Nat) : Option Bool :=
  let n := s.dimSize d
  let p := cdim here d
  let o := cdim dst d
  if p = o ∨ n = 0 then none
  else
    let fwd := (o + n - p) % n
    let bwd := (p + n - o) % n
    some (if fwd < bwd then false else if bwd < fwd then true else cdim src d % 2 == 1)

/-- The next hop of dimension order, X first or Z first (R299, R345). -/
def State.torusHop (s : State) (zyx : Bool) (here dst src : Nat) : Option (Nat × Bool) :=
  let order := if zyx then [2, 1, 0] else [0, 1, 2]
  match order.findSome? fun d => (s.torusDir d here dst src).map fun n => (d, n) with
  | some h => some h
  | none => if cplane here = cplane dst then none else some (3, false)

/-- The coordinates a route reaches, its start left out. -/
def State.torusRoute (s : State) (zyx : Bool) (src dst : Nat) : Nat → Nat → List Nat
  | 0, _ => []
  | n + 1, here => match s.torusHop zyx here dst src with
    | none => []
    | some h =>
      let next := s.hopTo here h
      next :: s.torusRoute zyx src dst n next

/-- How a remapped leg of a packet from `src` travels: not at all, or in ZYX order or not (R299, R345).
[DEDUCED: log entry 14] -/
def State.legOrder (s : State) (src dst : Nat) : Option Bool :=
  let clear (zyx : Bool) : Bool := !((s.torusRoute zyx src dst 66 s.physSelf).any s.hasFailed)
  if clear false then some false else if clear true then some true else none

/-- A remapped leg fails: counted, flagged, and the event recorded (R345). -/
def State.legFailed (s : State) (b : Nat) : State :=
  ((s.incStop Reg.RED_STORE_REMAP_DROP).setB Reg.RED_STATUS_REMAP_FAIL).record .legUnroutable (source b 0 4) []

end Sys2Proof.Machine
end

