-- ==== Sys2Proof/Machine/Links.lean ====
section
/-! DEFINITION. Fabric links and the router: bring-up (R294 to R297), link registers (R310, R311), frames (R285, R287),
routing and detours (R299 to R303, R308). -/

namespace Sys2Proof.Machine

/-- SOURCE of a link: the router of its brim. -/
def linkSource (l : Nat) : Nat := source (linkBrim l) 0 4

def State.setLinkState (s : State) (l v : Nat) : State := s.wr (Reg.HB_LINK_STATUS_STATE l) v
def State.setReason (s : State) (l v : Nat) : State := s.wr (Reg.HB_LINK_STATUS_REASON l) v

/-! ### Frames -/

/-- A frame that reaches a FENCED link is answered with a fence frame (R294). [DEDUCED: log entry 16] -/
def State.refence (s : State) (l : Nat) : State :=
  let k := s.link l
  if s.linkState l = 11 then s.emit (.frame l (mkFrame (frameCtl 2 k.txSeq ((k.rxSeq + 4095) % 4096) false 31 0) [])) else s

/-- DATA_FRAME (R285, R286): the frame is taken in sequence and answered, or answered with NAK; on an ACTIVE link its flits
enter the ingress buffer, and on a STANDBY one it brings acknowledgements only (R294). `ok` says that the four codewords
decoded, `corrected` how many of them needed correction. [DEDUCED: log entry 17] -/
def execDataFrame (link : Link) (ok : Bool) (corrected : Nat) (frame : List Byte) (s : State) : Result :=
  let l := link.val
  .next (if !s.linkUp l then s.refence l
    else
      let f := padBytes 2570 frame
      let good := ok && crc32 (f.take 2566) == fieldNat f 2566 4
      if good && frameType f != 0 then s
      else
        let (took, s) := s.takeFrame l ok corrected frame
        if !took then s
        else
          let s := if s.linkActive l then s.setLink l ((s.link l).absorb 40 ((f.drop 6).take 2560)) else s
          s.sendFrame l 0 false [])

/-- TRAINING_FRAME (R295): training data change nothing that software sees; a capability block brings the partner's view up
to date while the link is in EXCHANGE or HOLD. -/
def State.takeBlock (s : State) (l : Nat) (b : Capability) : State :=
  let s := s.setLink l { s.link l with partnerPlane := b.plane }
  let s := (s.wr (Reg.HB_PARTNER_VERMAX l) b.verMax).wr (Reg.HB_PARTNER_VERMIN l) b.verMin
  let s := (s.wr (Reg.HB_PARTNER_COORD_VALID l) (bits b.coord 63 63)).wr (Reg.HB_PARTNER_COORD l) (bits b.coord 13 0)
  ((s.wr (Reg.HB_PARTNER_LINK l) b.link).wr (Reg.HB_PARTNER_STEPPING l) b.stepping).wr (Reg.HB_PARTNER_PRODUCT l) b.product

def execTrainingFrame (link : Link) (block : Option Capability) (s : State) : Result :=
  let l := link.val
  .next (match block with
    | none => s
    | some b => if s.linkState l = 4 ∨ s.linkState l = 5 then s.takeBlock l b else s)

/-- LINK_DOWN (R287): an ACTIVE or STANDBY link meets one of the three faults: 1 signal or clock recovery lost, 2 no frame
accepted, 3 a frame unacknowledged. -/
def execLinkDown (link : Link) (reason : Fin 3) (s : State) : Result :=
  .next (if s.linkUp link.val then s.declareDown link.val (reason.val + 1) else s)

/-! ### Bring-up -/

/-- PARTNER_DETECTED (R294). -/
def execPartnerDetected (link : Link) (s : State) : Result :=
  .next (if s.linkState link.val = 1 then s.setLinkState link.val 2 else s)

/-- LEN_EST in tenths of a metre (R297); with PERM zero the quotient has no value, and it is free.
[DESIGN CHOICE: log entry 12] -/
def State.lenEst (s : State) (il : Nat) : Nat :=
  let perm := s.rd Reg.HB_FAB_CFG_PERM
  if perm = 0 then (Config.freeAt .lenEst s.fresh il).toNat % 1024 else (il - s.rd Reg.HB_FAB_CFG_ALLOW) * 10 / perm

/-- TRAIN_COMPLETE (R297): the measured insertion loss in 0.1 dB. [DESIGN CHOICE: log entry 35] -/
def execTrainComplete (link : Link) (il : Nat) (s : State) : Result :=
  let l := link.val
  .next (if s.linkState l != 2 then s
    else ((s.wr (Reg.HB_LINK_MEAS_IL l) il).wr (Reg.HB_LINK_MEAS_LEN_EST l) (s.lenEst (il % 1024))).setLinkState l 3)

/-- The package's own capability block on a link (R295): HB_COORD and HB_PLANE as its registers hold them.
[DEDUCED: log entry 17] -/
def State.ownBlock (s : State) (l : Nat) : Capability where
  product := 0xD032
  stepping := Config.stepping.toNat
  link := l
  coord := s.rd Reg.HB_COORD_COORD + s.rd Reg.HB_COORD_VALID * 2 ^ 63
  plane := s.rd Reg.HB_PLANE_DIMX + s.rd Reg.HB_PLANE_DIMY * 2 ^ 8 + s.rd Reg.HB_PLANE_DIMZ * 2 ^ 16 +
    s.rd Reg.HB_PLANE_TWIN * 2 ^ 24
  verMin := Config.linkVerMin.toNat
  verMax := Config.linkVerMax.toNat

/-- The block goes out in a training frame, whose bytes the manual does not lay out. [DEDUCED: log entry 17] -/
def State.sendBlock (s : State) (l : Nat) : State := s.emit (.training l (s.ownBlock l))

/-- ALIGN_COMPLETE (R294, R295): lock is reached and the error ratio is below 10^-4; EXCHANGE begins, and the package sends its
capability block. -/
def execAlignComplete (link : Link) (s : State) : Result :=
  .next (if s.linkState link.val = 3 then (s.setLinkState link.val 4).sendBlock link.val else s)

/-- CAPABILITY_EXCHANGE (R295, R297): the partner's block, and the measured flight in 0.1 ns.
[DEDUCED: log entry 17; DESIGN CHOICE: log entry 35] -/
def execCapabilityExchange (link : Link) (block : Capability) (flight : Nat) (s : State) : Result :=
  let l := link.val
  .next (if s.linkState l != 4 then s
    else
      let s := (s.takeBlock l block).wr (Reg.HB_LINK_MEAS_FLIGHT l) flight
      let lo := max Config.linkVerMin.toNat block.verMin
      let hi := min Config.linkVerMax.toNat block.verMax
      if block.product ≠ 0xD032 ∨ hi < lo then
        ((s.setLinkState l 10).setReason l 5).setB (Reg.HB_LINK_STATUS_REFUSED l)
      else (s.wr (Reg.HB_LINK_STATUS_LINKVER l) hi).setLinkState l 5)

/-- The check of R296: the partner that R281 requires, at the link it requires, in the same plane. -/
def State.wiringOk (s : State) (l : Nat) : Bool :=
  let pc := s.rd (Reg.HB_PARTNER_COORD l)
  let me := s.physSelf
  let plane := (fieldNat (leBytes 8 (s.link l).partnerPlane) 0 8)
  s.coordsValid && s.rdB (Reg.HB_PARTNER_COORD_VALID l) && plane == (s.ownBlock l).plane &&
    (if l ≥ 12 then pc == mkCoord (cx me) (cy me) (cz me) (1 - cplane me) && s.rd (Reg.HB_PARTNER_LINK l) == l
     else pc == s.neighbour me (linkDim l) (linkNeg l) &&
       s.rd (Reg.HB_PARTNER_LINK l) == linkNo (linkDim l) (!linkNeg l) (linkIdx l))

/-- VERIFY (R296): a held link with valid coordinates becomes ACTIVE, or STANDBY while an image is shaped, or FAILED.
[DEDUCED: log entry 17] -/
def execVerify (link : Link) (s : State) : Result :=
  let l := link.val
  .next (if !((s.linkState l == 5 || s.linkState l == 6) && s.coordsValid) then s
    else if s.wiringOk l then
      let s := (s.startLink l).setLinkState l (if s.rd Reg.SHP_STATUS_STATE = 0 then 8 else 7)
      if s.linkActive l then s.wr (Reg.HB_LINK_STATUS_ATTEMPTS l) 0 else s
    else
      let s := ((s.setLinkState l 10).setReason l 6).setB (Reg.HB_LINK_STATUS_MISWIRE l)
      s.record .miswire (linkSource l) [pv2 s.physSelf, pv2 (s.rd (Reg.HB_PARTNER_COORD l)), pv1 l,
        pv1 (s.rd (Reg.HB_PARTNER_LINK l))])

/-- LINK_STATE_TIMEOUT (R294): TRAIN, ALIGN or EXCHANGE passes its limit. `ratio` says that the ALIGN measurement was made
and was too high. -/
def execLinkStateTimeout (link : Link) (ratio : Bool) (s : State) : Result :=
  let l := link.val
  let st := s.linkState l
  .next (if st = 2 ∨ st = 4 then s.declareDown l 7
    else if st = 3 then s.declareDown l (if ratio then 8 else 7) else s)

/-- DOWN_IDLE_EXPIRY (R294): the next retraining attempt, or FAILED after the third; a link whose brim has lost its SerDes
reference waits for the clock (R501). -/
def execDownIdleExpiry (link : Link) (s : State) : Result :=
  let l := link.val
  let n := s.rd (Reg.HB_LINK_STATUS_ATTEMPTS l)
  .next (if s.linkState l != 9 || s.refLost.contains (linkBrim l) then s
    else if 3 ≤ n then s.setLinkState l 10
    else (s.wr (Reg.HB_LINK_STATUS_ATTEMPTS l) (n + 1)).setLinkState l 2)

/-! ### Link registers -/

/-- A WO action of HB_LINK_CTL is carried out from the holder's port; a write that asks for it from the other port is
discarded, and recorded as R7 says of such a write (R310). [DEDUCED: log entry 17] -/
def State.linkAction (s : State) (l : Nat) (acc : RegAccess) (f : Fld) (act : State → State) : State :=
  if !bit (s.accessBits acc f) 0 then s
  else if s.holds acc.port.val then act s
  else s.rejectWrite acc.port.val (0x200000 + l * 0x1000)

/-- A link takes a state, and its count of attempts begins anew. -/
def State.freshLink (s : State) (l v : Nat) : State := (s.setLinkState l v).wr (Reg.HB_LINK_STATUS_ATTEMPTS l) 0

/-- A write to HB_COORD or HB_PLANE (R311): discarded while an image is shaped or a link is ACTIVE; otherwise links in
EXCHANGE and HOLD send their new block, and those in HOLD go on once both registers are valid. -/
def State.coordWrite (s : State) (off : Nat) (acc : RegAccess) : State :=
  if !s.bar0Open off then s
  else if s.rd Reg.SHP_STATUS_STATE ≠ 0 ∨ (List.range 14).any s.linkActive then s.rejectWrite acc.port.val off
  else
    let s := s.writeReg off acc fun _ => true
    let s := (List.range 14).foldl (fun s l => if s.linkState l = 4 ∨ s.linkState l = 5 then s.sendBlock l else s) s
    if s.coordsValid then
      (List.range 14).foldl (fun s l => if s.linkState l = 5 then s.setLinkState l 6 else s) s
    else s

/-! ### The router -/

/-- What the router does with a packet. -/
inductive Route where
  | eject
  | send (link : Nat) (p : Pkt)
  | drop (f : Fld)
  /-- a remapped packet of the reduction that meets no ACTIVE link (R345) -/
  | leg

/-- The first ACTIVE link of a direction, the index of R300 first. -/
def State.dirLink (s : State) (idx d : Nat) (neg : Bool) : Option Nat :=
  if s.linkActive (linkNo d neg idx) then some (linkNo d neg idx)
  else if s.linkActive (linkNo d neg (1 - idx)) then some (linkNo d neg (1 - idx)) else none

/-- Does the hop cross the dateline of its dimension? (R290) -/
def State.dateline (s : State) (d : Nat) (neg : Bool) : Bool :=
  d < 3 && (if neg then cdim s.physSelf d == 0 else cdim s.physSelf d + 1 == s.dimSize d)

/-- The channel of the next hop (R290): B once the dimension's dateline is crossed, A after a turn, the detour pair after a
detour; a reduction packet keeps its own. -/
def State.nextVc (s : State) (p : Pkt) (arrived : Option Nat) (d : Nat) (neg detour : Bool) : Nat :=
  let cls := vcClass p.vc
  if cls = 4 then p.vc
  else
    let same := match arrived with
      | some l => linkDim l == d && d < 3
      | none => false
    let b := (same && p.vc % 2 == 1) || s.dateline d neg
    (if detour then 16 else 0) + 2 * cls + b.toNat

/-- The header of a packet sent on. -/
def Pkt.onward (p : Pkt) (vc rflags : Nat) : Pkt :=
  { p with hdr := setField (setField (setField p.hdr 4 (leBytes 1 vc)) 5 (leBytes 1 rflags)) 8 (leBytes 1 (p.hops - 1)) }

/-- Send a packet one hop, unless its HOPS run out (R301). -/
def State.hop (s : State) (p : Pkt) (arrived : Option Nat) (l d : Nat) (neg detour twin : Bool) : Route :=
  if p.hops ≤ 1 then .drop Reg.HB_DROP_HOPS_DROP
  else
    let det := p.detour || detour
    .send l (p.onward (s.nextVc p arrived d neg det) (det.toNat + 2 * (p.twinDone || twin).toNat))

/-- Only one dimension of the plane is larger than 1. -/
def State.isRing (s : State) : Bool := ([0, 1, 2].filter fun d => decide (1 < s.dimSize d)).length == 1

/-- A twin detour: the first neighbour in whose direction a link is ACTIVE (R303). -/
def State.twinDetour (s : State) (idx : Nat → Nat) : Option (Nat × Nat × Bool) :=
  [(0, false), (0, true), (1, false), (1, true), (2, false), (2, true)].findSome? fun h =>
    (s.dirLink (idx h.1) h.1 h.2).map fun l => (l, h.1, h.2)

/-- A detour in the next dimension whose size is above 1, cyclically, positive first; in a ring the other direction
(R308). -/
def State.detour (s : State) (idx : Nat → Nat) (d : Nat) (neg : Bool) : Option (Nat × Nat × Bool) :=
  if s.isRing then (s.dirLink (idx d) d (!neg)).map fun l => (l, d, !neg)
  else
    match [(d + 1) % 3, (d + 2) % 3].find? fun e => decide (1 < s.dimSize e) with
    | none => none
    | some e => match s.dirLink (idx e) e false with
      | some l => some (l, e, false)
      | none => (s.dirLink (idx e) e true).map fun l => (l, e, true)

/-- The route of a packet that arrived on a link, or at an injection port (R299 to R303, R308, R345). One that goes down a tree takes
the direction of the tree's own link (R340). -/
def State.routePkt (s : State) (p : Pkt) (arrived : Option Nat) (way : Option (Nat × Bool) := none) : Route :=
  let me := s.physSelf
  let dst := p.dst
  let red := vcClass p.vc == 4
  let h := p.flow ^^^ p.src ^^^ dst
  let g := h ^^^ (h >>> 5) ^^^ (h >>> 10)
  let idx (d : Nat) : Nat := bits g d d
  let zyx := red && bit (fieldNat p.hdr 57 1) 3
  -- a packet on a twin detour stands at the neighbour of the position its route led to
  let onTwinDetour := cplane me != cplane dst && (match arrived with
    | some l => l < 12 && (let n := s.neighbour me (linkDim l) (linkNeg l)
        mkCoord (cx n) (cy n) (cz n) 0 == mkCoord (cx dst) (cy dst) (cz dst) 0) && p.detour
    | none => false)
  if me = dst then .eject
  else if onTwinDetour then
    match s.dirLink (idx 3) 3 false with
    | some l => s.hop p arrived l 3 false true true
    | none => .drop Reg.HB_DROP_DETOUR_DROP
  else
    -- in a ring a detour keeps its reversed direction
    let hop := match arrived, way.orElse fun _ => s.torusHop zyx me dst p.src with
      | some l, some (d, n) =>
        if p.detour && s.isRing && d < 3 && l < 12 && linkDim l == d then some (d, !linkNeg l) else some (d, n)
      | _, h => h
    match hop with
    | none => .eject
    | some (3, _) =>
      match s.dirLink (idx 3) 3 false with
      | some l => s.hop p arrived l 3 false false true
      | none =>
        if red then .leg
        else match s.twinDetour idx with
          | some (l, d, n) => s.hop p arrived l d n true false
          | none => .drop Reg.HB_DROP_DETOUR_DROP
    | some (d, n) =>
      let near := s.neighbour me d n == dst
      let other := if near && s.dimSize d == 2 then s.dirLink (idx d) d (!n) else none
      match (s.dirLink (idx d) d n).orElse fun _ => other with
      | some l => s.hop p arrived l d (linkNeg l) false false
      | none =>
        if red then .leg
        else if near then .drop Reg.HB_DROP_DEST_LOST
        else if p.detour then .drop Reg.HB_DROP_DETOUR_DROP
        else match s.detour idx d n with
          | some (l, e, m) => s.hop p arrived l e m true false
          | none => .drop Reg.HB_DROP_DETOUR_DROP

/-- Is the kind one that a chapter owns, by class? Packets of other kinds are discarded at their destination. -/
def knownKind (cls k : Nat) : Bool :=
  match cls with
  | 0 => [0x11, 0x12, 0x13, 0x14, 0x31, 0x32, 0x33].contains k
  | 1 => k == 0x01 || k == 0x02
  | 2 => k == 0x81 || k == 0x82
  | 3 => decide (0x41 ≤ k) && decide (k ≤ 0x46)
  | _ => false

/-- A packet reaches this package. One of a kind that no chapter defines is discarded, after the check of ECRC that every
packet gets (R289). -/
def State.ejectPkt (s : State) (b : Nat) (p : Pkt) : State :=
  if knownKind (vcClass p.vc) p.kind then s.modFabric fun f => { f with ejected := f.ejected ++ [(b, p)] }
  else if vcClass p.vc != 4 && !p.ecrcOk then s.incStop Reg.HB_DROP_ECRC_ERR else s

/-- A piece with a DST and a RFLG whose bits 3:2 (ZYX and REMAP) are given; ECRC covers both (R322, R345). -/
def Pkt.onLeg (p : Pkt) (dst bits32 : Nat) : Pkt :=
  let flg := fieldNat p.hdr 57 1 % 4 + 4 * bits32
  { p with hdr := setField (setField p.hdr 0 (leBytes 2 dst)) 57 (leBytes 1 flg) }.sealed

/-- The hop of a piece that leaves this node on its tree (R317, R318, R345): the link and the packet, or what discards
it. A remapped leg has DST at its receiver, REMAP and its own ZYX; on every other hop DST is the owner's (R322). -/
def State.routePiece (s : State) (p : Pkt) : Route :=
  let g := s.group (fieldNat p.hdr 54 1 % 64)
  let owner := fieldNat p.hdr 52 2 % 16384
  let t := treeIdx (fieldNat p.hdr 38 3) owner
  match s.nextHop g s.logSelf owner with
  | none => .eject
  | some (d, n) =>
    let nb := s.hopTo s.logSelf (d, n)
    if s.isTaken s.logSelf || s.isTaken nb then
      let dst := s.physOf nb
      match s.legOrder p.src dst with
      | none => .leg
      | some zyx => s.routePkt (p.onLeg dst (1 + 2 * zyx.toNat)) none
    else match s.hopLink t d n with
      | some l => s.hop (p.onLeg (s.physOf owner) 0) none l d n false (d == 3)
      | none => .drop (if nb = owner then Reg.HB_DROP_DEST_LOST else Reg.HB_DROP_DETOUR_DROP)

/-- The brim of an input of the switch: that of a link, or of an injection port (14 to 17). -/
def inputBrim (i : Nat) : Nat := if i < 14 then linkBrim i else i - 14

/-- A packet of an input: an ingress link, or an injection port (14 to 17). [DEDUCED: log entry 17] -/
def State.inputPkt (s : State) (i vc : Nat) : Option Pkt :=
  if i < 14 then ((s.link i).ingress.find? fun e => e.pkt.vc == vc).map (·.pkt)
  else ((s.injectQ (i - 14)).find? fun e => e.pkt.vc == vc).map (·.pkt)

/-- Take the first packet of a channel away from an input. -/
def State.popInput (s : State) (i vc : Nat) : State :=
  if i < 14 then
    let k := s.link i
    match k.ingress.find? fun e => e.pkt.vc == vc with
    | some e => s.setLink i (k.release e)
    | none => s
  else
    let q := s.injectQ (i - 14)
    match q.find? fun e => e.pkt.vc == vc with
    | some e => s.setInjectQ (i - 14) (q.erase e)
    | none => s

/-- The injection entry at the head of a channel. -/
def State.injHead (s : State) (i vc : Nat) : Option InjPkt :=
  if i < 14 then none else (s.injectQ (i - 14)).find? fun e => e.pkt.vc == vc

/-- Is the packet one that the combining brim must handle first? A piece that is not in remapped transit (R334). -/
def State.forCombining (s : State) (i vc : Nat) (p : Pkt) : Bool :=
  vcClass p.vc == 4 &&
    (match s.injHead i vc with
      | some e => !e.taken
      | none => !(bit (fieldNat p.hdr 57 1) 2 && p.dst != s.physSelf))

/-! ### The order of a delivery (R340) -/

/-- Where a packet of a delivery stands in it: its STEP, then its offset, with DELIVER_END last. -/
def Pkt.place (p : Pkt) : Nat := fieldNat p.hdr 36 4 * 2 ^ 65 + (if p.kind = 0x42 then 2 ^ 64 else fieldNat p.hdr 40 8)

/-- Is one packet of a delivery to come before another on the same way? -/
def Pkt.before (q p : Pkt) : Bool :=
  q.isDelivery && p.isDelivery && q.src == p.src && q.dst == p.dst && fieldNat q.hdr 32 3 == fieldNat p.hdr 32 3 &&
    decide (q.place < p.place)

/-- Every packet that waits at an input of the switch. -/
def State.inputPkts (s : State) : List Pkt :=
  (s.fabric.links.flatMap fun e => e.2.ingress.map (·.pkt)) ++ s.fabric.inject.flatMap fun e => e.2.map (·.pkt)

/-- A packet of a delivery waits for those before it: at the inputs of this node, and on the other link of the pair until they
are acknowledged. Pieces of one entry use links of either index, and yet arrive in order. [DEDUCED: log entry 14] -/
def State.deliveryWaits (s : State) (p : Pkt) (l : Option Nat) : Bool :=
  p.isDelivery && (s.inputPkts.any (·.before p) ||
    (match l with
      | some l => (s.link (linkNo (linkDim l) (linkNeg l) (1 - linkIdx l))).replay.any (·.delivery)
      | none => false))

/-! ### The arbiter of an egress link (R291) -/

/-- What the router does with the packet at the head of a channel of an input, none where there is none for it, and whether
the packet needs credits for two (R334). -/
def State.headRoute (s : State) (i vc : Nat) : Option (Pkt × Route × Bool) :=
  match s.inputPkt i vc with
  | none => none
  | some p =>
    if s.forCombining i vc p then none
    else
      let inj := s.injHead i vc
      let own := inj.any fun e => e.taken && vcClass p.vc == 4
      some (p, if own then s.routePiece p else s.routePkt p (if i < 14 then some i else none) (inj.bind (·.way)),
        own && inj.any (·.merged))

/-- A packet that could go on a link now: its input, its channel, and its flits. -/
structure Offer where
  input : Nat
  vc : Nat
  flits : Nat
deriving DecidableEq, Repr

def Offer.cls (o : Offer) : Nat := vcClass o.vc

/-- The packets that could go on a link now. -/
def State.offers (s : State) (l : Nat) : List Offer :=
  (List.range 18).flatMap fun i => (List.range 32).filterMap fun vc =>
    match s.headRoute i vc with
    | some (p, .send m q, two) =>
      if m = l && s.linkRoom l q two && !s.deliveryWaits p (some l) then some ⟨i, vc, q.flits⟩ else none
    | _ => none

/-- Eighths of a flit's service that a flit of a class costs it: the weights are RED 8, PARAM 4, RSP 2 and REQ 2. -/
def classCost (cls : Nat) : Nat := if cls = 4 then 1 else if cls = 3 then 2 else 4

/-- The entry of a list with the lowest value, the earlier one where two have it. -/
def leastBy {α : Type} (f : α → Nat) : List α → Option α
  | [] => none
  | x :: r => some (r.foldl (fun a b => if f b < f a then b else a) x)

/-- How far a number lies behind the one last served, cyclically. -/
def behind (n last x : Nat) : Nat := (x + n - 1 - last) % n

/-- The service a class has had, and no less than what the class served last had when its packet began: a class that was empty
has saved nothing up. [DESIGN CHOICE: log entry 17] -/
def Arbiter.tag (a : Arbiter) (cls : Nat) : Nat := max a.clock (Sparse.get 0 a.served cls)

/-- The class served next of those that wait: MGT, unless it has had its slot in eight; else the one with the least service for
its weight. [DESIGN CHOICE: log entry 17] -/
def Arbiter.pickClass (a : Arbiter) (waiting : List Nat) : Option Nat :=
  let others := [4, 3, 2, 1].filter waiting.contains
  if waiting.contains 0 && (others = [] || a.mgtWait = 0) then some 0 else leastBy a.tag others

/-- The offer served next: within its class the channels in turn, and within a channel the inputs. -/
def Arbiter.pick (a : Arbiter) (os : List Offer) : Option Offer :=
  match a.pickClass (os.map Offer.cls) with
  | none => none
  | some cls =>
    let mine := os.filter (·.cls == cls)
    match leastBy (behind 32 (Sparse.get 31 a.lastVc cls)) (mine.map (·.vc)) with
    | none => none
    | some vc => leastBy (fun o => behind 18 (Sparse.get 17 a.lastInput vc) o.input) (mine.filter (·.vc == vc))

/-- What serving an offer leaves. -/
def Arbiter.serve (a : Arbiter) (o : Offer) (os : List Offer) : Arbiter :=
  let contended := os.any fun x => x.cls != 0
  let a := { a with lastVc := Sparse.put 31 a.lastVc o.cls o.vc, lastInput := Sparse.put 17 a.lastInput o.vc o.input }
  if o.cls = 0 then { a with mgtWait := if contended then a.mgtWait + 7 * o.flits else 0 }
  else
    { a with
      mgtWait := a.mgtWait - o.flits
      clock := a.tag o.cls
      served := Sparse.put 0 a.served o.cls (a.tag o.cls + o.flits * classCost o.cls) }

/-! ### Poisoned words of a router buffer (R234, R239) -/

/-- A router meets poison in words of its own buffers: one event for the packet, and its tower counts the words (R239).
[DEDUCED: log entry 8] -/
def State.routerPoison (s : State) (b n : Nat) (already : Bool := false) : State :=
  if n = 0 then s
  else
    let s := s.incStop (Reg.TIER_ECC_POISON_USE b) n
    if already then s else (s.record .poisonConsumed (origSource (routerOrig b)) []).flagStep 4

/-- The payload words (16 bytes each) of a packet among those that decode as uncorrectable. -/
def Pkt.badWords (p : Pkt) (bad : List Nat) : List Nat := bad.filter fun w => decide (16 * w < p.data.length)

/-- A packet of which some payload words decode as uncorrectable at the egress: POISON is set, and on a reduction channel the
elements of those words are marked instead (R322, R326). -/
def Pkt.spoiled (p : Pkt) (bad : List Nat) (mark : Pkt → List Nat → Pkt) : Pkt :=
  let words := p.badWords bad
  if words = [] then p
  else if vcClass p.vc = 4 then (mark p words).sealed
  else { p with hdr := setField p.hdr 6 (leBytes 2 (p.len + 2 ^ 15)) }.sealed

end Sys2Proof.Machine
end

