-- ==== Sys2Proof/Machine/Sync.lean ====
section
/-! DEFINITION. Sync objects (R369 to R371), sync watches (R434), barriers (R373 to R375), remote adds (R372) and
completion entries (R432). -/

namespace Sys2Proof.Machine

/-! ### Completion entries (R432) -/

/-- Write a completion entry for a command that was taken, unless its queue has been disabled since (R420, R439).
[DESIGN CHOICE: log entry 30] -/
def State.postEntry (s : State) (t : Ticket) (status flags op info : Nat) : State :=
  let h := s.host t.port
  let q := h.queue t.queue
  if !s.rdB (Reg.HQ_Q_CFG_EN t.port t.queue) || q.epoch != t.epoch then s
  else
    let size := s.rd (Reg.HQ_Q_CFG_CQSZM1 t.port t.queue) + 1
    let tail := s.rd (Reg.HQ_Q_STATUS_CQTAIL t.port t.queue)
    let addr := s.rd (Reg.HQ_CQ_BASE_ADDR t.port t.queue) * 4096 + tail * 16
    let body := leBytes 2 t.slot ++ leBytes 2 t.sqHead ++ leBytes 1 status ++ leBytes 1 flags ++ leBytes 1 q.phase.toNat
      ++ leBytes 1 op ++ leBytes 4 info ++ leBytes 4 0
    let wrap := decide (size ≤ tail + 1)
    let q := { q with written := q.written + 1, reserved := q.reserved - 1, phase := q.phase != wrap }
    let ien := s.rdB (Reg.HQ_Q_CFG_IEN t.port t.queue)
    let now := ien && s.rd (Reg.HQ_Q_CFG_ITIME t.port t.queue) == 0
    let q := { q with unsignalled := q.unsignalled || (ien && !now) }
    let s := (s.setHost t.port (h.setQueue t.queue q)).wr (Reg.HQ_Q_STATUS_CQTAIL t.port t.queue) (if wrap then 0 else tail + 1)
    let s := s.emitHost t.port (.hostWrite t.port addr (body.map some))
    if now then s.sendVector t.port t.queue else s

/-! ### Slot requests (R103 to R107) -/

/-- Requests of an array withdrawn (R103, R512). -/
def State.withdraw (s : State) (c : Nat) (a : Arr) : State :=
  let y := s.crown (crownOf c)
  s.setCrown (crownOf c) { y with requests := y.requests.filter fun r => !(r.core == c && r.arr == a) }

/-- A request enters the coordinator's list (R105). -/
def State.requestSlot (s : State) (c : Nat) (a : Arr) (up urgent : Bool) : State :=
  let y := s.crown (crownOf c)
  s.setCrown (crownOf c) { y with requests := y.requests ++ [{ core := c, arr := a, up, urgent }] }

def State.setFuller (s : State) (c : Nat) (a : Arr) (f : Fuller) : State :=
  s.setArr c a { s.arr c a with fuller := f }

/-- An idle array waits for an up-slot from step 0, with one row's credit (R102, R104). -/
def State.requestFromIdle (s : State) (c : Nat) (a : Arr) (urgent : Bool) : State :=
  let f := (s.arr c a).fuller
  if f.phase = .idle ∧ !f.granted then
    (s.setFuller c a { f with phase := .waitUp, step := 0, credit := 8, cyc := 0, fromIdle := true }).requestSlot c a true urgent
  else s

/-- The released cores request up-slots together, for each of their arrays that is idle; their requests arrive at once, so the
lower local index comes first (R105, R107). [DEDUCED: log entry 10] -/
def State.requestReleased (s : State) (cores : List Nat) : State :=
  ((List.range 576).filter cores.contains).foldl (fun s c =>
    (s.requestFromIdle c .F false).requestFromIdle c .B false) s

/-! ### LSTEP_N (R107, R113, R375, R402) -/

/-- Cores are about to start together: when a crown needs more than one wave, LSTEP_N is asserted and those cores wait for
the boundary 200 ns later. -/
def State.leadStep (s : State) (cores : List Nat) (urgent : Bool := false) : State :=
  let per (n : Nat) : List Nat := (cores.filter fun c => crownOf c == n).eraseDups
  if [0, 1, 2, 3].any fun n => decide ((s.crown n).upQuota < (per n).length) then
    let s := [0, 1, 2, 3].foldl (fun s n =>
      let y := s.crown n
      s.setCrown n { y with
        released := (y.released ++ per n).eraseDups
        leading := (y.leading ++ per n).eraseDups
        starting := if urgent then (y.starting ++ per n).eraseDups else y.starting }) s
    if s.lstep then s
    else ({ s with lstep := true }.incWrap Reg.PWR_LSTEP_COUNT).emit (.pin "LSTEP_N" false)
  else s

/-! ### Sync objects -/

/-- The last object (R369). -/
def lastObject : Nat := 131071

/-- A sync watch fires when its object is at or above VALUE, and is then disarmed (R434). -/
def State.fireWatches (s : State) (o : Nat) : State :=
  [0, 1].foldl (fun s p =>
    ((s.host p).events.map (·.1)).foldl (fun s e =>
      let q := Sparse.get {} (s.host p).events e
      if s.rdB (Reg.HQ_EQ_CFG_EN p e) && s.rd (Reg.HQ_EQ_CFG_SRC p e) == 0 && q.armed &&
          s.rd (Reg.HQ_EQ_CFG_OBJ p e) == o && decide (s.rd (Reg.HQ_EQ_CFG_VALUE p e) ≤ s.obj o) then
        let h := s.host p
        let s := s.setHost p { h with events := Sparse.put {} h.events e { q with armed := false } }
        s.eqPost p e (leBytes 4 o ++ leBytes 4 (s.obj o))
      else s) s) s

/-- Store a value in an object, with what watches see of it. -/
def State.storeObj (s : State) (o v : Nat) : State :=
  ({ s with sync := Sparse.put 0 s.sync o (v % 2 ^ 32) } : State).fireWatches o

/-- The unit a thread would run next: the first of its list that has not been dispatched (R362). -/
def State.nextUnit (s : State) (c th : Nat) : Option UnitDesc :=
  match s.step with
  | none => none
  | some r => (s.units.filter fun u => u.core == c && u.thread == th)[Sparse.get 0 r.next (2 * c + th)]?

/-- Does a running thread wait in SWAIT on an object that now holds what it waits for? (R358) -/
def State.swaitEnds (s : State) (t : ThreadSt) (o : Nat) : Bool :=
  t.running && (match t.wait with
    | some (.sync obj v e) => obj == o && s.condHolds ⟨obj, v, e⟩
    | _ => false)

/-- The cores on which a unit or flex job waits on an object and is now ready: a unit that has not been dispatched, one that
runs and stands in SWAIT, or a posted job (R107, R375). -/
def State.releasedCores (s : State) (o : Nat) : List Nat :=
  let unitCores := (s.units.map (·.core)).eraseDups.filter fun c => [0, 1].any fun th => match s.nextUnit c th with
    | some u => (u.wait0.sync == o || u.wait1.sync == o) && s.condHolds u.wait0 && s.optCondHolds u.wait1
    | none => false
  let waiting := (s.cores.filter fun e => [Thr.F, .B, .U].any fun th => s.swaitEnds (e.2.thr th) o).map (·.1)
  let jobCores := (s.cores.filter fun e => e.2.jobs.any fun j => (j.conds.any (·.sync == o)) && j.conds.all s.condHolds).map
    (·.1)
  unitCores ++ waiting ++ jobCores

/-- What holds an originator's change of an object back, if anything does: the cache die below the object's crown in reset (R23), or
its tower asleep or on its way into or out of sleep (R25). A change whose path is lost is not held. [DEDUCED: log entry 20] -/
def State.objHolder (s : State) (o : Orig) (obj : Nat) : Option Holder :=
  if s.crownPathLost o (bits obj 16 15) then none else s.towerHolder o (bits obj 16 15) .crown

/-- Does an originator's change of an object reach the object's crown at once? One whose path is lost changes nothing (R30, R38,
R369), and one that is held waits. [DEDUCED: log entry 20] -/
def State.objReached (s : State) (o : Orig) (obj : Nat) : Bool :=
  !s.crownPathLost o (bits obj 16 15) && (s.objHolder o obj).isNone

/-- Make a change of an object for an originator where it reaches the object's crown; else it is held, or lost with its path
(R23, R25, R30). [DEDUCED: log entry 20] -/
def State.reachObj (s : State) (orig : Orig) (kind : SyncKind) (o v : Nat) (make : State → State) : State :=
  if s.objReached orig o then make s
  else match s.objHolder orig o with
    | some h => s.holdReq ⟨h, orig, .sync kind o v, 0, 0, []⟩
    | none => s

/-- Set a release object by a given operation, with LSTEP_N ahead of the cores it releases, which request their up-slots
together (R107, R375). The dispatcher makes the change. -/
def State.setRelease (set : State → Nat → Nat → State) (s : State) (o v : Nat) : State :=
  s.reachObj .mgmt .release o v fun s =>
    let s' := set s o v
    let cores := (s'.releasedCores o).filter fun c => !(s.releasedCores o).contains c
    (s'.leadStep cores).requestReleased cores

/-! ### Barriers (R373, R374) -/

/-- The barrier records whose arrival object an object is. -/
def State.barriersAt (s : State) (o : Nat) : List Barrier := s.barriers.filter fun b => b.arrival == o

/-- Membership and root of a remote barrier's tree (R374). -/
def Group.root (g : Group) : Nat := g.members.headD 0

/-- The count of a node's subtree: members whose route passes it, without regard to guards. -/
def State.subtree (s : State) (g : Group) (node : Nat) : Nat :=
  (g.members.filter fun m => (s.routeOf g g.root 66 m).contains node).length

/-- A barrier packet (R374): the group, the generation and a count. [DESIGN CHOICE: log entry 17] -/
def barrierExt (g k n : Nat) : List Byte := leBytes 4 g ++ leBytes 4 k ++ leBytes 4 n

/-- Send a release down the tree from this node. -/
def State.sendRelease (s : State) (gi k n : Nat) : State :=
  let g := s.group gi
  (s.childrenOf g s.logSelf g.root).foldl (fun s c => s.sendPkt 0 0 c 0x14 false 0 [] (barrierExt gi k n) []) s

/-- The barrier record of a group. -/
def State.remoteBarrier (s : State) (gi : Nat) : Option Barrier := s.barriers.find? fun b => b.group == gi

/-- This package takes a release: the higher of the object's value and k; a short count is flagged (R374). -/
def State.takeRelease (set : State → Nat → Nat → State) (s : State) (gi k n : Nat) : State :=
  match s.remoteBarrier gi with
  | none => s
  | some b =>
    let s := if n < (s.group gi).members.length then
        ((s.setB Reg.SYN_STATUS_BAR_TIMED).incStop Reg.SYN_CNT_BAR_TIMED).flagStep 2
      else s
    if s.obj b.release < k then State.setRelease set s b.release k else s

/-- Has the generation been released at this package? -/
def State.genReleased (s : State) (gi k : Nat) : Bool :=
  match s.remoteBarrier gi with
  | some b => decide (k ≤ s.obj b.release)
  | none => true

/-- A node sends on what it holds for a generation: to its parent, or as the root to everyone (R374). -/
def State.sendGen (set : State → Nat → Nat → State) (s : State) (gi k : Nat) : State :=
  match s.barrierGens.find? fun x => x.group == gi && x.gen == k && !x.sent with
  | none => s
  | some x =>
    let g := s.group gi
    match s.parentOf g s.logSelf g.root with
    | some p =>
      let s := { s with barrierGens := s.barrierGens.map fun y => if y == x then { y with sent := true } else y }
      s.sendPkt 0 0 p 0x13 false 0 [] (barrierExt gi k x.count) []
    | none =>
      let s := { s with barrierGens := s.barrierGens.filter fun y => y != x }
      State.takeRelease set (s.sendRelease gi k x.count) gi k x.count

/-- A count reaches a node of the tree for a generation (R374). -/
def State.arriveGen (set : State → Nat → Nat → State) (s : State) (gi k n : Nat) : State :=
  if s.genReleased gi k then s
  else
    let s : State := match s.barrierGens.find? fun x => x.group == gi && x.gen == k with
      | none => { s with barrierGens := s.barrierGens ++ [⟨gi, k, n, false⟩] }
      | some x => { s with barrierGens := s.barrierGens.map fun y => if y == x then { y with count := y.count + n } else y }
    let g := s.group gi
    match s.barrierGens.find? fun x => x.group == gi && x.gen == k with
    | some x =>
      let full := if g.root = s.logSelf then g.members.length else s.subtree g s.logSelf
      if !x.sent && decide (full ≤ x.count) then State.sendGen set s gi k else s
    | none => s

/-- An object takes a value, and every barrier whose arrival object it is advances; `fuel` bounds chains of barriers
whose release object is another's arrival object. -/
def State.setObjFuel : Nat → State → Nat → Nat → State
  | 0, s, o, v => s.storeObj o v
  | fuel + 1, s, o, v =>
    let old := s.obj o
    let s := s.storeObj o v
    (s.barriersAt o).foldl (fun s b =>
      let k0 := old / max 1 b.members
      let k1 := v % 2 ^ 32 / max 1 b.members
      if k1 ≤ k0 then s
      else if b.group = 0xFF then State.setRelease (State.setObjFuel fuel) s b.release k1
      else (List.range (k1 - k0)).foldl (fun s i =>
        State.arriveGen (State.setObjFuel fuel) s b.group (k0 + 1 + i) 1) s) s

/-- Set an object (R369). -/
def State.setObj (s : State) (o v : Nat) : State := State.setObjFuel (s.barriers.length + 1) s o v

/-- Add to an object, modulo 2^32 (R369). -/
def State.addObj (s : State) (o n : Nat) : State := s.setObj o (s.obj o + n)

/-- An originator sets an object, or adds to one. -/
def State.setObjFrom (s : State) (orig : Orig) (o v : Nat) : State := s.reachObj orig .set o v fun s => s.setObj o v
def State.addObjFrom (s : State) (orig : Orig) (o n : Nat) : State := s.reachObj orig .add o n fun s => s.addObj o n

/-- Add 1 to SIGNAL of a unit or of a DMA command, or to DONE of a step, unless it is 0x1_FFFF, which means none (R360, R361,
R428). -/
def State.signal (s : State) (orig : Orig) (o : Nat) : State := if o = 0x1FFFF then s else s.addObjFrom orig o 1

/-! ### Stores a thread waits for (R358, R369) -/

/-- A thread's commands in the engines have no store outstanding: no DRAIN or VOP of it is queued, running or held
aside. [DEDUCED: log entry 11] -/
def CoreSt.quiet (x : CoreSt) (th : Thr) : Bool :=
  let drains (es : List ArrEntry) : Bool := es.any fun e => e.thread == th &&
    (match decodeArr e.word with
      | some (.drain ..) => true
      | _ => false)
  let arr (a : ArraySt) : Bool := drains a.queue || drains a.entering || a.drain.any (·.thread == th) ||
    a.saved.any fun v => drains v.queue || v.drain.any (·.thread == th)
  !(arr x.arrF || arr x.arrB || x.vecQueue.any (·.thread == th) || x.vop.any (·.thread == th))

/-- The changes of one thread that wait take effect in order, once its stores have completed (R369, R371).
[DEDUCED: log entry 18] -/
def State.flushThread (s : State) (c : Nat) (th : Thr) : State :=
  let t := s.thr c th
  if (s.core c).quiet th then
    t.ops.foldl (fun s o =>
        if o.set then s.setObjFrom (coreOrig c) o.obj o.value else s.addObjFrom (coreOrig c) o.obj o.value)
      (s.setThr c th { t with ops := [] })
  else s

/-- The same for the three threads of a core. [DEDUCED: log entry 18] -/
def State.flushOps (s : State) (c : Nat) : State := ((s.flushThread c .F).flushThread c .B).flushThread c .U

/-! ### Host operations on objects (R371, R382) -/

/-- SYN_OP: a write that is not one 64-bit access is refused. OBJ is 17 bits wide, so no write names an object above the
last. -/
def State.synOp (s : State) (acc : RegAccess) (set : Bool) : State :=
  if !s.bar0Open 0x80000 then s
  else if acc.part ≠ .whole then s.setB Reg.SYN_STATUS_OP_ERR
  else if bit acc.value 17 != set then s
  else
    let o := bits acc.value 16 0
    let v := bits acc.value 63 32
    if set then s.setObjFrom (.port acc.port) o v else s.addObjFrom (.port acc.port) o v

/-! ### Remote adds (R372) -/

/-- REMOTE_ADD (R372): the packet is acknowledged, and its add is applied once. [DEDUCED: log entry 18] -/
def execRemoteAdd (s : State) : Result :=
  let (e, s) := s.takeEjected 0 0x11
  .next (match e with
  | none => s
  | some (b, p) =>
    let obj := fieldNat p.hdr 32 4
    let op := fieldNat p.hdr 40 4
    let key := (p.src, op)
    let s := if s.remoteSeen.contains key then s
      else
        let s := { s with remoteSeen := s.remoteSeen ++ [key] }
        if lastObject < obj then s.incStop Reg.SYN_CNT_REMOTE_LOST
        else (s.addObjFrom (routerOrig b) obj (fieldNat p.hdr 36 4)).incWrap Reg.SYN_CNT_REMOTE_RECV
    s.sendPkt b 0 p.src 0x12 false 0 [] (leBytes 8 0 ++ leBytes 4 op) [])

/-- REMOTE_ADD_ACK (R372). [DEDUCED: log entry 18] -/
def execRemoteAddAck (s : State) : Result :=
  let (e, s) := s.takeEjected 0 0x12
  .next (match e with
  | none => s
  | some (_, p) => { s with remoteAdds := s.remoteAdds.filter fun r => r.op != fieldNat p.hdr 40 4 })

/-- REMOTE_ADD_TIMEOUT (R372): a remote add has waited REQ_TIMEOUT. -/
def execRemoteAddTimeout (op : Nat) (s : State) : Result :=
  .next (match s.remoteAdds.find? fun r => r.op == op with
  | none => s
  | some r =>
    let s := { s with remoteAdds := s.remoteAdds.filter fun x => x.op != op }
    let s := ((s.setB Reg.SYN_STATUS_REMOTE_LOST).incStop Reg.SYN_CNT_REMOTE_LOST).flagStep 3
    s.record .remoteAddLost (coreSource r.core) [pv2 r.coord, pv4 r.obj])

/-- BARRIER_ARRIVAL (R374): the first arrival packet that has reached this package. -/
def execBarrierArrival (s : State) : Result :=
  let (e, s) := s.takeEjected 0 0x13
  .next (match e with
  | none => s
  | some (_, p) => State.arriveGen State.setObj s (fieldNat p.hdr 32 4 % 64) (fieldNat p.hdr 36 4) (fieldNat p.hdr 40 4))

/-- BARRIER_RELEASE_PACKET (R374): passed on down the tree and taken, unless the generation is already released. -/
def execBarrierReleasePacket (s : State) : Result :=
  let (e, s) := s.takeEjected 0 0x14
  .next (match e with
  | none => s
  | some (_, p) =>
    let gi := fieldNat p.hdr 32 4 % 64
    let k := fieldNat p.hdr 36 4
    let n := fieldNat p.hdr 40 4
    if s.genReleased gi k then s
    else
      let s := { s with barrierGens := s.barrierGens.filter fun x => !(x.group == gi && decide (x.gen ≤ k)) }
      State.takeRelease State.setObj (s.sendRelease gi k n) gi k n)

/-- BAR_DL (R374): a generation's deadline passes, and the node or root sends on the count it holds. -/
def execBarDl (group : Fin 64) (gen : Nat) (s : State) : Result := .next (State.sendGen State.setObj s group.val gen)

end Sys2Proof.Machine
end

