-- ==== Sys2Proof/Machine/Units.lean ====
section
/-! DEFINITION. What ends a work unit with an error and stops a step (R366), and the queue rules of an array that other
units share (R120, R209). -/

namespace Sys2Proof.Machine

/-- The tile slots that a queued command names (R120). -/
def ArrCmd.names (sl : Nat) : ArrCmd → Bool
  | .stream _ _ _ _ _ _ dual _ tile tile2 _ _ _ _ => tile == sl || (dual == 1 && tile2 == sl)
  | .drain _ tile .. => tile == sl
  | _ => false

/-- A queued or executing command of the array names the slot (R120). -/
def ArraySt.namesSlot (a : ArraySt) (sl : Nat) : Bool :=
  (a.queue ++ a.entering).any (fun e => (decodeArr e.word).any (ArrCmd.names sl)) ||
    a.stream.any (fun x => ArrCmd.names sl x.cmd) || a.drain.any fun d => ArrCmd.names sl d.cmd

/-- A descriptor write of a thread must wait (R120): a command of the array names the slot; while a preemption holds the array's
commands aside, the slots of the threads F and B are not in force, and a write of theirs waits for the restore.
[DEDUCED: log entry 10] -/
def ArraySt.slotBusy (a : ArraySt) (th : Thr) (sl : Nat) : Bool := (th != .U && a.saved.isSome) || a.namesSlot sl

/-- One command of a flex job enters the queue, if an entry is free (R209). -/
def ArraySt.refill (a : ArraySt) : ArraySt :=
  if a.queue.length < 8 then { a with queue := a.queue ++ a.entering.take 1, entering := a.entering.drop 1 } else a

/-- Take the command at the head of the queue away. -/
def ArraySt.pop (a : ArraySt) : ArraySt := { a with queue := a.queue.drop 1 }

/-- A descriptor of an accumulator tile slot (R119, R120). -/
structure Slot where
  valid : Bool
  mode : Nat
  rsz : Nat
  base : Nat
deriving DecidableEq, Repr

def tileFlds (c : Nat) (a : Arr) (sl : Nat) : Fld × Fld × Fld × Fld :=
  let n := crownOf c
  let l := localOf c
  match a with
  | .F => (Reg.CRN_ACC_TILE_F_VALID n l sl, Reg.CRN_ACC_TILE_F_MODE n l sl, Reg.CRN_ACC_TILE_F_RSZ n l sl,
           Reg.CRN_ACC_TILE_F_BASE n l sl)
  | .B => (Reg.CRN_ACC_TILE_B_VALID n l sl, Reg.CRN_ACC_TILE_B_MODE n l sl, Reg.CRN_ACC_TILE_B_RSZ n l sl,
           Reg.CRN_ACC_TILE_B_BASE n l sl)

def State.slot (s : State) (c : Nat) (a : Arr) (sl : Nat) : Slot :=
  let (v, m, r, b) := tileFlds c a sl
  ⟨s.rdB v, s.rd m, s.rd r, s.rd b⟩

def State.setSlot (s : State) (c : Nat) (a : Arr) (sl : Nat) (x : Slot) : State :=
  let (v, m, r, b) := tileFlds c a sl
  (((s.wrB v x.valid).wr m x.mode).wr r x.rsz).wr b x.base

/-- Rows of a tile (R119), and bytes of an accumulator in its mode (R121). -/
def Slot.rows (x : Slot) : Nat := 16 * 2 ^ x.rsz
def Slot.width (x : Slot) : Nat := if x.mode ≤ 1 then 5 else 8
def Slot.kib (x : Slot) : Nat := x.rows * 64 * x.width / 1024

/-- A footprint of a unit in one array's file: start and length in KiB (R137, R360). -/
abbrev Footprint := Nat × Nat

/-- The urgent unit that holds a core's arrays. -/
def State.urgentOn (s : State) (c : Nat) : Option UrgentDesc :=
  (s.urgentRuns.find? fun r => r.cores.contains c).bind fun r => s.urgents[r.cmd.unit]?

/-- The accumulators that a stopped unit used keep undefined contents: free values throughout its footprint in an array (R137,
R366), but for what an urgent unit that runs there holds in its own. [DESIGN CHOICE: log entry 12] -/
def State.undefineFile (s : State) (c : Nat) (a : Arr) (foot : Footprint) (keep : Footprint) : State :=
  let (bs, s) := s.drawBytes (foot.2 * 1024)
  let y := s.arr c a
  let f := bs.zipIdx.foldl (fun m e =>
    let p := foot.1 * 1024 + e.2
    if keep.1 * 1024 ≤ p ∧ p < (keep.1 + keep.2) * 1024 then m else Sparse.put (some 0) m p (some e.1)) y.file
  s.setArr c a { y with file := f }

/-- The same for both arrays of a unit of thread F or B. [DESIGN CHOICE: log entry 12] -/
def State.undefineUnit (s : State) (c : Nat) (u : UnitDesc) : State :=
  let (kf, kb) := match s.urgentOn c with
    | some g => ((g.footF, g.lenF), (g.footB, g.lenB))
    | none => ((0, 0), (0, 0))
  (s.undefineFile c .F (u.footF, u.lenF) kf).undefineFile c .B (u.footB, u.lenB) kb

/-- The array keeps no queued command of the threads that stop, and a STREAM of theirs that has left its queue issues no further
row (R366). -/
def ArraySt.discard (a : ArraySt) (stops : Thr → Bool) : ArraySt :=
  let queued (q : List ArrEntry) : List ArrEntry := q.filter fun e => !stops e.thread
  let streaming (x : Option StreamSt) : Option StreamSt := x.filter fun x => !stops x.thread
  { a with
    queue := queued a.queue
    entering := queued a.entering
    stream := streaming a.stream
    fill := if a.queue.any (fun e => stops e.thread) || a.stream.any (fun x => stops x.thread) then [] else a.fill
    saved := a.saved.map fun v => { v with queue := queued v.queue, stream := streaming v.stream } }

/-- Threads of a core stop before their next instruction, and their queued commands are discarded. -/
def CoreSt.discard (c : CoreSt) (stops : Thr → Bool) : CoreSt :=
  let stop (th : Thr) (t : ThreadSt) : ThreadSt := if stops th then { t with running := false, wait := none } else t
  { c with thrF := stop .F c.thrF, thrB := stop .B c.thrB, thrU := stop .U c.thrU
           arrF := c.arrF.discard stops, arrB := c.arrB.discard stops
           vecQueue := c.vecQueue.filter fun e => !stops e.thread }

/-- A step is stopped: no further unit is dispatched, running units stop, and the accumulators they used keep undefined
contents; the first cause gives the step's status (R365, R366). -/
def State.stopStep (s : State) (status : Nat) : State :=
  match s.step with
  | none => s
  | some r =>
    let used := s.cores.flatMap fun e => ([e.2.thrF, e.2.thrB].filter (·.running)).filterMap fun t =>
      (s.units[t.unit]?).map fun u => (e.1, u)
    let s := { s with step := some { r with failed := if r.failed = 0 then status else r.failed } }
    let s := { s with cores := Sparse.mapVals {} (fun _ c => c.discard fun th => th != .U) s.cores }
    used.foldl (fun s e => s.undefineUnit e.1 e.2) s

/-- An urgent unit is complete: its SIGNAL, unless it ended with an error (R366), and the command's completion object gain 1, and the
completion entry is written (R360, R376, R377, R432). [DEDUCED: log entry 9] -/
def State.urgentDone (s : State) (cmd : UrgentCmd) (o : Orig) (failed : Bool) : State :=
  let s := match s.urgents[cmd.unit]? with
    | some u => if failed then s else s.signal o u.signal
    | none => s
  ((s.addObjFrom .mgmt cmd.signal 1).incWrap Reg.SHP_URG_URG_DONE).postEntry cmd.ticket 0 0 2 cmd.unit

/-- Thread U of a core ends; the unit is complete when every core of it has ended (R377). [DEDUCED: log entry 9] -/
def State.endUrgent (s : State) (c : Nat) : State :=
  let s := s.setThr c .U { s.thr c .U with running := false, wait := none }
  match s.urgentRuns.find? fun r => r.cores.contains c with
  | none => s
  | some r =>
    let left := r.cores.erase c
    if left ≠ [] then { s with urgentRuns := s.urgentRuns.map fun x => if x == r then { x with cores := left } else x }
    else ({ s with urgentRuns := s.urgentRuns.erase r } : State).urgentDone r.cmd (coreOrig c) r.failed

/-- A unit on thread U ends with an error on its core: its queued commands are discarded, and the accumulators it used keep
undefined contents (R366). The unit is complete when its last core ends, and its SIGNAL is then not added to. [DEDUCED: log entry 9] -/
def State.urgentError (s : State) (c : Nat) : State :=
  let u := s.urgentOn c
  let s := s.setCore c ((s.core c).discard (· == .U))
  let s := match u with
    | some g => (s.undefineFile c .F (g.footF, g.lenF) (0, 0)).undefineFile c .B (g.footB, g.lenB) (0, 0)
    | none => s
  let s := { s with urgentRuns := s.urgentRuns.map fun (r : UrgentRun) => if r.cores.contains c then { r with failed := true } else r }
  s.endUrgent c

/-- A unit ends with an error (R366): on threads F and B the step stops; on thread U the urgent unit ends on its core.
[DEDUCED: log entry 9] -/
def State.unitError (s : State) (c : Nat) (th : Thr) : State :=
  match th with
  | .U => if (s.thr c .U).running then s.urgentError c else s
  | _ => s.stopStep 1

/-- An access that was held, or that went to another package, completes. -/
def State.finishAccess (s : State) (k : Sink) (status : Nat) (data : List DataByte) : State :=
  match k with
  | .load c th rd =>
    let t : Thr := match th with
      | 0 => .F
      | 1 => .B
      | _ => .U
    let x := s.thr c t
    if status = stAddrFault ∨ data.any (·.isNone) then s.unitError c t
    else s.setThr c t { x.setReg rd (leNat (data.map (·.getD 0))) with wait := none }
  | .store c th =>
    let t : Thr := match th with
      | 0 => .F
      | 1 => .B
      | _ => .U
    let s := s.setThr c t { s.thr c t with wait := none }
    if status = stAddrFault then s.unitError c t else s
  | .hostRead p tag => s.emit (.completion p tag data (if status = stAddrFault then 2 else 0))
  | .hostWrite _ | .hostReg .. | .sync .. => s
  | .fabric b src tag =>
    if data = [] then s.sendPkt b 2 src 0x82 false 0 (leBytes 2 tag ++ [0, 0] ++ leBytes 1 status) [] []
    else s.sendPkt b 2 src 0x81 (data.any (·.isNone)) 0 (leBytes 2 tag ++ [0, 0] ++ leBytes 1 status) []
      (data.map (·.getD 0))

/-- The thread behind a flex job or a direct command, for the registers a command names. -/
def State.cmdReg (s : State) (c : Nat) (e : ArrEntry) (r : Nat) : Nat :=
  match e.job with
  | some ops => if r = 0 then 0 else ops.getD (r - 1) (Config.freeAt .jobReg s.fresh r).toNat
  | none => (s.thr c e.thread).reg r

/-- One array command is discarded and its event recorded with the core number (R93). [DEDUCED: log entry 9] -/
def State.arrayError (s : State) (c : Nat) : State :=
  s.record .arrayCommandError (coreSource c) [pv2 c]

/-- A run of reads by one command of a core: whether it has met poison, whether an access faulted, and whether a die in reset
holds one back (R22, R23), so that the command waits. `bad` are the words (address ÷ 16) that the path spoils (R237). -/
structure Reader where
  s : State
  met : Bool := false
  fault : Bool := false
  held : Bool := false
  bad : List Nat := []

/-- Read for a command of a core: poison met is consumed once, an ADDR_FAULT ends the unit and the reading (R239,
R366). -/
def Reader.read (r : Reader) (c : Core) (th : Thr) (a n : Nat) : List DataByte × Reader :=
  if r.fault || r.held then (List.replicate n none, r)
  else if (r.s.rangeHolder (.core c) a n).isSome then (List.replicate n none, { r with held := true })
  else
    let (st, bs, s) := r.s.memRead (.core c) a n
    if st = stAddrFault then (bs, { r with s := s.unitError c.val th, fault := true })
    else
      let bs := spoil r.bad a bs
      let ws := poisonWords a bs
      (bs, { r with s := s.consumePoison (.core c) ws r.met, met := r.met || !ws.isEmpty })

/-- `n` packed elements of a width among some bytes, the first at a bit; none is poisoned. -/
def packedCodes (start width n : Nat) (bs : List DataByte) : List (Option Nat) :=
  let v := leNat (bs.map (·.getD 0))
  (List.range n).map fun i =>
    let b0 := (start + i * width) / 8
    let b1 := (start + i * width + width - 1) / 8
    if ((bs.drop b0).take (b1 + 1 - b0)).any (·.isNone) then none
    else some ((v >>> (start + i * width)) % 2 ^ width)

/-- `n` packed elements of a width from an address on, the first after `skip` others; none is poisoned. -/
def Reader.elems (r : Reader) (c : Core) (th : Thr) (a skip width n : Nat) : List (Option Nat) × Reader :=
  let lo := skip * width / 8
  let len := (skip * width + n * width + 7) / 8 - lo
  let (bs, r) := r.read c th (a + lo) len
  (packedCodes (skip * width - 8 * lo) width n bs, r)

end Sys2Proof.Machine
end

