-- ==== Sys2Proof/Machine/Accum.lean ====
section
/-! DEFINITION. Accumulation (04) and block scales (05): the file, the terms of a stream row, and what a row does to an
accumulator in each tile mode. -/

namespace Sys2Proof.Machine

/-- The accumulator at a byte offset, none when any of its bytes is poisoned (R117, R120). -/
def ArraySt.accGet (a : ArraySt) (off b : Nat) : Option Nat :=
  let bs := (List.range b).map fun i => Sparse.get (some 0) a.file (off + i)
  if bs.any (·.isNone) then none else some (leNat (bs.map (·.getD 0)))

/-- Put bytes into the file; none poisons. -/
def ArraySt.filePut (a : ArraySt) (off : Nat) (bs : List DataByte) : ArraySt :=
  { a with file := bs.zipIdx.foldl (fun m e => Sparse.put (some 0) m (off + e.2) e.1) a.file }

/-- Put an accumulator; none poisons every byte of it. -/
def ArraySt.accPut (a : ArraySt) (off b : Nat) (v : Option Nat) : ArraySt :=
  a.filePut off (match v with
    | some x => (leBytes b x).map some
    | none => List.replicate b none)

/-- Bytes `off` to `off + n - 1` of the file. -/
def ArraySt.fileGet (a : ArraySt) (off n : Nat) : List DataByte :=
  (List.range n).map fun i => Sparse.get (some 0) a.file (off + i)

/-- Is the tile mode one of the integer modes of R121? -/
def modeInt (mode : Nat) : Bool := mode == 1 || mode == 5 || mode == 6
/-- A maximum or minimum mode (R121), and whether it is a maximum. -/
def modeExt (mode : Nat) : Bool := decide (3 ≤ mode)
def modeMax (mode : Nat) : Bool := mode == 3 || mode == 5

/-- The index of an extremum's accumulator, or the ERR24 of a compensated one: bytes 5 to 7. -/
def accLow (v : Nat) : Nat := v % 2 ^ 40
def accHigh (v : Nat) : Nat := v / 2 ^ 40

/-- The value of an accumulator (R63, R135). -/
def accValue (mode v : Nat) : Num :=
  if modeInt mode then Num.ofInt (signed 40 v)
  else if mode = 2 then accPair (accLow v) (accHigh v)
  else ofAcc40 (accLow v)

/-- Add terms in order; with no terms, nothing (R124, R158). -/
def sumTerms (init : Option Num) (ts : List Num) : Option Num :=
  ts.foldl (fun a t => some (match a with
    | some x => x.add t
    | none => t)) init

/-- Saturate an integer sum into ACC40's integer mode, and whether it saturated (R60, R126). -/
def satAcc40 (v : Int) : Nat × Bool :=
  if v < -(2 ^ 39) then (wrapInt 40 (-(2 ^ 39)), true)
  else if v > 2 ^ 39 - 1 then (2 ^ 39 - 1, true)
  else (wrapInt 40 v, false)

/-- The integer value of an exact integer, whatever exponent it is written with. -/
def Num.toInt : Num → Int
  | .fin s m e =>
    let v : Int := (if 0 ≤ e then m * 2 ^ e.toNat else m / 2 ^ (-e).toNat : Nat)
    if s then -v else v
  | _ => 0

/-- A sum tile's accumulator after one row's terms are added (R124 to R126, R128, R158), and whether an integer
saturated. -/
def sumStep (mode : Nat) (first neg : Bool) (old : Nat) (ts : List Num) : Nat × Bool :=
  let ts := if neg then ts.map Num.neg else ts
  if mode = 1 then
    let t := (ts.map Num.toInt).sum
    satAcc40 (if first then t else signed 40 old + t)
  else
    let x := (sumTerms (if first then none else some (accValue mode old)) ts).getD (.fin false 0 0)
    let acc := toAcc40 x
    if mode = 2 then
      (acc + toErr24 acc (match ofAcc40 acc with
        | .fin s m e => x.sub (.fin s m e)
        | _ => .fin false 0 0) * 2 ^ 40, false)
    else (acc, false)

/-- Does `b` beat `a`? (R130) -/
def beats (isMax : Bool) (a b : Num × Nat) : Bool :=
  if a.1.isNan then b.1.isNan && decide (b.2 < a.2)
  else if b.1.isNan then true
  else match b.1.cmp a.1 with
    | .eq => decide (b.2 < a.2)
    | .gt => isMax
    | .lt => !isMax

/-- The winner of a list of values with their indices. -/
def winner (isMax : Bool) : List (Num × Nat) → Option (Num × Nat)
  | [] => none
  | x :: r => some (r.foldl (fun a b => if beats isMax a b then b else a) x)

/-- An extremum tile's accumulator after one row (R129, R130). -/
def extStep (mode : Nat) (first : Bool) (old : Nat) (w : Num × Nat) : Nat :=
  let keep := !first && !beats (modeMax mode) (accValue mode old, accHigh old) w
  if keep then old
  else (if modeInt mode then wrapInt 40 w.1.toInt else toAcc40 w.1) + w.2 % 2 ^ 24 * 2 ^ 40

/-- The product of a stream and a stationary element (R95): a zero lower part adds exactly +0. -/
def passProduct (loA loS : Bool) (a s : Num) : Num :=
  if (loA && a.isZero) || (loS && s.isZero) then .fin false 0 0 else a.mul s

/-- The products of one column, in inner-index order; none when a factor is poisoned. -/
def columnProducts (st : Stationary) (loA : Bool) (xs : List Val) (n : Nat) : Option (List Num) :=
  let loS := match st.cmd with
    | .load _ _ part .. => part == 2
    | _ => false
  (xs.zip st.elems).foldr (fun e acc =>
    match e.1, e.2.getD n (some (.fin false 0 0)), acc with
    | some a, some s, some r => some (passProduct loA loS a s :: r)
    | _, _, _ => none) (some [])

/-- Cut a list into runs of `n`. -/
def chunks {α : Type} (n : Nat) : Nat → List α → List (List α)
  | 0, _ => []
  | k + 1, xs => xs.take n :: chunks n k (xs.drop n)

/-- The terms of one column: one column sum, or one scaled partial sum per 32-element block when an operand is MX
(R123, R158). `ea` are the stream's scale bytes of the row, `es` the stationary's of the column. The manual gives no scale to the
blocks of cells that a LOAD of fewer CROWS leaves zero; theirs is 127 here (a factor of 1). [DESIGN CHOICE: log entry 10] -/
def columnTerms (mx : Bool) (ea es : List Nat) (ps : List Num) : List Num :=
  if !mx then [columnSum ps]
  else
    (chunks 32 (ps.length / 32) ps).zipIdx.map fun e =>
      let a := ea.getD e.2 127
      let b := es.getD e.2 127
      if a = 255 ∨ b = 255 then .nan
      else (columnSum e.1).scale ((a : Int) - 127 + ((b : Int) - 127))

/-- What one column's terms and the products do to the accumulator of a tile (R117, R124 to R130). -/
def accStep (mode : Nat) (first neg : Bool) (old : Option Nat) (terms : Option (List Num))
    (win : Option (Num × Nat)) : Option Nat × Bool :=
  match terms with
  | none => (none, false)
  | some ts =>
    match old, first with
    | none, false => (none, false)
    | _, _ =>
      let v := old.getD 0
      if modeExt mode then (win.map (extStep mode first v), false)
      else
        let (x, sat) := sumStep mode first neg v ts
        (some x, sat)

/-- Would the descriptor be refused beside the others of its array? (R119) -/
def State.slotRefused (s : State) (c : Nat) (a : Arr) (sl : Nat) (x : Slot) : Bool :=
  let limit := match a with
    | .F => 192
    | .B => 384
  x.mode == 7 || decide (5 ≤ x.rsz) || decide (x.base + x.kib > limit) ||
    (List.range 16).any fun k =>
      k != sl &&
        (let y := s.slot c a k
         y.valid && decide (x.base < y.base + y.kib) && decide (y.base < x.base + x.kib))

def descErr (c : Nat) : Arr → Fld
  | .F => Reg.CRN_ACC_STATUS_DESC_ERR_F (crownOf c) (localOf c)
  | .B => Reg.CRN_ACC_STATUS_DESC_ERR_B (crownOf c) (localOf c)

/-- Write a slot descriptor (R119). Of a refused write the manual says that VALID reads 0; MODE, RSZ and BASE take the written values
here. [DESIGN CHOICE: log entry 10] -/
def State.installSlot (s : State) (c : Nat) (a : Arr) (sl : Nat) (x : Slot) : State :=
  if x.valid && s.slotRefused c a sl x then
    ((s.setSlot c a sl { x with valid := false }).setB (descErr c a)).record .accumulatorDescriptorError
      (coreSource c) [pv2 c]
  else s.setSlot c a sl x

/-- File words met by a command whose bits have changed in storage (R117, R236): the address is the byte offset in the file. A
corrected word is counted; an uncorrectable one poisons every accumulator with a byte in it. [DEDUCED: log entry 8] -/
def State.fileHits (s : State) (c : Nat) (a : Arr) (hs : List EccHit) : State :=
  hs.foldl (fun s h =>
    let y := s.arr c a
    let off := h.addr / 16 * 16
    let old := y.fileGet off 16
    let keep (d : BitVec 128) : State := s.setArr c a (y.filePut off
      ((old.zip (leBytes 16 d.toNat)).map fun e => if e.1.isNone then none else some e.2))
    match decode144 false (BitVec.ofNat 128 (leNat (old.map (·.getD 0)))) h.error with
    | .clean d => keep d
    | .corrected d => (keep d).incWrap (Reg.CRN_ACC_STATUS_CORR_CNT (crownOf c) (localOf c))
    | _ =>
      let s := s.setArr c a (y.filePut off (List.replicate 16 none))
      (s.setB (Reg.CRN_ACC_STATUS_POISON (crownOf c) (localOf c))).record .accumulatorPoison (coreSource c) [pv2 c]) s

end Sys2Proof.Machine
end

