-- ==== Sys2Proof/Machine/Power.lean ====
section
/-! DEFINITION. Power (R383 to R407): operating points, the estimate and its calibration, the cap and the allocator, issue
duty, phases and learning, droop and dips. -/

namespace Sys2Proof.Machine

/-! ### Parts and units -/

def State.modPower (s : State) (f : PowerSt → PowerSt) : State := { s with power := f s.power }
def State.crownPower (s : State) (n : Nat) : CrownPower := Sparse.get {} s.power.crowns n
def State.setCrownPower (s : State) (n : Nat) (x : CrownPower) : State :=
  s.modPower fun p => { p with crowns := Sparse.put {} p.crowns n x }
def State.layer (s : State) (t p : Nat) : Layer := Sparse.get {} s.power.layers (8 * t + p)
def State.setLayer (s : State) (t p : Nat) (x : Layer) : State :=
  s.modPower fun w => { w with layers := Sparse.put {} w.layers (8 * t + p) x }

/-- SOURCE of an event of power and thermal control: a die, or the whole package (R468). -/
def powerSource (t p : Nat) : Nat := source t p 5

/-- A quantity in a register's whole units: exact, or one of its two neighbours. [DESIGN CHOICE: log entry 19] -/
def wholeUnits (x : Frac) : Int :=
  if x.den = 1 then x.num else if Config.roundsUp x.num x.den then x.floor + 1 else x.floor

/-- Watts as a register shows them: at most what 16 bits hold. [DESIGN CHOICE: log entry 19] -/
def watts (x : Frac) : Nat := min 65535 (wholeUnits x).toNat

/-- The exact fraction of a pair. [DESIGN CHOICE: log entry 19] -/
def fracOf (x : Int × Nat) : Frac := Frac.make x.1 x.2

/-- The operating points (R384): VCORE in millivolts and the arithmetic clock in megahertz. -/
def opMv (op : Nat) : Nat := [550, 590, 630, 660, 690, 720, 770, 820].getD op 0
def opMhz (op : Nat) : Nat := [900, 1200, 1500, 1700, 1900, 2100, 2250, 2400].getD op 0

def State.opNow (s : State) (n : Nat) : Nat := s.rd (Reg.PWR_OP_OP n)
def State.dutyNow (s : State) (n : Nat) : Nat := s.rd (Reg.PWR_OP_DUTY n)
def State.calibrated (s : State) : Bool := s.rd Reg.PWR_STATUS_MODE == 0

/-- What scales with the operating point and the duty: (V/0.72)² × (f/2.1) × duty (R395, R396). -/
def opScale (op duty : Nat) : Frac :=
  ((Frac.make (opMv op) 720).sq.mul (Frac.make (opMhz op) 2100)).mul (Frac.make duty 64)

/-! ### The estimate (R389 to R391) -/

/-- The layers of a domain: its dies (R383). -/
def domainLayers (d : Nat) : List (Nat × Nat) :=
  if d < 4 then [(d, 6), (d, 7)]
  else [0, 1, 2, 3].flatMap fun t => if d = 4 then [(t, 6)] else if d = 5 then [1, 2, 3, 4, 5].map (t, ·) else [(t, 0)]

/-- The hottest effective temperature of some layers, where one is known. -/
def State.hottest (s : State) (ls : List (Nat × Nat)) : Option Frac :=
  (ls.filterMap fun l => (s.layer l.1 l.2).te).foldl (fun b x => match b with
    | none => some x
    | some y => some (y.max x)) none

def temperature (x : Option Frac) : Option (Int × Nat) := x.map fun f => (f.num, f.den)

/-- The rails of a domain beyond the crowns (R383), by the numbers of PWR_RAIL. -/
def domainRails (d : Nat) : List Nat :=
  match d with
  | 4 => [4]
  | 5 => [5, 6]
  | _ => [7, 8, 9]

/-- The fixed voltages in millivolts (R384, R495): VSRAM, VDDM, VPPM, VBRIM, VSER and VAON, by the numbers of PWR_RAIL. -/
def railMv (r : Nat) : Nat := [750, 1100, 1800, 750, 850, 1800].getD (r - 4) 0

/-- The voltage of a domain in millivolts: a crown's operating point, or that of one of the domain's rails. Which of them where
they differ is stated nowhere. [DESIGN CHOICE: log entry 19] -/
def State.domainMv (s : State) (d : Nat) : Nat :=
  if d < 4 then opMv (s.opNow d)
  else
    let rails := domainRails d
    railMv (rails.getD (Config.domainRail d % rails.length) 4)

/-- The leakage of a domain at a voltage and its present temperature. -/
def State.leak (s : State) (d mv : Nat) : Frac :=
  fracOf (Config.powerLeakage d mv (temperature (s.hottest (domainLayers d))))

/-- gain(d) in force: 1 outside calibrated operation (R391). -/
def State.gain (s : State) (d : Nat) : Frac :=
  if s.calibrated then Sparse.get ⟨1, 1⟩ s.power.gains d else ⟨1, 1⟩

/-- The guard band of fallback mode (R391). -/
def State.guardBand (s : State) : Frac := if s.calibrated then ⟨1, 1⟩ else ⟨11, 10⟩

/-- The dynamic part of some activity: g(d) × Σ w × a × (V/V0)², with a the count divided by 2 µs. -/
def State.dynamic (s : State) (as : List Activity) : Frac :=
  Frac.sum (as.map fun a =>
    let d := a.domain.val
    ((s.gain d).mul ((fracOf (Config.powerWeight d a.counter)).mul (Frac.ofNat (a.count * 500000)))).mul
      (Frac.make (s.domainMv d) Config.powerV0).sq)

/-- The estimates of one sample (R389), with the crowns' normalised dynamic power and the power map.
[DESIGN CHOICE: log entry 19] -/
def State.sample (s : State) (as : List Activity) : PowerSample :=
  let est := (List.range 7).map fun d =>
    s.guardBand.mul ((s.dynamic (as.filter fun a => a.domain.val == d)).add (s.leak d (s.domainMv d)))
  { est
    dyn := (List.range 4).map fun n =>
      ((est.getD n {}).sub (s.leak n (s.domainMv n))).div (opScale (s.opNow n) (s.dutyNow n))
    die := (List.range 32).map fun i =>
      let t := i / 8
      let p := i % 8
      let te := temperature (s.layer t p).te
      s.guardBand.mul ((s.dynamic (as.filter fun a => a.t.val == t && a.p.val == p)).add
        (fracOf (Config.dieLeakage t p (s.domainMv (if p = 0 then 6 else if p < 6 then 5 else t)) te))) }

/-- Package power by sample, newest first. -/
def State.packagePower (s : State) : List Frac := s.power.samples.map fun x => Frac.sum x.est
/-- The mean of the package power over 10 ms (R393). [DESIGN CHOICE: log entry 19] -/
def State.avg10 (s : State) : Frac := Frac.mean 5000 s.packagePower
/-- The mean of the package power over 1 ms (R393). [DESIGN CHOICE: log entry 19] -/
def State.avg1 (s : State) : Frac := Frac.mean 500 s.packagePower
/-- A domain's mean estimate over the last `n` samples. [DESIGN CHOICE: log entry 19] -/
def State.meanEst (s : State) (n d : Nat) : Frac := Frac.mean n (s.power.samples.map fun x => x.est.getD d {})

/-- The package limit of R393 over 1 ms, held by the action of R404 on crown after crown, the highest current first.
[DEDUCED: log entry 19] -/
def State.packageLimit (s : State) : State :=
  if (Frac.ofNat 4400).lt s.avg1 then
    let free := [0, 1, 2, 3].filter fun n => !(s.crownPower n).pkgLimited
    match free with
    | [] => s
    | a :: r =>
      let k := r.foldl (fun k n => if (s.crownPower k).amps < (s.crownPower n).amps then n else k) a
      (s.setCrownPower k { s.crownPower k with pkgLimited := true }).setB Reg.PWR_STATUS_ICC_LIMIT
  else [0, 1, 2, 3].foldl (fun s n => s.setCrownPower n { s.crownPower n with pkgLimited := false }) s

/-- POWER_ESTIMATE (R389, R393, R395): one sample of the activity counters. [DEDUCED: log entry 19; DESIGN CHOICE: log entries 33 and 35] -/
def execPowerEstimate (activity : List Activity) (s : State) : Result :=
  let x := s.sample activity
  let s := s.modPower fun p => { p with
    activity
    samples := (x :: p.samples).take 5000
    run := p.run.map fun r =>
      let now := x.dyn ++ x.est.drop 4
      { r with samples := r.samples + 1, sums := (List.range 7).map fun d => (r.sums.getD d {}).add (now.getD d {}) } }
  let s := (s.wr Reg.PWR_PKG_P10 (watts s.avg10)).wr Reg.PWR_PKG_P1 (watts s.avg1)
  let s := s.wr Reg.PWR_PKG_P1MAX (max (s.rd Reg.PWR_PKG_P1MAX) (watts s.avg1))
  let s := (List.range 7).foldl (fun s d => s.wr (Reg.PWR_DOM_EST d) (watts (s.meanEst 500 d))) s
  .next s.packageLimit

/-- Gains as the registers show them, in units of 2^-14. -/
def State.showGain (s : State) (d : Nat) (g : Frac) : State :=
  s.wr (Reg.PWR_DOM_GAIN d) (wholeUnits (g.mul (Frac.ofNat 16384))).toNat

/-- The estimate leaves calibrated mode (R391). -/
def State.fallBack (s : State) : State :=
  if !s.calibrated then s
  else
    let s := (s.wr Reg.PWR_STATUS_MODE 1).setB Reg.PWR_STATUS_CAL_LOST
    let s := s.modPower fun p => { p with gains := [], good := [], bad := [] }
    let s := (List.range 7).foldl (fun s d => (s.wr (Reg.PWR_DOM_GAIN d) 0x4000).wr (Reg.PWR_DOM_MEAS d) 0) s
    s.record .estimateFallback (powerSource 0 0) []

/-- Every rail answered at discovery (R388). -/
def State.allRails (s : State) : Bool := (List.range 10).all fun r => s.rdB (Reg.PWR_RAIL_PRESENT r)

/-- The estimate returns to calibrated mode after 100 good calibrations of every domain (R391).
[DEDUCED: log entry 19] -/
def State.comeBack (s : State) : State :=
  if s.calibrated || s.rdB Reg.PWR_CFG_FORCE_FB || !s.allRails then s
  else if (List.range 7).all fun d => decide (100 ≤ Sparse.get 0 s.power.good d) then
    let s := (s.wr Reg.PWR_STATUS_MODE 0).modPower fun p => { p with gains := [], good := [], bad := [] }
    s.record .estimateCalibrated (powerSource 0 0) []
  else s

/-- The measurement M of a domain over its interval, in watts; none where it has none (R390). -/
def State.measured (s : State) (d : Nat) : Option Frac :=
  if d < 4 then
    let c := s.crownPower d
    -- VCORE is the READ_VOUT of the interval, or the commanded voltage where the rail gave none
    let sum := match c.vout with
      | some mv => c.senseAmps * mv
      | none => c.senseSum
    if c.senseN = 0 then none else some (c.senseGain.mul (Frac.make sum (c.senseN * 1000)))
  else
    let rails := domainRails d
    let got := rails.filterMap fun r => s.power.readings.find? (·.1 == r)
    if rails.any (s.power.failedReads.contains ·) ∨ got.length ≠ rails.length then none
    else some (Frac.make ((got.map fun r => r.2.1 * r.2.2).sum : Nat) 1000000)

/-- CALIBRATION (R390, R391): the end of a domain's interval, 1 ms for a crown and 4 ms for the others.
[DEDUCED: log entry 19] -/
def execCalibration (d : Fin 7) (s : State) : Result :=
  let m := s.measured d.val
  let e := s.meanEst (if d.val < 4 then 500 else 2000) d.val
  let s := if d.val < 4 then
      s.setCrownPower d.val { s.crownPower d.val with senseN := 0, senseAmps := 0, senseSum := 0, vout := none }
    else s.modPower fun p => { p with
      readings := p.readings.filter fun r => !(domainRails d.val).contains r.1
      failedReads := p.failedReads.filter fun r => !(domainRails d.val).contains r }
  .next (match m with
  | none => s
  | some m =>
    let within := !e.isZero && (Frac.make 1 2).le (m.div e) && (m.div e).le ⟨2, 1⟩
    let s := s.modPower fun p => { p with
      good := Sparse.put 0 p.good d.val
        (if within && !s.rdB Reg.PWR_CFG_FORCE_FB then Sparse.get 0 p.good d.val + 1 else 0)
      bad := Sparse.put 0 p.bad d.val (if within then 0 else Sparse.get 0 p.bad d.val + 1) }
    if !s.calibrated then s.comeBack
    else
      -- with E = 0 the manual states no quotient
      let (w, s) := if e.isZero then s.drawWord else (0, s)
      let q := if e.isZero then Frac.make w 16384 else m.div e
      let g := s.gain d.val
      let g := (g.add ((q.sub g).mul (Frac.make 1 8))).clamp (Frac.make 1 2) ⟨2, 1⟩
      let s := s.modPower fun p => { p with gains := Sparse.put ⟨1, 1⟩ p.gains d.val g }
      let s := (s.showGain d.val g).wr (Reg.PWR_DOM_MEAS d.val) (watts m)
      if 8 ≤ Sparse.get 0 s.power.bad d.val then s.fallBack else s)

/-- A reading of a VCORE rail, one a millisecond, was made; none where it failed. After 64 ms the sense gain is trimmed to the mean of
those that succeeded (R390). [DEDUCED: log entry 19] -/
def State.vcoreReading (s : State) (n : Nat) (reading : Option (Nat × Nat)) : State :=
  let c := s.crownPower n
  let c := match reading with
    | some (mv, ma) => { c with readN := c.readN + 1, readOk := c.readOk + 1, readMa := c.readMa + ma, vout := some mv }
    | none => { c with readN := c.readN + 1 }
  if c.readN < 64 then s.setCrownPower n c
  else
    let g := if c.trimAmps = 0 ∨ c.readOk = 0 then c.senseGain
      else (Frac.make c.readMa (c.readOk * 1000)).div (Frac.make c.trimAmps c.trimN)
    s.setCrownPower n { c with senseGain := g, readN := 0, readOk := 0, readMa := 0, trimN := 0, trimAmps := 0 }

/-- RAIL_READING (R390, R391): READ_VOUT in millivolts and READ_IOUT in milliamperes of a rail; none when the reading failed.
The READ_VOUT of a VCORE rail is the VCORE of the crown's measurement.
[DEDUCED: log entry 19; DESIGN CHOICE: log entry 35] -/
def execRailReading (rail : Fin 10) (reading : Option (Nat × Nat)) (s : State) : Result :=
  let r := rail.val
  .next (match reading with
  | none =>
    let k := Sparse.get 0 s.power.misses r + 1
    let s := s.modPower fun p => { p with misses := Sparse.put 0 p.misses r k, failedReads := p.failedReads ++ [r] }
    let s := if r < 4 then s.vcoreReading r none else s
    if 3 ≤ k then s.fallBack else s
  | some (mv, ma) =>
    let s := s.modPower fun p => { p with misses := Sparse.put 0 p.misses r 0 }
    if r < 4 then s.vcoreReading r (some (mv, ma))
    else s.modPower fun p => { p with readings := p.readings.filter (fun x => x.1 != r) ++ [(r, mv, ma)] })

/-- Does a current, in hundredths of an ampere, reach 95 % of a limit (R404)? A limit of 0 was not discovered. -/
def reaches (limit : Nat) (now : Frac) : Bool := decide (0 < limit) && (Frac.ofNat (95 * limit)).le now

/-- The limiter acts from 95 % of a limit until below 90 % of it (R404). -/
def stillLimited (was : Bool) (limit : Nat) (now : Frac) : Bool :=
  reaches limit now || (was && !(now.lt (Frac.ofNat (90 * limit))))

/-- CURRENT_SENSE_SAMPLE (R390, R393, R404): a 2 µs sample of VCORE n's on-die sense, in amperes. What holds the 10 ms mean to ISUST
is stated nowhere: here the action of R404, at the same shares of ISUST. [DESIGN CHOICE: log entries 19 and 35] -/
def execCurrentSenseSample (n : Tower) (amps : Nat) (s : State) : Result :=
  let c := s.crownPower n.val
  let peak := s.rd (Reg.PWR_RAIL_IPEAK n.val)
  let sust := s.rd (Reg.PWR_RAIL_ISUST n.val)
  let history := (amps :: c.history).take 5000
  let now := c.senseGain.mul (Frac.ofNat (amps * 100))
  let mean := c.senseGain.mul (Frac.make (history.sum * 100) 5000)
  let c := { c with
    amps
    history
    senseN := c.senseN + 1
    senseAmps := c.senseAmps + amps
    senseSum := c.senseSum + amps * opMv (s.opNow n.val)
    trimN := c.trimN + 1
    trimAmps := c.trimAmps + amps
    limited := stillLimited c.limited peak now
    sustained := stillLimited c.sustained sust mean }
  let s := s.setCrownPower n.val c
  .next (if reaches peak now || reaches sust mean then s.setB Reg.PWR_STATUS_ICC_LIMIT else s)

/-! ### Phases (R394, R395) -/

def State.phaseRec (s : State) : Option PhaseRec := s.power.current.bind fun i => s.power.phases[i]?

/-- An instance of a phase ends: one of at least 100 µs is learned from. [DEDUCED: log entry 19] -/
def State.endPhaseRun (s : State) : State :=
  match s.power.run with
  | none => s
  | some r =>
    let s := s.modPower fun p => { p with run := none }
    if r.samples < 50 then s
    else
      let l := Sparse.get {} s.power.learned r.phase
      let means := r.sums.map fun x => x.mul (Frac.make 1 r.samples)
      let power := if l.count = 0 then means
        else (List.range 7).map fun d =>
          let old := l.power.getD d {}
          old.add (((means.getD d {}).sub old).mul (Frac.make 1 4))
      let s := s.modPower fun p => { p with learned := Sparse.put {} p.learned r.phase ⟨power, l.count + 1⟩ }
      s.wr Reg.PCAP_LEARN_LEARNED (s.power.learned.filter fun e => decide (2 ≤ e.2.count)).length

/-- A phase marker is signalled: the current phase is the record with the highest MARKER not above it. -/
def State.markerPhase (s : State) (m : Nat) : State :=
  let k := (s.power.phases.filter fun r => decide (r.marker ≤ m)).length
  if k = 0 ∨ s.power.current = some (k - 1) then s
  else
    let s := s.endPhaseRun
    let s := s.modPower fun p => { p with current := some (k - 1), run := some ⟨k - 1, 0, []⟩ }
    s.wr Reg.PCAP_LEARN_PHASE ((s.power.phases.getD (k - 1) ⟨0, false, 0, []⟩).marker)

/-- Between steps no phase is current. -/
def State.noPhase (s : State) : State :=
  (s.endPhaseRun.modPower fun p => { p with current := none }).wr Reg.PCAP_LEARN_PHASE 0xFFFF

/-! ### The cap and the allocator (R385, R392, R396, R399) -/

/-- EFF (R392): a standing alarm lowers it to the ALARM_CAP that the last 100 ms step took (R417). [DEDUCED: log entry 19] -/
def State.refreshCap (s : State) : State :=
  let eff := clampNat 900 3600 (s.rd Reg.PCAP_CAP_REQ)
  s.wr Reg.PCAP_CAP_EFF (if s.rdB Reg.PCAP_STATUS_ALARM_LIM then min eff s.power.coolant.alarmCap else eff)

/-- Boost is allowed below these levels, the throttle acts at them, and the trip at the last, in °C (R412). -/
def boostLevel (p : Nat) : Frac := Frac.ofNat (if 6 ≤ p then 95 else 85)
def throttleLevel (p : Nat) : Frac := Frac.ofNat (if 6 ≤ p then 105 else 95)
def tripLevel (p : Nat) : Frac := Frac.ofNat (if 6 ≤ p then 115 else 105)

/-- The boost conditions of R385 for crown n. -/
def State.mayBoost (s : State) (n : Nat) : Bool :=
  s.rdB Reg.PWR_CFG_BOOST_EN && (match s.phaseRec with | some r => r.boost | none => true) && s.calibrated &&
    [1, 2, 3, 4, 5, 6, 7].all fun p => match (s.layer n p).te with
      | some t => t.lt (boostLevel p)
      | none => false

/-- The ceiling without the thermal one (R385). -/
def State.otherCeilings (s : State) (n : Nat) : Nat :=
  let volt := ((List.range 8).filter fun o => decide (opMv o ≤ s.rd (Reg.PWR_RAIL_VMAX n))).length - 1
  min (min volt (match s.phaseRec with | some r => r.maxOp | none => 7)) (if s.mayBoost n then 7 else 5)

def State.opCeiling (s : State) (n : Nat) : Nat := min (s.otherCeilings n) (s.crownPower n).thermOp

def State.showCeiling (s : State) (n : Nat) : State :=
  (s.wr (Reg.PWR_OP_CEIL n) (s.opCeiling n)).wrB (Reg.PWR_OP_THROT n)
    (decide ((s.crownPower n).thermOp < s.otherCeilings n))

/-- The AVSBus Voltage write for an operating point of a crown (R386, R387). -/
def State.writeAvs (s : State) (n op : Nat) : State := s.emit (.avsVoltage n (opMv op))

/-- Start the next change of one operating point of a crown, when none is under way (R386): upward the voltage first, by an AVSBus
write; downward the clock first. -/
def State.startChange (s : State) (n : Nat) : State :=
  let c := s.crownPower n
  let op := s.opNow n
  if c.change.isSome then s
  else if c.op < op then s.setCrownPower n { c with change := some ⟨op - 1, false, true, false⟩ }
  else if op < c.op then (s.setCrownPower n { c with change := some ⟨op + 1, true, false, false⟩ }).writeAvs n (op + 1)
  else s

/-- learn(p, d) of R396. [DEDUCED: log entry 19] -/
def State.learnt (s : State) (d : Nat) : Frac :=
  match s.power.current with
  | some i => (Sparse.get {} s.power.learned i).power.getD d {}
  | none => {}

/-- pred(n) of R396 at an operating point and a duty. -/
def State.pred (s : State) (n op duty : Nat) : Frac :=
  let live := Frac.mean 25 (s.power.samples.map fun x => x.dyn.getD n {})
  (((s.learnt n).max live).mul (opScale op duty)).add (s.leak n (opMv op))

def State.share (s : State) (n : Nat) : Nat :=
  match s.phaseRec with
  | some r => max 1 (r.shares.getD n 1)
  | none => 1

/-- The crown that steps down: the largest pred ÷ share among those that can, the lowest number on ties. -/
def State.stepsDown (s : State) (c : List (Nat × Nat)) : Option Nat :=
  let key (n : Nat) : Frac := (s.pred n (c.getD n (0, 4)).1 (c.getD n (0, 4)).2).mul (Frac.make 1 (s.share n))
  ([0, 1, 2, 3].filter fun n => decide (0 < (c.getD n (0, 4)).1) || decide (4 < (c.getD n (0, 4)).2)).foldl
    (fun (b : Option Nat) n => match b with
      | none => some n
      | some k => if (key k).lt (key n) then some n else some k) none

def State.predSum (s : State) (c : List (Nat × Nat)) : Frac := Frac.sum (c.zipIdx.map fun (x, n) => s.pred n x.1 x.2)

/-- The loop of R396: four crowns at most 67 steps above the floor each. -/
def State.fit (s : State) (budget : Frac) : Nat → List (Nat × Nat) → List (Nat × Nat)
  | 0, c => c
  | fuel + 1, c =>
    if (s.predSum c).le budget then c
    else match s.stepsDown c with
      | none => c
      | some k =>
        let x := c.getD k (0, 4)
        s.fit budget fuel (c.set k (if 0 < x.1 then (x.1 - 1, x.2) else (x.1, x.2 - 1)))

/-- What the other domains are expected to draw. -/
def State.fixedPower (s : State) : Frac := Frac.sum ([4, 5, 6].map fun d => (s.learnt d).max (s.meanEst 25 d))

/-- The package draws more than the cap allows with every crown at its floor (R399). -/
def State.unmet (s : State) : Bool :=
  ([0, 1, 2, 3].all fun n => s.opNow n == 0 && s.dutyNow n == 4) &&
    ((Frac.make 102 100).mul (Frac.ofNat (s.rd Reg.PCAP_CAP_EFF))).lt s.avg10

/-- The operating point that a crown is at, or comes to when the change under way completes.
[DEDUCED: log entry 19] -/
def State.opNext (s : State) (n : Nat) : Nat :=
  match (s.crownPower n).change with
  | some x => x.goal
  | none => s.opNow n

/-- A tick's choice for one crown: down at once, up by at most one point, and not while R387 or R406 forbids it: then a step down
that was chosen before stands. [DEDUCED: log entry 19] -/
def State.choose (s : State) (n : Nat) (x : Nat × Nat) : State :=
  let c := s.crownPower n
  let op := s.opNext n
  let waits := decide (0 < c.avsHold) || decide (0 < c.dipHold)
  let below := s.power.below.contains n || s.power.below.contains 4
  let c := { c with
    op := if waits then min x.1 (min c.op op) else min x.1 (op + 1)
    duty := x.2
    avsHold := c.avsHold - 1
    dipHold := if below then c.dipHold else c.dipHold - 1 }
  ((s.setCrownPower n c).startChange n).showCeiling n

/-- ALLOCATOR_TICK (R396, R399). [DEDUCED: log entry 19; DESIGN CHOICE: log entry 33] -/
def execAllocatorTick (s : State) : Result :=
  let s := s.refreshCap
  let fixed := s.fixedPower
  let hold := s.rdB Reg.PCAP_STATUS_UNMET_NOW || s.unmet
  let s := if s.unmet && !s.rdB Reg.PCAP_STATUS_UNMET_NOW then
      ((s.setB Reg.PCAP_STATUS_CAP_UNMET).setB Reg.PCAP_STATUS_UNMET_NOW).record .capUnmet (powerSource 0 0) []
    else s
  let floor : List (Nat × Nat) := List.replicate 4 (0, 4)
  let plan10 := Frac.mean 200 s.power.plans
  let trim := if hold then s.power.trim
    else (Frac.max {} (s.power.trim.add ((s.avg10.sub plan10).mul (Frac.make 1 8))))
  let budget := (((Frac.make 98 100).mul (Frac.ofNat (s.rd Reg.PCAP_CAP_EFF))).sub trim).sub fixed
  let top := (List.range 4).map fun n => (s.opCeiling n, (s.crownPower n).thermDuty)
  let c := if hold then floor else s.fit budget 300 top
  let plan := fixed.add (s.predSum c)
  let s := (s.modPower fun p => { p with trim, plans := (plan :: p.plans).take 200 }).wr Reg.PCAP_STATUS_TRIM (watts trim)
  .next ((List.range 4).foldl (fun s n => s.choose n (c.getD n (0, 4))) s)

/-- CAP_UNMET_HOLD_END (R399). -/
def execCapUnmetHoldEnd (s : State) : Result :=
  .next (if s.avg10.le (Frac.ofNat (s.rd Reg.PCAP_CAP_EFF)) then s.clrB Reg.PCAP_STATUS_UNMET_NOW else s)

/-! ### Changes of operating point (R386, R387) -/

/-- A change completes; the next one downward follows at once. -/
def State.endChange (s : State) (n : Nat) (x : OpChange) : State :=
  let s := s.setCrownPower n { s.crownPower n with change := none }
  (s.wr (Reg.PWR_OP_OP n) x.goal).startChange n

/-- VOLTAGE_REACHED (R386): on-die sense reads the commanded voltage. -/
def execVoltageReached (n : Tower) (s : State) : Result :=
  let c := s.crownPower n.val
  .next (match c.change with
  | some x =>
    if x.clock then s
    else if x.up then s.setCrownPower n.val { c with change := some { x with clock := true } }
    else s.endChange n.val x
  | none => s)

/-- CLOCK_SLEW_COMPLETE (R386, R387, R407): downward, the voltage is written then; a stretch of the crown's clock pauses the slew. -/
def execClockSlewComplete (n : Tower) (s : State) : Result :=
  let c := s.crownPower n.val
  .next (match c.change with
  | some x =>
    if !x.clock || s.power.below.contains n.val || s.power.below.contains 4 then s
    else if x.up then s.endChange n.val x
    else (s.setCrownPower n.val { c with change := some { x with clock := false } }).writeAvs n.val x.goal
  | none => s)

/-- AVSBUS_FAULT (R387): a write without acknowledgement, or a voltage not reached in 20 µs; the write is repeated once. -/
def execAvsbusFault (n : Tower) (s : State) : Result :=
  let c := s.crownPower n.val
  .next (match c.change with
  | some x =>
    if x.clock then s
    else if !x.repeated then s.setCrownPower n.val { c with change := some { x with repeated := true } } |>.writeAvs n.val x.goal
    else
      let op := min x.goal (s.opNow n.val)
      let s := (s.setCrownPower n.val { c with change := none, avsHold := 200, op := min c.op op }).wr (Reg.PWR_OP_OP n.val) op
      (s.wr Reg.PWR_STATUS_AVS_FAULT (s.rd Reg.PWR_STATUS_AVS_FAULT ||| 2 ^ n.val)).record .avsbusFault
        (powerSource n.val 7) []
  | none => s)

/-! ### Issue duty (R398, R404) -/

/-- Crown n's duty at a slot boundary: the state, and whether the duty rises. -/
def State.dutyBoundary (s : State) (n : Nat) : State × Bool :=
  let c := s.crownPower n
  let d := s.dutyNow n
  let want := if c.limited || c.sustained || c.pkgLimited then 4 else c.duty
  let d' := if want < d then max want (d - 4) else min want (d + 4)
  (s.wr (Reg.PWR_OP_DUTY n) d', decide (d < d'))

/-! ### LSTEP_N, droop and dips (R402, R405 to R407) -/

/-- Does an array of a core wait for an up-slot or ramp up? -/
def State.ramping (s : State) (c : Nat) : Bool :=
  [Arr.F, Arr.B].any fun a =>
    let p := (s.arr c a).fuller.phase
    p == .waitUp || p == .rampUp

/-- Have the waves and ramps of every release ended in a crown? Of a start of urgent work, no core whose unit runs is still to ramp up
for the first time. [DEDUCED: log entry 19] -/
def State.releaseEnded (s : State) (n : Nat) : Bool :=
  (s.crown n).released == [] && ((s.crown n).leading.all fun c => !s.ramping c) &&
    (s.crown n).starting.all fun c => !s.urgentRuns.any fun r => r.cores.contains c

/-- LSTEP_N_DEASSERT (R402): 1 µs has passed since the last ramp of the releases ended. -/
def execLstepNDeassert (s : State) : Result :=
  .next (if s.lstep ∧ [0, 1, 2, 3].all s.releaseEnded then
      let s := [0, 1, 2, 3].foldl (fun s n => s.setCrown n { s.crown n with leading := [], starting := [] }) s
      ({ s with lstep := false } : State).emit (.pin "LSTEP_N" true)
    else s)

/-- SOURCE of a dip: the crown of a VCORE rail, or the package. -/
def railSource (r : Nat) : Nat := if r < 4 then powerSource r 7 else powerSource 0 0

/-- The crowns that a rail's dip steps down: its own, or all four for VSRAM (R406). -/
def dipCrowns (rail : Nat) : List Nat := if rail < 4 then [rail] else if rail = 4 then [0, 1, 2, 3] else []

/-- A crown that waits for 10 ms above the warning level begins them again (R406). [DEDUCED: log entry 19] -/
def CrownPower.dipAgain (c : CrownPower) : CrownPower := if 0 < c.dipHold then { c with dipHold := 200 } else c

/-- Has power failed or the package tripped, so that the removal of a rail is no supply dip (R413, R475, R499)?
[DEDUCED: log entry 19] -/
def State.poweringDown (s : State) : Bool := s.recorder.closed || s.power.trip

/-- DROOP_WARNING (R405, R406): a rail (0 to 9 as PWR_RAIL numbers them) falls below its warning level.
[DEDUCED: log entry 19; DESIGN CHOICE: log entry 35] -/
def execDroopWarning (rail : Fin 10) (s : State) : Result :=
  .next (if rail = 9 ∨ s.power.below.contains rail.val ∨ s.poweringDown then s
    else
      let s := s.modPower fun p => { p with below := p.below ++ [rail.val] }
      let s := (dipCrowns rail.val).foldl (fun s n => s.setCrownPower n (s.crownPower n).dipAgain) s
      (s.incWrap Reg.PWR_DIP_DIPS).record .supplyDip (railSource rail.val) [])

/-- STRETCH_END (R405, R406): the rail is back above its warning level. -/
def execStretchEnd (rail : Fin 10) (s : State) : Result :=
  .next (s.modPower fun p => { p with below := p.below.filter fun r => r != rail.val })

/-- One step down of a crown by a dip (R406, R407): an upward change is abandoned, and at OP0 its voltage goes back with it, by a write
that ends, or fails, as any other does (R387).
[DEDUCED: log entry 19] -/
def State.dipDown (s : State) (n : Nat) : State :=
  let c := s.crownPower n
  let change := match c.change with
    | some x => if x.up then none else some x
    | none => none
  let target := match change with
    | some x => min c.op x.goal
    | none => min c.op (s.opNow n)
  if target = 0 then
    if c.change.isSome && change.isNone then
      (s.setCrownPower n { c with change := some ⟨s.opNow n, false, false, false⟩, dipHold := 200 }).writeAvs n (s.opNow n)
    else s.setCrownPower n { c with change, dipHold := 200 }
  else
    ((s.setCrownPower n { c with change, op := target - 1, dipHold := 200 }).incStop Reg.PWR_DIP_STEPDOWN).startChange n

/-- DIP_STEPDOWN (R406): VCORE n, or VSRAM (4) for all four crowns, has been below warning for another 20 µs. -/
def execDipStepdown (rail : Fin 5) (s : State) : Result :=
  .next (if !s.power.below.contains rail.val then s
    else (dipCrowns rail.val).foldl State.dipDown s)

end Sys2Proof.Machine
end

