-- ==== Sys2Proof/Machine/Fuller.lean ====
section
/-! DEFINITION. The fuller of each array and the slot coordinator of each crown (R101 to R107, R512), with the meanings of
the rows that belong to them. -/

namespace Sys2Proof.Machine

/-- The cycle, among the next `n` at a duty of `step` eighths, in which a row falls due (R102): the first whose credit has reached
one row. -/
def dueIn : Nat → Nat → Nat → Option Nat
  | 0, _, _ => none
  | n + 1, credit, step => if 8 ≤ credit then some 0 else (dueIn n (credit + step) step).map (· + 1)

/-- The cycle of the duty step in progress in which its next row falls due, from `cyc` on. -/
def Fuller.due (f : Fuller) : Option Nat := dueIn (6 - f.cyc) f.credit f.step

/-- The six cycles of the duty step schedule no further row. -/
def Fuller.stepOver (f : Fuller) : Bool := f.due.isNone

/-- Go on to a duty step of a ramp: the credit grows by the old duty in the cycles that were left (R102). -/
def Fuller.enter (f : Fuller) (step : Nat) : Fuller :=
  { f with step, credit := f.credit + (6 - f.cyc) * f.step, cyc := 0 }

/-- Cycles of a held duty until a row falls due (R104): the credit grows by the duty until it reaches one row. -/
def holdCredit : Nat → Nat → Nat → Nat
  | 0, credit, _ => credit
  | n + 1, credit, step => if credit ≥ 8 then credit else holdCredit n (credit + step) step

/-- Begin a granted ramp, from the next step up or down, with the credit that the array carries: one row's from idle, none from
full, and from a step that it holds what the ramp before left, grown by the duty in each of the `hold` cycles since the array's last
row or since the step began, whichever is later (R102, R104, R512). [DEDUCED: log entry 10] -/
def Fuller.begin (f : Fuller) (hold : Nat) : Fuller :=
  let credit := if f.step < 8 then holdCredit hold f.credit f.step else f.credit
  let f := { f with granted := false, fromIdle := false, credit, cyc := 0 }
  match f.phase with
  | .waitUp => { f with phase := .rampUp, step := f.step + 1 }
  | .waitDown => { f with phase := .rampDown, step := f.step - 1 }
  | _ => f

/-- Does the fuller schedule another row? In a ramp within the step in progress; at a duty that is held, as its credit comes
(R104). -/
def Fuller.mayIssue (f : Fuller) : Bool :=
  match f.phase with
  | .idle => false
  | .full | .hold => true
  | .rampUp | .rampDown => !f.stepOver
  | .waitUp | .waitDown => !f.fromIdle && (decide (0 < f.step) || decide (8 ≤ f.credit))

/-- One row issued under the schedule. -/
def Fuller.issue (f : Fuller) : Fuller :=
  match f.phase with
  | .rampUp | .rampDown =>
    match f.due with
    | some j => { f with cyc := f.cyc + j + 1, credit := f.credit + j * f.step - 8 + f.step }
    | none => f
  | .waitUp | .waitDown =>
    if f.step ≥ 8 then f else { f with credit := holdCredit 8 f.credit f.step - 8 + f.step }
  | _ => f

/-- The rows of a stream. -/
def StreamSt.rows (x : StreamSt) : Nat :=
  match x.cmd with
  | .stream _ _ _ _ _ _ _ rows .. => rows
  | _ => 0

def StreamSt.trans (x : StreamSt) : Bool :=
  match x.cmd with
  | .stream _ _ _ trans .. => trans == 1
  | _ => false

/-- The block of the transpose buffer that holds a STREAM's next row (R199). -/
def ArraySt.blockFor (a : ArraySt) (x : StreamSt) : Option FillBlock :=
  a.fill.find? fun b => b.ahead == (x.next == 0) && b.index == x.next / 64

/-- A work row is ready: a checked STREAM has rows left, its transpose block is filled, no DRAIN ahead of it still reads
a tile it adds to, and the array is not being preempted (R134, R200, R512). A STREAM whose first row has issued left
its queue before any DRAIN behind it, so only the first row waits. -/
def ArraySt.workReady (a : ArraySt) : Bool :=
  match a.stream with
  | none => false
  | some x =>
    !a.preempting && decide (x.next < x.rows) && (!x.trans || (a.blockFor x).isSome) &&
      (decide (0 < x.next) || (match a.drain with
        | some d => !x.tiles.contains d.tile
        | none => true))

/-- The counters of one array. -/
def cntWork (c : Nat) : Arr → Fld
  | .F => Reg.CRN_ARR_CNT_F_WORK (crownOf c) (localOf c)
  | .B => Reg.CRN_ARR_CNT_B_WORK (crownOf c) (localOf c)
def cntFill (c : Nat) : Arr → Fld
  | .F => Reg.CRN_ARR_CNT_F_FILL (crownOf c) (localOf c)
  | .B => Reg.CRN_ARR_CNT_B_FILL (crownOf c) (localOf c)
def cntStall (c : Nat) : Arr → Fld
  | .F => Reg.CRN_SWAP_STALL_F_STALL (crownOf c) (localOf c)
  | .B => Reg.CRN_SWAP_STALL_B_STALL (crownOf c) (localOf c)

/-- The fuller's side of a work row: hold ends, and a down-slot request that only waited is withdrawn (R103). -/
def State.fullerWork (s : State) (c : Nat) (a : Arr) : State :=
  let f := (s.arr c a).fuller
  match f.phase with
  | .hold => s.setFuller c a { f with phase := .full, held := 0 }
  | .waitDown =>
    if f.step ≥ 8 ∧ !f.granted then (s.withdraw c a).setFuller c a { f with phase := .full, held := 0 }
    else s.setFuller c a f.issue
  | _ => s.setFuller c a f.issue

/-- FILLER_ROW (R81, R101, R115): in a scheduled cycle without a work row. `delayed` says that a row is ready and that a bank of
the local SRAM delays it in this cycle. A SWAP that waits for the shadow counts the cycle (CRN_SWAP_STALL).
[DEDUCED: log entry 10] -/
def execFillerRow (array : ArrayId) (delayed : Bool) (s : State) : Result :=
  let ⟨core, arr⟩ := array
  if s.power.stopped then .next s else
  let a := s.arr core.val arr
  let f := a.fuller
  .next (if !f.mayIssue || (a.workReady && !delayed) then s
    else
      let s := s.incWrap (cntFill core.val arr)
      let s := if a.swapPending then s.incWrap (cntStall core.val arr) else s
      match f.phase with
      | .full => s.setFuller core.val arr { f with phase := .hold, held := 1 }
      | .hold => s.setFuller core.val arr { f with held := f.held + 1 }
      | _ => s.setFuller core.val arr f.issue)

/-- UP_SLOT_REQUEST (R104): a work row is ready for an idle array, or for one that ramps down and keeps its step. -/
def execUpSlotRequest (core : Core) (arr : Arr) (s : State) : Result :=
  if s.power.stopped then .next s else
  let a := s.arr core.val arr
  let f := a.fuller
  let urgent := match a.stream with
    | some x => x.thread == .U
    | none => false
  .next (if !a.workReady then s
    else match f.phase with
      | .idle => s.requestFromIdle core.val arr urgent
      | .rampDown => (s.setFuller core.val arr { f with phase := .waitUp }).requestSlot core.val arr true urgent
      | _ => s)

/-- DOWN_SLOT_REQUEST (R103): a full array has had no work row for HOLD cycles. -/
def execDownSlotRequest (core : Core) (arr : Arr) (s : State) : Result :=
  if s.power.stopped then .next s else
  let f := (s.arr core.val arr).fuller
  .next (if f.phase = .hold ∧ f.held ≥ (s.crown (crownOf core.val)).holdCycles then
      (s.setFuller core.val arr { f with phase := .waitDown, step := 8, held := 0 }).requestSlot core.val arr false false
    else s)

/-- Which requests one boundary grants: cores are counted against the quotas, urgent requests first, and released cores
wait for the boundary after LSTEP_N (R105, R107, R113). -/
def grants (held : List Nat) : List SlotReq → List Nat → List Nat → Nat → Nat → List SlotReq
  | [], _, _, _, _ => []
  | r :: rest, ups, downs, nu, nd =>
    if r.up then
      if held.contains r.core then grants held rest ups downs nu nd
      else if ups.contains r.core then r :: grants held rest ups downs nu nd
      else if ups.length < nu then r :: grants held rest (r.core :: ups) downs nu nd
      else grants held rest ups downs nu nd
    else
      if downs.contains r.core then r :: grants held rest ups downs nu nd
      else if downs.length < nd then r :: grants held rest ups (r.core :: downs) nu nd
      else grants held rest ups downs nu nd

/-- One grant: the ramp begins in the cycle after the boundary; that of the B-array of an up-slot for both arrays a boundary later
(R105, R106). -/
def State.grantOne (s : State) (both : Bool) (r : SlotReq) : State :=
  let f := (s.arr r.core r.arr).fuller
  (s.withdraw r.core r.arr).setFuller r.core r.arr { f with granted := true, later := r.up && both && r.arr == .B }

/-- A down-slot request whose array has a work row ready again is withdrawn, and the array stays full (R103). -/
def State.stayFull (s : State) (c : Nat) (a : Arr) : State :=
  let x := s.arr c a
  if x.fuller.phase = .waitDown ∧ 8 ≤ x.fuller.step ∧ !x.fuller.granted ∧ x.workReady then
    (s.withdraw c a).setFuller c a { x.fuller with phase := .full, held := 0 }
  else s

/-- The B-array of a grant for both has waited its boundary. -/
def State.noLongerLater (s : State) (c : Nat) : State :=
  let f := (s.arr c .B).fuller
  if f.later then s.setFuller c .B { f with later := false } else s

/-- SLOT_BOUNDARY (R103, R105 to R107, R113, R114, R398, R404): the configuration written since the last boundary is taken, and
requests are granted; the ramps begin with RAMP_STEP. `elapsed` says that 200 ns have passed since LSTEP_N was asserted.
[DEDUCED: log entry 10; DESIGN CHOICE: log entry 33] -/
def execSlotBoundary (n : Tower) (elapsed : Bool) (s : State) : Result :=
  if s.power.stopped then .next s else
  let s := (List.range 144).foldl (fun s l =>
    let c := 144 * n.val + l
    ((s.stayFull c .F).stayFull c .B).noLongerLater c) s
  let y := s.crown n.val
  let y := { y with
    upQuota := s.rd (Reg.CRN_FULLER_CFG_UP_QUOTA n.val)
    downQuota := s.rd (Reg.CRN_FULLER_CFG_DOWN_QUOTA n.val)
    holdCycles := s.rd (Reg.CRN_FULLER_CFG_HOLD n.val)
    released := if elapsed || !s.lstep then [] else y.released }
  let s := s.setCrown n.val y
  let order := y.requests.filter (·.urgent) ++ y.requests.filter (!·.urgent)
  let (s, rises) := s.dutyBoundary n.val
  -- no up-slot at a boundary where the duty rises (R398)
  let gs := grants y.released order [] [] (if rises then 0 else y.upQuota) y.downQuota
  .next (gs.foldl (fun s r =>
    s.grantOne (r.up && gs.any fun q => q.up && q.core == r.core && q.arr == .F) r) s)

/-- RAMP_STEP (R102, R104, R105): a granted ramp begins, or the rows of a step have issued and the duty moves one eighth; an array
that ramps down keeps its step while a work row is ready. `hold` is how many cycles have passed since the last row of a step that
was held before the ramp, or since that step began if it is later. [DEDUCED: log entry 10; DESIGN CHOICE: log entry 33] -/
def execRampStep (array : ArrayId) (hold : Fin 8) (s : State) : Result :=
  let ⟨core, arr⟩ := array
  if s.power.stopped then .next s else
  let a := s.arr core.val arr
  let f := a.fuller
  .next (if f.granted && !f.later then s.setFuller core.val arr (f.begin hold.val)
    else match f.phase with
    | .rampUp => if f.stepOver ∧ f.step < 8 then s.setFuller core.val arr (f.enter (f.step + 1)) else s
    | .rampDown =>
      if f.stepOver ∧ 0 < f.step ∧ !a.workReady then s.setFuller core.val arr (f.enter (f.step - 1))
      else s
    | _ => s)

/-- An array of a core has ramped up: LSTEP_N need not wait for the first ramp of the core any longer (R402). -/
def State.rampedUp (s : State) (c : Nat) : State :=
  let y := s.crown (crownOf c)
  if y.starting.contains c then s.setCrown (crownOf c) { y with starting := y.starting.filter (· != c) } else s

/-- RAMP_END (R102 to R104): the array is full after a ramp-up, idle after a ramp-down that no work row has ended. -/
def execRampEnd (core : Core) (arr : Arr) (s : State) : Result :=
  if s.power.stopped then .next s else
  let a := s.arr core.val arr
  let f := a.fuller
  .next (match f.phase with
    | .rampUp =>
      if f.stepOver ∧ f.step = 8 then
        (s.setFuller core.val arr { f with phase := .full, held := 0, credit := 0, cyc := 0 }).rampedUp core.val
      else s
    | .rampDown => if f.stepOver ∧ f.step = 0 ∧ !a.workReady then s.setFuller core.val arr {} else s
    | _ => s)

/-- What preemption does to the fuller in each of its states (R110, R512). The manual does not say whether the down-slot request
that a preemption makes ranks as one from urgent work (R105); it does here. [DESIGN CHOICE: log entry 10] -/
def State.preemptFuller (s : State) (c : Nat) (a : Arr) : State :=
  let f := (s.arr c a).fuller
  match f.phase with
  | .full | .hold => (s.setFuller c a { f with phase := .waitDown, step := 8, held := 0 }).requestSlot c a false true
  | .rampUp => (s.setFuller c a { f with phase := .waitDown }).requestSlot c a false true
  | .waitUp =>
    if f.fromIdle then (s.withdraw c a).setFuller c a {}
    else ((s.withdraw c a).setFuller c a { f with phase := .waitDown, granted := false, later := false }).requestSlot c a
      false true
  | .idle | .rampDown | .waitDown => s

end Sys2Proof.Machine
end

