-- ==== Sys2Proof/Machine/Arrays.lean ====
section
/-! DEFINITION. The matrix arrays (03, 05): array commands and their checks, shadow loads, swaps, stream rows, zero
points. -/

namespace Sys2Proof.Machine

/-! ### Formats and checks -/

/-- Cell rows of an array (R78). -/
def arrRows : Arr → Nat
  | .F => 32
  | .B => 64

def arrBit : Arr → Nat
  | .F => 0
  | .B => 1

/-- The class of a stationary or whole stream operand (R86): 0 wide, 1 narrow, 2 micro. -/
def fmtClass : Fmt → Option Nat
  | .bf16 | .int8 | .uint8 | .fp16 | .mxint8 | .fp32 => some 0
  | .e4m3 | .e5m2 | .e3m2 | .e2m3 | .int4 | .mxfp8e4 | .mxfp8e5 | .mxfp6e3 | .mxfp6e2 => some 1
  | .e2m1 | .mxfp4 => some 2
  | _ => none

/-- Elements per cell word (R83). -/
def perWord (cls : Nat) : Nat := 2 ^ cls

/-- Does the PART table allow the format? (R93) -/
def partAllowed (f : Fmt) (part : Nat) (isLoad : Bool) : Bool :=
  match part with
  | 0 => (fmtClass f).isSome && f != .fp32 && (isLoad || f != .fp16)
  | 1 | 2 => f == .fp32 || (f == .fp16 && !isLoad)
  | _ => f == .bf16 || f == .int8 || f == .uint8

/-- Bytes per 32-element block (R155). -/
def blockBytes (f : Fmt) : Nat := 4 * f.width

/-- The rules of R155 that a command's own fields settle. -/
def mxFieldsOk (f : Fmt) (tr mxs stride wantTrans : Nat) : Bool :=
  !f.isMx || (tr == wantTrans && mxs != 0 && stride % blockBytes f == 0)

/-- A LOAD's checks at the head of its queue (R93, R155). -/
def loadOk (a : Arr) (stride : Nat) : ArrCmd → Bool
  | .load arr fmt part tr crows ccols base _ mxs =>
    match Fmt.ofCode fmt with
    | none => false
    | some f =>
      arr == arrBit a && partAllowed f part true && decide (1 ≤ crows) && decide (crows ≤ arrRows a) &&
        decide (1 ≤ ccols) && decide (ccols ≤ 64) && !(part == 3 && base == 63) && mxFieldsOk f tr mxs stride 1 &&
        (!f.isMx || crows * perWord ((fmtClass f).getD 0) % 32 == 0)
  | _ => false

/-- Inner length of a pass: the live stationary's (R83, R87). -/
def innerLen (a : Arr) (st : Stationary) : Nat := arrRows a * perWord st.cls

/-- Does the pass suit the tile's mode? (R126, R131, R159) -/
def passSuits (mode : Nat) (f g : Fmt) (neg dual ib ks : Nat) : Bool :=
  let int (x : Fmt) := x == .int8 || x == .uint8 || x == .int4
  (!modeInt mode || (int f && int g)) &&
    (!modeExt mode || (neg == 0 && dual == 0 && !f.isMx && !g.isMx && decide (ib + ks - 1 ≤ 0xFFFFFE)))

/-- A STREAM's checks at the head of its queue (R93, R127, R131, R155). -/
def State.streamOk (s : State) (c : Nat) (a : Arr) (stride ib : Nat) : ArrCmd → Bool
  | .stream arr fmt part tr _ neg dual rows tile tile2 _ base _ mxs =>
    match Fmt.ofCode fmt, (s.arr c a).live with
    | some f, some st =>
      let t := s.slot c a tile
      let t2 := s.slot c a tile2
      arr == arrBit a && partAllowed f part false && decide (1 ≤ rows) && decide (rows ≤ 256) && !(part == 3 && base == 63) &&
        mxFieldsOk f tr mxs stride 0 && t.valid && rows == t.rows &&
        passSuits t.mode f st.fmt neg dual (ib % 2 ^ 24) (innerLen a st) &&
        (dual == 0 || (t2.valid && tile2 != tile && t2.rows == t.rows && t2.mode == t.mode))
    | _, _ => false
  | _ => false

/-! ### The queues -/

/-- The command at the head of a queue, decoded; a word that no layout decodes but whose OP is one of the five still
stands there for its row to discard. [DEDUCED: log entry 10] -/
def State.headCmd (s : State) (c : Nat) (a : Arr) (op : Nat) : Option (ArrEntry × Option ArrCmd) :=
  match (s.arr c a).queue with
  | e :: _ => if s.power.stopped then none else if bits e.word 63 60 = op then some (e, decodeArr e.word) else none
  | [] => none

/-- Commands with a reserved OP are discarded as they reach the head (R93). [DEDUCED: log entry 10] -/
def State.settleQueue (s : State) (c : Nat) (a : Arr) : Nat → State
  | 0 => s
  | n + 1 =>
    match (s.arr c a).queue with
    | e :: _ =>
      let op := bits e.word 63 60
      if 1 ≤ op ∧ op ≤ 5 then s
      else ((s.setArr c a (s.arr c a).pop).arrayError c).settleQueue c a n
    | [] => s

/-- The command at the head leaves its queue. -/
def State.popArr (s : State) (c : Nat) (a : Arr) : State :=
  (s.setArr c a (s.arr c a).pop).settleQueue c a 32

/-- The command at the head fails its checks: it leaves the queue, with what the transpose buffer holds for it, and its event is
recorded (R93). -/
def State.discardHead (s : State) (c : Nat) (a : Arr) : State :=
  let s := s.setArr c a { s.arr c a with fill := (s.arr c a).fill.filter (!·.ahead) }
  ((s.popArr c a).arrayError c).flushOps c

/-- A command enters a queue. -/
def State.enqueueArr (s : State) (c : Nat) (a : Arr) (e : ArrEntry) : State :=
  let y := s.arr c a
  (s.setArr c a { y with queue := y.queue ++ [e] }).settleQueue c a 32

/-! ### Zero points (R146, R147) -/

def zpFlds (c : Nat) : Arr → Fld × Fld × Fld × Fld
  | .F => (Reg.CRN_QZP_ZA_EN_F (crownOf c) (localOf c), Reg.CRN_QZP_ZA_F (crownOf c) (localOf c),
           Reg.CRN_QZP_ZS_EN_F (crownOf c) (localOf c), Reg.CRN_QZP_ZS_F (crownOf c) (localOf c))
  | .B => (Reg.CRN_QZP_ZA_EN_B (crownOf c) (localOf c), Reg.CRN_QZP_ZA_B (crownOf c) (localOf c),
           Reg.CRN_QZP_ZS_EN_B (crownOf c) (localOf c), Reg.CRN_QZP_ZS_B (crownOf c) (localOf c))

def State.zpGet (s : State) (c : Nat) (a : Arr) : List Nat :=
  let (f, g, h, i) := zpFlds c a
  [s.rd f, s.rd g, s.rd h, s.rd i]

def State.zpSet (s : State) (c : Nat) (a : Arr) (v : List Nat) : State :=
  let (f, g, h, i) := zpFlds c a
  (((s.wr f (v.getD 0 0)).wr g (v.getD 1 0)).wr h (v.getD 2 0)).wr i (v.getD 3 0)

/-- The stream and stationary zero points in force, none while disabled. -/
def State.za (s : State) (c : Nat) (a : Arr) : Option Nat :=
  let v := s.zpGet c a
  if v.getD 0 0 = 1 then some (v.getD 1 0) else none
def State.zs (s : State) (c : Nat) (a : Arr) : Option Nat :=
  let v := s.zpGet c a
  if v.getD 2 0 = 1 then some (v.getD 3 0) else none

/-- QPARAM (R145, R146). -/
def execQparam (core : Core) (arr : Arr) (s : State) : Result :=
  .next (match s.headCmd core.val arr 5 with
  | some (_, some (.qparam b zsEn zaEn zs za)) =>
    if b = arrBit arr then (s.popArr core.val arr).zpSet core.val arr [zaEn, za, zsEn, zs] else s.discardHead core.val arr
  | some _ => s.discardHead core.val arr
  | none => s)

/-! ### The array edge and the shadow load path -/

/-- An element as the multiplier sees it (R58, R94, R144): expanded, its zero point subtracted, or split. -/
def edgeVal (f : Fmt) (part : Nat) (zp : Option Nat) (code : Nat) : Num :=
  let x := if f.isMx then decodeBare f code
    else if f = .uint8 then Num.ofInt ((code : Int) - (zp.getD 0 : Nat))
    else decodeElem f code
  match part with
  | 1 => splitHi x
  | 2 => splitLo f x
  | _ => x

/-- The Gauss sum of a real and an imaginary element: exact for integers, rounded to BF16 for BF16 (R100). -/
def gaussSum (f : Fmt) (a b : Val) : Val :=
  match a, b with
  | some x, some y => some (if f = .bf16 then toBf16Val (x.add y) else x.add y)
  | _, _ => none

/-- Lines of packed elements: line `i` starts at `base + i × stride`. -/
def readLines (c : Core) (th : Thr) (base stride skip width cnt : Nat) : Nat → Nat → Reader →
    List (List (Option Nat)) × Reader
  | 0, _, r => ([], r)
  | n + 1, i, r =>
    let (x, r) := r.elems c th (base + i * stride) skip width cnt
    let (xs, r) := readLines c th base stride skip width cnt n (i + 1) r
    (x :: xs, r)

/-- A run of lines of elements as the multiplier sees them. -/
def edgeLines (c : Core) (th : Thr) (f : Fmt) (part : Nat) (zp : Option Nat) (base base2 stride skip cnt n : Nat)
    (r : Reader) : List (List Val) × Reader :=
  let val (l : List (Option Nat)) : List Val := l.map fun o => o.map (edgeVal f part zp)
  let (xs, r) := readLines c th base stride skip f.width cnt n 0 r
  if part = 3 then
    let (ys, r) := readLines c th base2 stride skip f.width cnt n 0 r
    ((xs.zip ys).map fun p => (val p.1).zipWith (gaussSum f) (val p.2), r)
  else (xs.map val, r)

/-- The stationary a LOAD brings (R83, R84, R89, R144, R156): full size, unused cells zero. -/
def readStationary (c : Core) (a : Arr) (th : Thr) (cmd : ArrCmd) (regs : List Nat) (zs : Option Nat) (r : Reader) :
    Option Stationary × Reader :=
  match cmd with
  | .load _ fmt part tr crows ccols .. =>
    match Fmt.ofCode fmt with
    | none => (none, r)
    | some f =>
      let cls := (fmtClass f).getD 0
      let k := crows * perWord cls
      let base := regs.getD 0 0
      let stride := regs.getD 1 0
      let (lines, r) := if tr = 0 then edgeLines c th f part zs base (regs.getD 3 0) stride 0 ccols k r
        else edgeLines c th f part zs base (regs.getD 3 0) stride 0 k ccols r
      let (sc, r) := if f.isMx then
          readLines c th (regs.getD 2 0) (stride / blockBytes f) 0 8 (k / 32) ccols 0 r
        else ([], r)
      let zero : Val := some (.fin false 0 0)
      let cell (i n : Nat) : Val :=
        if i < k ∧ n < ccols then
          (if (sc.getD n []).any (·.isNone) then none
           else if tr = 0 then (lines.getD i []).getD n zero else (lines.getD n []).getD i zero)
        else zero
      let elems := (List.range (arrRows a * perWord cls)).map fun i => (List.range 64).map (cell i)
      (some { cmd, regs, zs, fmt := f, cls, crows, elems, scales := sc.map fun l => l.map (·.getD 127) }, r)
  | _ => (none, r)

/-- LOAD (R89, R91, R111): leaves the queue and reads the stationary into the shadow words. [DEDUCED: log entry 10] -/
def execLoad (core : Core) (arr : Arr) (hits : List EccHit) (s : State) : Result :=
  let a := s.arr core.val arr
  .next (match s.headCmd core.val arr 1 with
  | none => s
  | some (e, cmd?) =>
    match cmd? with
    | some (.load b fmt part tr crows ccols base stride mxs) =>
      let cmd := ArrCmd.load b fmt part tr crows ccols base stride mxs
      let reg := s.cmdReg core.val e
      if !loadOk arr (reg stride) cmd then s.discardHead core.val arr
      else if a.shadowValid ∨ a.loading.isSome ∨ a.saving ∨ a.preempting then s
      else
        let zs := s.zs core.val arr
        let regs := [reg base, reg stride, reg mxs, reg (base + 1)]
        let t := (s.eccHits hits).popArr core.val arr
        let (st, r) := readStationary core arr e.thread cmd regs zs { s := t, bad := s.pathBad hits }
        if r.held then s
        else if r.fault then r.s
        else r.s.setArr core.val arr { r.s.arr core.val arr with loading := st }
    | _ => s.discardHead core.val arr)

/-- SHADOW_VALID (R89): the last cell row is written. -/
def execShadowValid (core : Core) (arr : Arr) (s : State) : Result :=
  if s.power.stopped then .next s else
  let a := s.arr core.val arr
  .next (match a.loading with
  | some st => s.setArr core.val arr { a with loading := none, shadow := some st, shadowValid := true }
  | none => s)

/-- SWAP (R90, R91, R157): at a boundary between rows, once no STREAM is issuing and no shadow load is under way.
[DEDUCED: log entry 10] -/
def execSwap (core : Core) (arr : Arr) (s : State) : Result :=
  let a := s.arr core.val arr
  .next (match s.headCmd core.val arr 2 with
  | some (_, some (.swap b)) =>
    if b ≠ arrBit arr then s.discardHead core.val arr
    else if a.loading.isSome ∨ a.stream.isSome then s
    else
      (s.setArr core.val arr { a with live := a.shadow, shadow := a.live, shadowValid := false }).popArr core.val arr
  | some _ => s.discardHead core.val arr
  | none => s)

/-! ### Streams -/

/-- STREAM (R82, R91, R93, R127): checked at the head; it leaves the queue when its first row issues (R201).
[DEDUCED: log entry 10] -/
def execStream (core : Core) (arr : Arr) (s : State) : Result :=
  let a := s.arr core.val arr
  .next (match s.headCmd core.val arr 3 with
  | some (e, some (.stream b fmt part tr first neg dual rows tile tile2 neg2 base stride mxs)) =>
    let cmd := ArrCmd.stream b fmt part tr first neg dual rows tile tile2 neg2 base stride mxs
    let reg := s.cmdReg core.val e
    if a.stream.any (·.next == 0) then s
    else if !s.streamOk core.val arr (reg stride) (reg mxs) cmd then s.discardHead core.val arr
    else if a.stream.isSome ∨ a.preempting then s
    else
      let x : StreamSt := { cmd, thread := e.thread, base := reg base, stride := reg stride, mxs := reg mxs,
                            base2 := reg (base + 1), za := s.za core.val arr }
      s.setArr core.val arr { a with stream := some x }
  | some _ => if a.stream.any (·.next == 0) then s else s.discardHead core.val arr
  | none => s)

/-! ### The transpose buffer (R199, R200) -/

/-- A transposed STREAM as the fill sees it: its format, PART and rows, the length of its rows, and where it reads. -/
structure FillJob where
  ahead : Bool
  thread : Thr
  fmt : Fmt
  part : Nat
  rows : Nat
  ks : Nat
  base : Nat
  base2 : Nat
  stride : Nat

/-- The queued commands up to the first STREAM, with the class of the stationary that will then be live: a SWAP brings in the
shadow's, and a LOAD gives the shadow its own. -/
def firstStream (live shadow : Nat) : List ArrEntry → Option (ArrEntry × ArrCmd × Nat)
  | [] => none
  | e :: rest =>
    match decodeArr e.word with
    | some (.stream b fmt part tr first neg dual rows tile tile2 neg2 base stride mxs) =>
      some (e, .stream b fmt part tr first neg dual rows tile tile2 neg2 base stride mxs, live)
    | some (.swap _) => firstStream shadow live rest
    | some (.load _ fmt ..) => firstStream live (((Fmt.ofCode fmt).bind fmtClass).getD 0) rest
    | _ => firstStream live shadow rest

/-- The transposed STREAM that issues, if one does. -/
def State.fillIssuing (s : State) (c : Nat) (a : Arr) : Option FillJob :=
  match (s.arr c a).stream, (s.arr c a).live with
  | some x, some st =>
    match x.cmd with
    | .stream _ fmt part 1 _ _ _ rows .. =>
      (Fmt.ofCode fmt).map fun f => ⟨x.next == 0, x.thread, f, part, rows, innerLen a st, x.base, x.base2, x.stride⟩
    | _ => none
  | _, _ => none

/-- The earliest STREAM in the queue that has not issued a row, if it is transposed (R200). Its registers are read as the fill
reads. [DEDUCED: log entry 10] -/
def State.fillAhead (s : State) (c : Nat) (a : Arr) : Option FillJob :=
  let y := s.arr c a
  let cls (o : Option Stationary) : Nat := (o.map (·.cls)).getD 0
  match firstStream (cls y.live) (cls (y.loading.orElse fun _ => y.shadow)) y.queue with
  | some (e, .stream _ fmt part 1 _ _ _ rows _ _ _ base stride _, k) =>
    let reg := s.cmdReg c e
    (Fmt.ofCode fmt).map fun f => ⟨true, e.thread, f, part, rows, arrRows a * 2 ^ k, reg base, reg (base + 1), reg stride⟩
  | _ => none

/-- Blocks that are no longer of use: those whose rows have all issued. -/
def ArraySt.dropBlocks (a : ArraySt) : ArraySt :=
  { a with fill := a.fill.filter fun b => b.ahead || a.stream.any fun x => decide (x.next / 64 ≤ b.index) }

/-- The block that a fill reads next: the first of the STREAM's that is not in the buffer and whose rows have not issued. -/
def ArraySt.nextBlock (a : ArraySt) (j : FillJob) : Option Nat :=
  let lo := match a.stream with
    | some x => if j.ahead then 0 else x.next / 64
    | none => 0
  ((List.range ((j.rows + 63) / 64)).drop lo).find? fun i => !a.fill.any fun b => b.ahead == j.ahead && b.index == i

/-- What the fill reads for, given room for a block: the STREAM that issues before the one behind it (R199, R200). -/
def State.fillNext (s : State) (c : Nat) (a : Arr) : Option (FillJob × Nat) :=
  let y := s.arr c a
  let next (j : Option FillJob) : Option (FillJob × Nat) := j.bind fun j => (y.nextBlock j).map fun i => (j, i)
  if 2 ≤ y.fill.length then none
  else match s.fillIssuing c a with
    | some j => if j.ahead then next (some j) else (next (some j)).orElse fun _ => next (s.fillAhead c a)
    | none => if y.stream.any (·.next == 0) then none else next (s.fillAhead c a)

/-- TRANSPOSE_FILL (R199, R200): the transpose buffer takes its next block, of K_s memory rows by up to 64 elements.
[DEDUCED: log entry 10] -/
def execTransposeFill (array : ArrayId) (hits : List EccHit) (s : State) : Result :=
  let ⟨core, arr⟩ := array
  if s.power.stopped then .next s else
  let c := core.val
  let s0 := s.setArr c arr (s.arr c arr).dropBlocks
  .next (match s0.fillNext c arr with
  | none => s
  | some (j, i) =>
    let n := min 64 (j.rows - 64 * i)
    let met := (s0.arr c arr).fill.any (fun b => b.ahead == j.ahead && b.met) || (!j.ahead && (s0.arr c arr).stream.any (·.met))
    let (xs, r) := readLines core j.thread j.base j.stride (64 * i) j.fmt.width n j.ks 0
      { s := s0.eccHits hits, met, bad := s.pathBad hits }
    let (ys, r) := if j.part = 3 then readLines core j.thread j.base2 j.stride (64 * i) j.fmt.width n j.ks 0 r else ([], r)
    if r.held then s
    else if r.fault then r.s
    else
      let y := r.s.arr c arr
      r.s.setArr c arr { y with fill := y.fill ++ [⟨j.ahead, i, xs, ys, r.met⟩] })

/-- A stream row out of a block of the transpose buffer. -/
def FillBlock.row (b : FillBlock) (f : Fmt) (part : Nat) (za : Option Nat) (k : Nat) : List Val :=
  let val (l : List (Option Nat)) : Val := (l.getD k none).map (edgeVal f part za)
  if part = 3 then (b.rows.zip b.rows2).map fun e => gaussSum f (val e.1) (val e.2) else b.rows.map val

/-- One row of the stream operand, and its scale bytes (R82, R156, R199). [DEDUCED: log entry 10] -/
def readStreamRow (c : Core) (x : StreamSt) (f : Fmt) (part ks row : Nat) (blk : Option FillBlock) (r : Reader) :
    List Val × List (Option Nat) × Reader :=
  match blk with
  | some b => (b.row f part x.za (row % 64), [], { r with met := r.met || b.met })
  | none =>
    let off := row * x.stride
    let (ls, r) := edgeLines c x.thread f part x.za (x.base + off) (x.base2 + off) 0 0 ks 1 r
    let (sc, r) := if f.isMx then r.elems c x.thread (x.mxs + row * (x.stride / blockBytes f)) 0 8 (ks / 32)
      else ([], r)
    (ls.getD 0 [], sc, r)

/-- A product as a maximum or minimum compares it (R130): a value in a float mode, in an integer mode the exact integer, which has
no sign at zero. -/
def extProduct (mode : Nat) (p : Num) : Num := if modeInt mode then Num.ofInt p.toInt else p

/-- What a row brings to one column of a tile: its products, as column sums or scaled partial sums, none where a factor or a scale is
poisoned, and in a maximum or minimum mode its winner, with its inner index (R123, R129, R130, R158). -/
def columnInput (sl : Slot) (st : Stationary) (x : StreamSt) (loA mx : Bool) (xs : List Val) (sc : List (Option Nat)) (n : Nat) :
    Option (List Num) × Option (Num × Nat) :=
  let ps := if sc.any (·.isNone) then none else columnProducts st loA xs n
  (ps.map fun p => if modeExt sl.mode then [] else columnTerms mx (sc.map (·.getD 127)) (st.scales.getD n []) p,
   if modeExt sl.mode then
     ps.bind fun p => winner (modeMax sl.mode)
       ((p.take (st.crows * perWord st.cls)).zipIdx.map fun e => (extProduct sl.mode e.1, x.mxs % 2 ^ 24 + e.2))
   else none)

/-- One tile receives a row: the new file and the saturations (R82, R84, R123 to R131). -/
def tileRow (a : ArraySt) (sl : Slot) (st : Stationary) (x : StreamSt) (ccols row : Nat) (first neg loA mx : Bool)
    (xs : List Val) (sc : List (Option Nat)) : ArraySt × Nat :=
  let b := sl.width
  (List.range ccols).foldl (fun (acc : ArraySt × Nat) n =>
    let off := sl.base * 1024 + (64 * row + n) * b
    let (terms, win) := columnInput sl st x loA mx xs sc n
    let (v, sat) := accStep sl.mode first neg (acc.1.accGet off b) terms win
    (acc.1.accPut off b v, acc.2 + sat.toNat)) (a, 0)

/-- The columns a stationary's LOAD named. -/
def Stationary.ccols (st : Stationary) : Nat :=
  match st.cmd with
  | .load _ _ _ _ _ ccols .. => ccols
  | _ => 64

/-- WORK_ROW (R82, R85, R115, R123 to R131, R158): one stream row issues and its sums are accumulated. `hits` are the
storage errors of the memory words it reads, `fhits` those of the file words. [DEDUCED: log entry 10] -/
def execWorkRow (core : Core) (arr : Arr) (hits fhits : List EccHit) (s : State) : Result :=
  if s.power.stopped then .next s else
  let a := s.arr core.val arr
  .next (match a.stream, a.live with
  | some x, some st =>
    if !a.workReady || !a.fuller.mayIssue then s
    else match x.cmd with
    | .stream _ fmt part tr first neg dual rows tile tile2 neg2 .. =>
      match Fmt.ofCode fmt with
      | none => s
      | some f =>
        let blk := if tr = 1 then a.blockFor x else none
        let (xs, sc, r) := readStreamRow core x f part (innerLen arr st) x.next blk
          { s := (s.eccHits hits).fileHits core.val arr fhits, met := x.met, bad := s.pathBad hits }
        if r.held then s
        else if r.fault then r.s
        else
          let s := r.s
          let a := s.arr core.val arr
          let mx := f.isMx || st.fmt.isMx
          let (a, n1) := tileRow a (s.slot core.val arr tile) st x st.ccols x.next (first == 1) (neg == 1) (part == 2) mx
            xs sc
          let (a, n2) := if dual = 1 then
              tileRow a (s.slot core.val arr tile2) st x st.ccols x.next (first == 1) (neg2 == 1) (part == 2) mx xs sc
            else (a, 0)
          let done := decide (x.next + 1 ≥ rows)
          let issuing := a.fill.map fun b => { b with ahead := b.ahead && x.next != 0 }
          let a := ({ a with
            stream := if done then none else some { x with next := x.next + 1, met := r.met }
            fill := issuing } : ArraySt).dropBlocks
          let s := s.setArr core.val arr a
          let s := if x.next = 0 then s.popArr core.val arr else s
          let s := s.countCore core.val (List.replicate (n1 + n2) ⟨0x0B, 7, .overflow⟩)
          (s.incWrap (cntWork core.val arr)).fullerWork core.val arr
    | _ => s
  | _, _ => s)

/-! ### Slot descriptors written by software -/

/-- A descriptor's value as the layout gives it (R119). -/
def Slot.ofNat (v : Nat) : Slot := ⟨bit v 31, bits v 30 28, bits v 27 25, bits v 8 0⟩
def Slot.toNat (x : Slot) : Nat := x.valid.toNat * 2 ^ 31 + x.mode * 2 ^ 28 + x.rsz * 2 ^ 25 + x.base

def slotOff (c : Nat) (a : Arr) (sl : Nat) : Nat :=
  0x1010000 + crownOf c * 0x400000 + localOf c * 0x1000 + (match a with
    | .F => 0x80
    | .B => 0xC0) + 4 * sl

/-- A write of a descriptor from the control core: at once, or held until no command names the slot (R120). -/
def State.threadSlotWrite (s : State) (c : Nat) (th : Thr) (a : Arr) (sl v : Nat) : State :=
  let y := s.arr c a
  if y.slotBusy th sl then
    (s.setArr c a { y with deferred := y.deferred ++ [(sl, v, th)] }).setThr c th
      { s.thr c th with wait := some .slot }
  else s.installSlot c a sl (Slot.ofNat v)

/-- DEFERRED_DESCRIPTOR_WRITE (R120): a descriptor write that waited takes effect. -/
def execDeferredDescriptorWrite (core : Core) (arr : Arr) (s : State) : Result :=
  if s.power.stopped then .next s else
  let a := s.arr core.val arr
  .next (match a.deferred.find? fun d => !a.slotBusy d.2.2 d.1 with
  | some (sl, v, th) =>
    let s := s.setArr core.val arr { a with deferred := a.deferred.erase (sl, v, th) }
    let s := s.installSlot core.val arr sl (Slot.ofNat v)
    let t := s.thr core.val th
    let more := [Arr.F, Arr.B].any fun b => (s.arr core.val b).deferred.any fun d => d.2.2 == th
    if t.wait = some .slot ∧ !more then s.setThr core.val th { t with wait := none } else s
  | none => s)

end Sys2Proof.Machine
end

