-- ==== Sys2Proof/Machine/Clocks.lean ====
section
/-! DEFINITION. The loss and return of clocks (R501). -/

namespace Sys2Proof.Machine

/-- The fabric links of a brim (R281). [DEDUCED: log entry 28] -/
def brimLinks (b : Nat) : List Nat := (List.range 14).filter fun l => linkBrim l == b

/-- A reference clock stops. [DEDUCED: log entry 28] -/
def State.loseRef (s : State) (k : Nat) : State := { s with refLost := s.refLost.filter (· != k) ++ [k] }

/-- SERDES_REFERENCE_LOSS (R501): links of the brim that train or are up go DOWN. [DEDUCED: log entry 28] -/
def execSerdesReferenceLoss (brim : Tower) (s : State) : Result :=
  .next ((brimLinks brim.val).foldl (fun s l => if 2 ≤ s.linkState l ∧ s.linkState l ≤ 8 then s.declareDown l 1 else s)
    (s.loseRef brim.val))

/-- PCIE_REFERENCE_LOSS (R501): the port's link goes down; the function keeps its state. [DEDUCED: log entry 28] -/
def execPcieReferenceLoss (port : Port) (s : State) : Result :=
  let p := port.val
  let s := (s.loseRef (4 + p)).setHost p { s.host p with linkUp := false }
  .next ((s.wr (Reg.HQ_PORT_RATE p) 0).wr (Reg.HQ_PORT_WIDTH p) 0)

/-- ALWAYS_ON_CLOCK_LOSS (R501): the brim runs on its internal oscillator. [DEDUCED: log entry 28] -/
def execAlwaysOnClockLoss (brim : Tower) (s : State) : Result :=
  .next { s with boot := { s.boot with oscillator := s.boot.oscillator.filter (· != brim.val) ++ [brim.val] } }

/-- CLOCK_RETURN (R501): 0 to 3 the SerDes reference of a brim, 4 and 5 the PCIe reference of a port, 6 to 9 the always-on clock
of a brim, which has run for 1 ms. Links that the loss took DOWN retrain; a port's link trains in hardware.
[DEDUCED: log entry 28] -/
def execClockReturn (clock : Fin 10) (s : State) : Result :=
  let k := clock.val
  .next (if 6 ≤ k then { s with boot := { s.boot with oscillator := s.boot.oscillator.filter (· != k - 6) } }
    else if !s.refLost.contains k then s
    else
      let s := { s with refLost := s.refLost.filter (· != k) }
      (brimLinks k).foldl (fun s l =>
        if s.linkState l = 9 then
          (s.wr (Reg.HB_LINK_STATUS_ATTEMPTS l) (min 3 (s.rd (Reg.HB_LINK_STATUS_ATTEMPTS l) + 1))).setLinkState l 2
        else s) s)

end Sys2Proof.Machine
end

