-- ==== Sys2Proof/Machine/Flex.lean ====
section
/-! DEFINITION. The flex scheduler of a flex core: posting jobs and assigning them to arrays (R205 to R212, R222). -/

namespace Sys2Proof.Machine

/-- A ready condition in the layout of R205; none where a reserved value or field is used. -/
def condOf (v : Nat) : Option ReadyCond :=
  if bits v 46 45 ≤ 1 ∧ bits v 44 32 = 0 then some ⟨bits v 63 47, bits v 31 0, bits v 46 45 == 1⟩ else none

/-- The register fields an array command names (R206). -/
def ArrCmd.regFields : ArrCmd → List Nat
  | .load _ _ _ _ _ _ base stride mxs => [base, stride, mxs]
  | .stream _ _ _ _ _ _ _ _ _ _ _ base stride mxs => [base, stride, mxs]
  | .drain _ _ _ _ _ _ ebase estride => [ebase, estride]
  | _ => []

/-- May a job hold the command word? It is one of the five kinds and names no register field value above 8 (R206,
R207); a LOAD above 32 cell rows needs ARRSEL to name the B-array. A reserved field inside the command is left to the
array's own rules (R93, R212). -/
def jobCmdOk (sel w : Nat) : Bool :=
  let op := bits w 63 60
  if op < 1 ∨ 5 < op then false
  else
    let regs := if op = 1 ∨ op = 3 then [bits w 29 24, bits w 23 18, bits w 17 12]
      else if op = 4 then [bits w 29 24, bits w 23 18] else []
    regs.all (decide <| · ≤ 8) && !(op == 1 && decide (sel ≤ 1) && decide (32 < bits w 46 40))

/-- The job a descriptor of 192 bytes holds; none where R207 discards it. -/
def jobOf (th : Thr) (bs : List Byte) : Option FlexJob :=
  let h := fieldNat bs 0 8
  let n := bits h 57 54
  let sel := bits h 59 58
  let conds := (List.range (bits h 53 52)).map fun i => condOf (fieldNat bs (8 + 8 * i) 8)
  let cmds := (List.range n).map fun i => fieldNat bs (88 + 8 * i) 8
  if bits h 63 60 ≤ 3 ∧ sel ≤ 2 ∧ 1 ≤ n ∧ n ≤ 13 ∧ bits h 53 52 ≤ 2 ∧ bits h 50 48 = 0 ∧ bits h 39 0 = 0 ∧
      conds.all (·.isSome) ∧ cmds.all (jobCmdOk sel) then
    some { thread := th, kind := bits h 63 60, arrSel := sel, gend := bit h 51, group := bits h 47 40
           conds := conds.filterMap id, operands := (List.range 8).map fun i => fieldNat bs (24 + 8 * i) 8, cmds }
  else none

/-- A job or post is discarded: JOB_ERR and the event with the core number (R207). -/
def State.jobError (s : State) (c : Nat) : State :=
  (s.setB (Reg.CRN_FLEX_STAT_JOB_ERR (crownOf c) (localOf c))).record .flexJobError (coreSource c) [pv2 c]

/-- Can the scheduler take another job? A write from the control core waits while it cannot (R207). -/
def CoreSt.jobRoom (x : CoreSt) : Bool := decide (x.jobs.length < 16)

/-- The post of a descriptor by control-core code (R207, R222). -/
def State.postJob (s : State) (c : Nat) (th : Thr) (v : Nat) : State :=
  if !s.rdB (Reg.CRN_FLEX_CFG_EN (crownOf c) (localOf c)) then
    s.setB (Reg.CRN_FLEX_STAT_JOB_ERR (crownOf c) (localOf c))
  else
    let bs := (List.range 192).map fun i => s.readByte (0x5000000000 + c * 0x100000 + (bits v 19 6 * 64 + i) % 0x100000)
    if bs.any (·.isNone) then s.jobError c
    else match jobOf th (bs.map (·.getD 0)) with
      | none => s.jobError c
      | some j => s.setCore c { s.core c with jobs := (s.core c).jobs ++ [j] }

/-- Can the array take a job? Every command of the last one has entered its queue (R209). -/
def ArraySt.canTake (a : ArraySt) : Bool := a.entering.isEmpty && a.saved.isNone

/-- May the job take the array, by ARRSEL and its group's binding (R209, R210)? -/
def CoreSt.jobMayTake (x : CoreSt) (j : FlexJob) (a : Arr) : Bool :=
  match x.bindings.find? (·.1 == j.group) with
  | some b => if j.group = 0 then false else b.2 == a
  | none =>
    (match j.arrSel with
      | 0 => true
      | 1 => a == .F
      | _ => a == .B) && (j.group == 0 || decide (x.bindings.length < 16))

/-- The array an assignable job goes to in this cycle, given which arrays can still take one (R209). -/
def CoreSt.jobArray (x : CoreSt) (j : FlexJob) (f b : Bool) : Option Arr :=
  let okF := f && x.jobMayTake j .F
  let okB := b && x.jobMayTake j .B
  if okF && okB then (if j.kind = 1 ∨ j.kind = 2 then some .B else some .F)
  else if okF then some .F else if okB then some .B else none

/-- Write the ARR bit of a command (R206). -/
def withArr (a : Arr) (w : Nat) : Nat :=
  let b := match a with
    | .F => 0
    | .B => 1
  w - bits w 59 59 * 2 ^ 59 + b * 2 ^ 59

/-- Assign one job to an array: its binding, its count, and its commands on their way into the queue (R209, R210).
[DEDUCED: log entry 18] -/
def State.assignJob (s : State) (c : Nat) (j : FlexJob) (a : Arr) : State :=
  let x := s.core c
  let bound := if j.group = 0 then x.bindings
    else if j.gend then x.bindings.filter (·.1 != j.group)
    else if x.bindings.any (·.1 == j.group) then x.bindings else x.bindings ++ [(j.group, a)]
  let x := { x with jobs := x.jobs.erase j, bindings := bound }
  let y := x.arr a
  let es := j.cmds.map fun w => { word := withArr a w, thread := j.thread, job := some j.operands : ArrEntry }
  let x := x.setArr a { y with entering := es }
  let s := s.setCore c x
  s.incWrap (match a with
    | .F => Reg.CRN_FLEX_CNT_F_JOBS (crownOf c) (localOf c)
    | .B => Reg.CRN_FLEX_CNT_B_JOBS (crownOf c) (localOf c))

/-- The cycle's assignments: ready jobs in posting order, at most one per array. [DEDUCED: log entry 18] -/
def State.assignJobs (s : State) (c : Nat) : List FlexJob → Bool → Bool → State
  | [], _, _ => s
  | j :: rest, f, b =>
    if !(j.conds.all s.condHolds) then s.assignJobs c rest f b
    else match (s.core c).jobArray j f b with
      | none => s.assignJobs c rest f b
      | some .F => (s.assignJob c j .F).assignJobs c rest false b
      | some .B => (s.assignJob c j .B).assignJobs c rest f false

/-- Commands of the jobs that the arrays have taken enter their queues, one each. -/
def State.enterJobs (s : State) (c : Nat) : State :=
  let x := s.core c
  let s := s.setCore c ((x.setArr .F x.arrF.refill).setArr .B x.arrB.refill)
  (s.settleQueue c .F 32).settleQueue c .B 32

/-- JOB_ASSIGNMENT (R208 to R211): the scheduler's work of one cycle. One command of the job that each array took last enters its
queue; an array all of whose commands had entered before can take a job. No job is assigned while thread U holds the queues.
[DEDUCED: log entry 18] -/
def execJobAssignment (core : Core) (s : State) : Result :=
  if s.power.stopped then .next s else
  let x := s.core core.val
  let f := x.arrF.canTake
  let b := x.arrB.canTake
  let s := s.enterJobs core.val
  .next (if x.urgent || !s.rdB (Reg.CRN_FLEX_CFG_EN (crownOf core.val) (localOf core.val)) then s
    else s.assignJobs core.val (s.core core.val).jobs f b)

end Sys2Proof.Machine
end

