-- ==== Sys2Proof/Machine/Func.lean ====
section
/-! DEFINITION. The functions of a FUNC stage (R180): a value close enough to the exact result that the stated error, in FP32's
last place, can be measured from it, and the free value within that error that the device gives. -/

namespace Sys2Proof.Machine

/-! ### Fixed point with 160 fraction bits -/

def fxBits : Nat := 160
def fxOne : Int := 2 ^ 160
/-- ln 2 and √(2 ÷ π). -/
def fxLn2 : Int := 1013035739299659071135698605846798551586536899366
def fxRoot2Pi : Int := 1166109592014436081468383460887399764390691815008

def fxMul (a b : Int) : Int := a * b / fxOne

/-- A finite value in fixed point. -/
def Num.toFx : Num → Int
  | .fin s m e =>
    let v : Int := (splitAt m e (-160)).quo
    if s then -v else v
  | _ => 0

/-- Is the magnitude 2^13 or more, where an exponential leaves every format? -/
def Num.isLarge : Num → Bool
  | .fin _ m e => m != 0 && decide (13 ≤ floorLog2 m e)
  | _ => true

/-- e^y for a fixed-point y, by its power series below ln 2. -/
def expFx (y : Int) : Num :=
  let n := y / fxLn2
  let f := y - n * fxLn2
  let sum := (List.range 48).foldl (fun (a : Int × Int) k => (a.1 + a.2, fxMul a.2 f / (k + 1 : Nat))) (0, fxOne)
  .fin false sum.1.toNat (n - 160)

/-- 1 ÷ (1 + e^-y). -/
def sigmoidFx (y : Int) : Num :=
  let E := expFx (-(y.natAbs : Int))
  let d := (fxOne + E.toFx).toNat
  match E with
  | .fin _ m e => if 0 ≤ y then .fin false (2 ^ 320 / d) (-160) else .fin false (m * 2 ^ 160 / d) e
  | x => x

/-- ln of a positive value: the series of the inverse hyperbolic tangent over [1, 2), and the exponent. -/
def lnFx (m : Nat) (e : Int) : Int :=
  let k := floorLog2 m e
  let u : Int := (splitAt m (e - k) (-160)).quo
  let z := (u - fxOne) * fxOne / (u + fxOne)
  let z2 := fxMul z z
  let sum := (List.range 56).foldl (fun (a : Int × Int) i => (a.1 + a.2 / (2 * i + 1 : Nat), fxMul a.2 z2)) (0, z)
  k * fxLn2 + 2 * sum.1

/-- The square root of a natural number, rounded down, bit by bit. -/
def rootNat (n : Nat) : Nat :=
  (List.range 260).foldl (fun r i => let t := r + 2 ^ (259 - i); if t * t ≤ n then t else r) 0

/-- √(m × 2^e), with an even exponent taken out. -/
def rootNum (m : Nat) (e : Int) : Num :=
  let m := if e % 2 = 0 then m else 2 * m
  let e := if e % 2 = 0 then e else e - 1
  .fin false (rootNat (m * 2 ^ 240)) (e / 2 - 120)

def ofFx (v : Int) : Num := Num.ofScaled v (-160)

/-- A value beyond every format, and one below. -/
def hugeNum : Num := .fin false 1 6000
def tinyNum : Num := .fin false 1 (-6000)

/-- A finite input's function value, to far more places than the stated error (R180). -/
def funcNear (op : Nat) (x : Num) : Num :=
  match x with
  | .fin neg m e =>
    let gate (y : Num) : Num := if y.isLarge then (if neg then tinyNum else .fin false 1 0) else sigmoidFx y.toFx
    match op with
    | 0 => if x.isLarge then (if neg then tinyNum else hugeNum) else expFx (fxMul x.toFx fxLn2)
    | 1 => if x.isLarge then (if neg then tinyNum else hugeNum) else expFx x.toFx
    | 2 => ofFx (lnFx m e * fxOne / fxLn2)
    | 3 => ofFx (lnFx m e)
    | 4 => .fin neg (2 ^ 240 / max 1 m) (-240 - e)
    | 5 => rootNum m e
    | 6 => rootNum (2 ^ 200 / max 1 m) (-200 - e)
    | 7 =>
      if m = 0 ∨ floorLog2 m e < -40 then x
      else if x.isLarge then .fin neg 1 0
      else
        let E := (expFx (2 * x.abs.toFx)).toFx
        .fin neg ((E - fxOne) * fxOne / (E + fxOne)).toNat (-160)
    | 8 => gate x
    | 9 => x.mul (gate x)
    | _ =>
      let cube := (x.mul x).mul x
      let inner := x.add (cube.mul (.fin false (44715 * 2 ^ 160 / 1000000) (-160)))
      x.mul (gate (inner.mul (.fin false (2 * fxRoot2Pi).toNat (-160))))
  | x => x

/-- Units in FP32's last place that R180 allows a function. -/
def funcUlps (op : Nat) : Nat :=
  match op with
  | 0 | 2 | 4 | 5 | 6 => 1
  | _ => 2

/-- A value within the stated error of a function value: the deviation is the free value, in 2^24ths of the last place of FP32 at
the value. [DESIGN CHOICE: log entry 12] -/
def withinUlps (ulps : Nat) (near : Num) (free : Nat) : Num :=
  let span := ulps * 2 ^ 24
  let dev : Int := (free % (2 * span + 1) : Nat) - (span : Nat)
  let unit : Int := match near with
    | .fin _ m e => if m = 0 then -149 else max (floorLog2 m e) (-126) - 23
    | _ => -149
  if dev = 0 then near else near.add (Num.ofScaled dev (unit - 24))

end Sys2Proof.Machine
end

