-- ==== Sys2Proof/Machine/Lanes.lean ====
section
/-! DEFINITION. The vector engine's lanes (06): lane values, the operation tile, and the stages that rearrange, compute
and reduce. -/

namespace Sys2Proof.Machine

/-! ### Lane values (R169, R170) -/

/-- A lane value: a lane float or a lane integer. -/
inductive LV where
  | f (x : Num)
  | i (v : Int)
deriving DecidableEq, Repr

/-- A lane's position: value, mask, index and poison. -/
structure Lane where
  val : LV
  mask : Bool := true
  idx : Option Nat := none
  poison : Bool := false
deriving DecidableEq, Repr

/-- The operation tile (R167): elements in row-major order; the last row may be short. `row0` is the row number of its
first row, for a DRAIN that resumes. -/
structure Tile where
  rows : Nat
  cols : Nat
  row0 : Nat := 0
  lanes : List Lane
deriving DecidableEq, Repr

/-- The lane float layout (R169). -/
def laneLayout : Layout := ⟨12, 47, 2047, .ieee⟩

/-- Round a result to odd to 48 significand bits; beyond the lane float's range it is an infinity (R170). -/
def roundLane : Num → Num
  | .fin neg m e =>
    if m = 0 then .fin neg 0 0
    else if floorLog2 m e > 2047 then .inf neg
    else
      let q := max (floorLog2 m e) (-2046) - 47
      .fin neg (roundMag .odd neg m e q) q
  | x => x

/-- A lane integer result saturates at its range, and says so (R170). -/
def satLane (v : Int) : LV × Bool :=
  (.i (clampInt (-(2 ^ 63)) (2 ^ 63 - 1) v), decide (v < -(2 ^ 63)) || decide (v > 2 ^ 63 - 1))

/-- The exact number that a lane value is (R169). -/
def LV.num : LV → Num
  | .f x => x
  | .i v => Num.ofInt v

/-- The lane float that a value is, or that a lane integer becomes where it meets a lane float (R169, R170).
[DEDUCED: log entry 11] -/
def LV.toFloat : LV → Num
  | .f x => x
  | .i v => roundLane (Num.ofInt v)

def LV.isInt : LV → Bool
  | .i _ => true
  | .f _ => false

/-- Does the format give lane integers? (R169) -/
def laneInt (f : Fmt) : Bool := f.isInt || f == .acc40i

/-- A stored element as a lane value. -/
def laneOf (f : Fmt) (code : Nat) : LV :=
  if laneInt f then .i (decodeElem f code).toInt else .f (decodeElem f code)

/-- A scalar register as an operand (R178): the low bits in a float format, the whole register as a signed integer in an
integer format. -/
def laneScalar (f : Fmt) (v : Nat) : LV :=
  if laneInt f then .i (signed 64 v) else .f (decodeElem f (v % 2 ^ f.width))

/-- An operation on two lane values: on integers when both are, else on lane floats (R169, R170). -/
def LV.op2 (ff : Num → Num → Num) (fi : Int → Int → Int) (a b : LV) : LV × Bool :=
  match a, b with
  | .i x, .i y => satLane (fi x y)
  | a, b => (.f (roundLane (ff a.toFloat b.toFloat)), false)

/-- Maximum and minimum under R130: NaN wins, and +0 is above −0. -/
def numMax (a b : Num) : Num :=
  if a.isNan || b.isNan then .nan else if a.cmp b = .lt then b else a
def numMin (a b : Num) : Num :=
  if a.isNan || b.isNan then .nan else if a.cmp b = .gt then b else a

/-- Numbers compare as IEEE 754 has them (R179). -/
def LV.lt (a b : LV) : Bool :=
  match a, b with
  | .i x, .i y => decide (x < y)
  | a, b => a.toFloat.ltv b.toFloat
def LV.eq (a b : LV) : Bool :=
  match a, b with
  | .i x, .i y => decide (x = y)
  | a, b => a.toFloat.eqv b.toFloat

/-! ### Stage words (R177, R179, R184, R186) -/

def stKind (k : Nat) : Nat := bits k 63 60
def stOp (k : Nat) : Nat := bits k 59 56
def stBsrc (k : Nat) : Nat := bits k 55 54
def stCsrc (k : Nat) : Nat := bits k 53 52
def stBreg (k : Nat) : Nat := bits k 51 46
def stCreg (k : Nat) : Nat := bits k 45 40
def stVfmt (k : Nat) : Nat := bits k 39 35
/-- QUANT, TAP and RESCALE: FMT and CTL. -/
def stFmt (k : Nat) : Nat := bits k 59 55
def stCtl (k : Nat) : Nat := bits k 54 47
def stStream (k : Nat) : Nat := bits k 46 31
def stRowt (k : Nat) : Bool := bit k 30
def stOutl (k : Nat) : Bool := bit k 29
def stZps (k : Nat) : Nat := bits k 28 27
def stZpi (k : Nat) : Nat := bits k 26 19
def stZaa (k : Nat) : Nat := bits k 18 11
def stPreg (k : Nat) : Nat := bits k 10 5
def stRreg (k : Nat) : Nat := bits k 46 41
def stVreg (k : Nat) : Nat := bits k 40 35
/-- REDUCE: AXIS, TOSCAL, SREG. -/
def stAxis (k : Nat) : Nat := bits k 0 0
def stToscal (k : Nat) : Bool := bit k 1
def stSreg (k : Nat) : Nat := bits k 7 2

/-- Does the stage read operand B, and operand C? (R177) -/
def readsB (k : Nat) : Bool :=
  match stKind k with
  | 0 | 1 | 4 => true
  | 3 => decide (stOp k ≤ 5)
  | 5 => stBsrc k == 1
  | _ => false
def readsC (k : Nat) : Bool := stKind k == 1

/-- Does the stage use the second stream? (R177) -/
def usesSecond (k : Nat) : Bool :=
  (readsB k && stBsrc k == 0) || (readsC k && stCsrc k == 0) || stKind k == 11

/-- The operations each kind has (R179, R180). -/
def stageValid (k : Nat) : Bool :=
  match stKind k with
  | 0 => decide (stOp k ≤ 5)
  | 1 => decide (stOp k ≤ 2)
  | 2 => decide (stOp k ≤ 12)
  | 3 => decide (stOp k ≤ 7)
  | 4 | 11 | 12 => stOp k == 0
  | 5 => decide (stOp k ≤ 3)
  | 6 | 8 | 10 => decide (stOp k ≤ 1)
  | 7 => decide (stOp k ≤ 4)
  | 9 => decide (stOp k ≤ 3)
  | 13 | 14 | 15 => (Fmt.ofCode (stFmt k)).isSome && ctlValid (stCtl k)
  | _ => false

/-- A format that elements in memory may have and that is no block format (R43, R176). -/
def plainFmt (c : Nat) : Bool := decide (c ≤ 0x0B)

/-- The rules for a chain that a DRAIN uses (R176). [DEDUCED: log entry 11] -/
def drainChainOk (stages : List Nat) : Bool :=
  stages.all fun k =>
    let kd := stKind k
    kd != 10 && kd != 11 && kd != 12 && kd != 8 && !(kd == 7 && (stAxis k == 1 || stToscal k)) && !usesSecond k

/-- The chain rules of R176 that a chain alone settles; `smask` is the header's. [DEDUCED: log entry 11] -/
def chainRules (stages : List Nat) (smask : Bool) : Bool :=
  let last := stages.getLastD 0
  let body := stages.dropLast
  let isConv (k : Nat) := stKind k == 14 || stKind k == 15
  stages.all stageValid &&
    (stKind last == 14 || stKind last == 15 || (stKind last == 7 && stToscal last)) && !body.any isConv &&
    decide ((stages.filter fun k => stKind k == 7).length ≤ 1) && decide ((stages.filter fun k => stKind k == 10).length ≤ 1) &&
    -- no stage follows a REDUCE except QUANT
    ((stages.dropWhile fun k => stKind k != 7).drop 1).all (fun k => stKind k == 14) &&
    -- only a chain that DRAINs use may hold a RESCALE
    (stKind last != 15 || drainChainOk stages) &&
    stages.all (fun k =>
      (stKind k != 7 || !stToscal k || (stSreg k != 0 && stSreg k != 63)) &&
      (decide (13 ≤ stKind k) || plainFmt (stVfmt k)) &&
      (stKind k != 13 || plainFmt (stFmt k)) &&
      (stKind k != 14 ||
        (stZps k != 3 && decide (stFmt k ≤ 0x11) &&
          (!(stZps k == 2 || (stZps k == 1 && stZpi k != 0)) || stFmt k == 0x09) &&
          (!stRowt k || ((stFmt k == 0x08 || stFmt k == 0x09 || stFmt k == 0x0A || stFmt k == 0x0B) && !smask)))) &&
      (stKind k != 15 || plainFmt (stFmt k)))

/-- The header of a chain descriptor. -/
structure ChainHdr where
  valid : Bool
  nst : Nat
  dreg : Nat
  dsreg : Nat
  ssreg : Nat
  ixreg : Nat
  smask : Bool
  mxsreg : Nat
deriving DecidableEq, Repr

def State.chainHdr (s : State) (c d : Nat) : ChainHdr :=
  let n := crownOf c
  let l := localOf c
  ⟨s.rdB (Reg.CRN_VEC_HDR_VALID n l d), s.rd (Reg.CRN_VEC_HDR_NST n l d), s.rd (Reg.CRN_VEC_HDR_DREG n l d),
   s.rd (Reg.CRN_VEC_HDR_DSREG n l d), s.rd (Reg.CRN_VEC_HDR_SSREG n l d), s.rd (Reg.CRN_VEC_HDR_IXREG n l d),
   s.rdB (Reg.CRN_VEC_HDR_SMASK n l d), s.rd (Reg.CRN_VEC_HDR_MXSREG n l d)⟩

/-- The stages of a chain descriptor. -/
def State.chainStages (s : State) (c d : Nat) : List Nat :=
  let h := s.chainHdr c d
  (List.range (h.nst + 1)).map fun i => s.rd (Reg.CRN_VEC_STG_ENTRY (crownOf c) (localOf c) d i)

/-! ### Rearranging stages (R182, R183) -/

/-- Put a lane list in beat order through a source map: position `p` of a beat takes `src p`; a missing source gives +0
with the mask cleared. -/
def permuteBeats (w : Nat) (src : Nat → Option Nat) (ls : List Lane) : List Lane :=
  (List.range ls.length).map fun i =>
    let b := i / w * w
    match (src (i % w)).bind fun q => if q < w then ls[b + q]? else none with
    | some l => l
    | none => { val := .f (.fin false 0 0), mask := false }

/-- The source positions of PERMUTE's operations; `table` is OP 0's. -/
def permuteSrc (w op rot : Nat) (table : List Nat) (p : Nat) : Option Nat :=
  match op with
  | 0 => let e := table.getD p 0xFF; if e = 0xFF then none else some e
  | 1 => some (w - 1 - p)
  | 2 => some ((p + rot % w) % w)
  | _ => some (if p < w / 2 then 2 * p else 2 * (p - w / 2) + 1)

/-- The transpose: element (r, c) leaves as (c, r). -/
def Tile.transpose (t : Tile) : Tile :=
  let blank : Lane := { val := .f (.fin false 0 0), mask := false }
  { rows := t.cols, cols := t.rows, row0 := t.row0
    lanes := (List.range (t.rows * t.cols)).map fun j => t.lanes.getD (j % t.rows * t.cols + j / t.rows) blank }

/-- The length of a row of the tile (R168). -/
def Tile.rowLen (t : Tile) (r : Nat) : Nat := min t.cols (t.lanes.length - r * t.cols)

/-- Gather rows: row `j` is row `g j` of the input. -/
def Tile.gather (t : Tile) (g : List (Option Nat)) : Tile :=
  { t with lanes := (List.range t.rows).flatMap fun j =>
      let src := match g.getD j none with
        | some k => if k < t.rows then (t.lanes.drop (k * t.cols)).take (t.rowLen k) else []
        | none => []
      (List.range (t.rowLen j)).map fun c => match src[c]? with
        | some l => l
        | none => { val := .f (.fin false 0 0), mask := false, poison := (g.getD j (some 0)).isNone } }

/-! ### Reductions and scans (R187 to R189, R513) -/

/-- One pairwise level of the reduction tree over positions. -/
def pairUp (f : Lane → Lane → Lane × Bool) : List (Option Lane) → List (Option Lane) × Bool
  | a :: b :: r =>
    let (xs, q) := pairUp f r
    match a, b with
    | some x, some y => let (z, p) := f x y; (some z :: xs, p || q)
    | some x, none => (some x :: xs, q)
    | none, y => (y :: xs, q)
  | [a] => ([a], false)
  | [] => ([], false)

/-- The tree over one beat, by repeated pairing. -/
def treeReduce (f : Lane → Lane → Lane × Bool) : Nat → List (Option Lane) → Option Lane × Bool
  | 0, xs => (xs.headD none, false)
  | n + 1, xs =>
    if xs.length ≤ 1 then (xs.headD none, false)
    else
      let (ys, p) := pairUp f xs
      let (z, q) := treeReduce f n ys
      (z, p || q)

/-- Combine a group's elements over the whole operation: per beat by position, then the beats in order (R188). Positions
outside the group are empty. -/
def groupReduce (w : Nat) (f : Lane → Lane → Lane × Bool) (xs : List (Option Lane)) : Option Lane × Bool :=
  (chunks w ((xs.length + w - 1) / w) xs).foldl (fun (acc : Option Lane × Bool) beat =>
    let (z, q) := treeReduce f 8 beat
    match acc.1, z with
    | some a, some b => let (y, p) := f a b; (some y, acc.2 || p || q)
    | some a, none => (some a, acc.2 || q)
    | none, z => (z, acc.2 || q)) (none, false)

/-- What REDUCE does to one group (R187 to R189): the result lane, whether an integer saturated, and whether an empty
maximum or minimum sets EMPTY. `pos` are the group's positions in the tile, each with its index for a winner. -/
def reduceGroup (w op : Nat) (t : Tile) (inGroup : Nat → Bool) (index : Nat → Nat) : Lane × Bool × Bool :=
  let group := t.lanes.zipIdx.filter fun e => inGroup e.2
  let isInt := group.all fun e => e.1.val.isInt
  let conv (v : LV) : LV := if isInt then v else .f v.toFloat
  let ext := op == 2 || op == 3
  let xs := t.lanes.zipIdx.map fun e =>
    if inGroup e.2 && e.1.mask then
      some { e.1 with val := conv e.1.val, idx := if ext then some (e.1.idx.getD (index e.2)) else none }
    else none
  let poison := xs.any fun o => match o with
    | some l => l.poison
    | none => false
  let n := (xs.filter (·.isSome)).length
  if op = 4 then ({ val := .i n, poison }, false, false)
  else if n = 0 then
    let v : LV := match op, isInt with
      | 0, true => .i 0
      | 0, false => .f (.fin false 0 0)
      | 1, true => .i 1
      | 1, false => .f (.fin false 1 0)
      | 2, true => .i (-(2 ^ 63))
      | 2, false => .f (.inf true)
      | _, true => .i (2 ^ 63 - 1)
      | _, false => .f (.inf false)
    ({ val := v, idx := if ext then some 0xFFFFFFFF else none }, false, ext)
  else if ext then
    let cand := xs.filterMap fun o => o.map fun l => (l.val.num, l.idx.getD 0)
    match winner (op == 2) cand with
    | some b =>
      let v : LV := if isInt then .i b.1.toInt else .f b.1
      ({ val := v, idx := some b.2, poison }, false, false)
    | none => ({ val := .i 0, poison }, false, false)
  else
    let f (a b : Lane) : Lane × Bool :=
      let (v, p) := if op = 0 then a.val.op2 Num.add (· + ·) b.val else a.val.op2 Num.mul (· * ·) b.val
      ({ a with val := v }, p)
    match groupReduce w f xs with
    | (some l, p) => ({ val := l.val, poison }, p, false)
    | (none, p) => ({ val := .i 0, poison }, p, false)

/-- REDUCE: the result tile, SAT and EMPTY. `base` is BREG's register. -/
def Tile.reduce (t : Tile) (w op axis base : Nat) : Tile × Bool × Bool :=
  let cols := max t.cols 1
  let n := if axis = 0 then t.rows else t.cols
  let rs := (List.range n).map fun g =>
    if axis = 0 then reduceGroup w op t (fun i => i / cols == g) (fun i => (base + i % cols) % 2 ^ 32)
    else reduceGroup w op t (fun i => i % cols == g) (fun i => (base + (t.row0 + i / cols)) % 2 ^ 32)
  ({ rows := if axis = 0 then n else 1, cols := if axis = 0 then 1 else n, row0 := t.row0, lanes := rs.map (·.1) },
    rs.any (·.2.1), rs.any (·.2.2))

/-- SCAN along one row (R513): the running sum before each element, the lanes and SAT. The last sum of an exclusive scan, which no
element receives, sets SAT like the others; the manual does not say so. [DESIGN CHOICE: log entry 11] -/
def scanRow (incl : Bool) : Option Lane → List Lane → List Lane × Bool
  | _, [] => ([], false)
  | acc, l :: ls =>
    if !l.mask then
      let (xs, q) := scanRow incl acc ls
      (l :: xs, q)
    else
      let (sum, p) := match acc with
        | none => (l, false)
        | some a => let (v, p) := a.val.op2 Num.add (· + ·) l.val; ({ l with val := v, poison := a.poison || l.poison }, p)
      let before : Lane := match acc with
        | some a => { l with val := a.val, poison := a.poison }
        | none => { l with val := if l.val.isInt then .i 0 else .f (.fin false 0 0), poison := false }
      let (xs, q) := scanRow incl (some sum) ls
      ((if incl then sum else before) :: xs, p || q)

def Tile.scan (t : Tile) (incl : Bool) : Tile × Bool :=
  let rs := (List.range t.rows).map fun r => scanRow incl none ((t.lanes.drop (r * t.cols)).take t.cols)
  ({ t with lanes := rs.flatMap (·.1) }, rs.any (·.2))

/-! ### Element-wise stages (R171, R179 to R181) -/

/-- The functions of R180: its special cases and exact functions, and free values within the stated error for the rest. Every result
is a lane float. [DESIGN CHOICE: log entry 12] -/
def funcVal (op : Nat) (v : LV) : LV × Bool :=
  match op, v with
  | 11, v => (.f (roundLane v.num.abs), false)
  | 12, v => (.f (roundLane v.num.neg), false)
  | op, v =>
    let x := v.toFloat
    let free : Num := withinUlps (funcUlps op) (funcNear op x)
      (Config.funcResult op (BitVec.ofNat 64 (laneLayout.convert true .odd x).1)).toNat
    let r : Num :=
      match x with
      | .nan => .nan
      | .inf true => match op with
        | 0 | 1 | 8 => .fin false 0 0
        | 4 => .fin true 0 0
        | 7 => .fin true 1 0
        | 9 | 10 => .fin true 0 0
        | _ => .nan
      | .inf false => match op with
        | 4 | 6 => .fin false 0 0
        | 7 | 8 => .fin false 1 0
        | _ => .inf false
      | .fin neg m _ =>
        if m = 0 then
          (match op with
          | 2 | 3 => .inf true
          | 4 | 6 => .inf neg
          | 5 => if neg then .fin true 0 0 else free
          | _ => free)
        else if neg && (op == 2 || op == 3 || op == 5 || op == 6) then .nan
        else free
    (.f (roundLane r), false)

/-- What CMP gives (R179). -/
def cmpVal (op : Nat) (a b : LV) : Bool :=
  match op with
  | 0 => a.eq b
  | 1 => !a.eq b
  | 2 => a.lt b
  | 3 => a.lt b || a.eq b
  | 4 => b.lt a
  | 5 => b.lt a || a.eq b
  | 6 => a.num.isNan
  | _ => (match a.num with | .inf _ => true | _ => false)

/-- An operand element: its value, and whether it is poisoned. -/
abbrev Operand := LV × Bool

/-- One element through an element-wise stage: `b` and `c` its operands, `ix` the index INDEX chooses, `r` RANDOM's draw. A CMP of
an element with a poisoned operand keeps the element and its mask as they are: it gives no value that could be poisoned, and the manual
does not say what the mask becomes. [DESIGN CHOICE: log entry 11] -/
def elementStage (k : Nat) (b c : Operand) (ix : Int) (r : Nat) (l : Lane) : Lane × Bool :=
  let op := stOp k
  let put (v : LV × Bool) (bad : Bool) : Lane × Bool := ({ l with val := v.1, poison := bad }, v.2)
  match stKind k with
  | 3 =>
    if l.poison ∨ b.2 ∧ op ≤ 5 then (l, false)
    else
      let x := cmpVal op l.val b.1
      ({ l with mask := if bit k 0 then l.mask && x else x }, false)
  | 4 =>
    let v := if l.mask then l.val else b.1
    ({ l with val := v, poison := l.poison || b.2, mask := bit k 0 && l.mask || !bit k 0 }, false)
  | 6 =>
    if op = 0 then ({ l with mask := l.mask && !decide (r < bits k 31 16) }, false)
    else if !l.mask then (l, false)
    else put (.f (.fin false r (-16)), false) l.poison
  | kind =>
    if !l.mask then (l, false)
    else match kind with
    | 0 => put (match op with
        | 0 => l.val.op2 Num.add (· + ·) b.1
        | 1 => l.val.op2 Num.sub (· - ·) b.1
        | 2 => b.1.op2 Num.sub (· - ·) l.val
        | 3 => l.val.op2 Num.mul (· * ·) b.1
        | 4 => l.val.op2 numMax max b.1
        | _ => l.val.op2 numMin min b.1) (l.poison || b.2)
    | 1 =>
      let bad := l.poison || b.2 || c.2
      put (match l.val, b.1, c.1 with
        | .i x, .i y, .i z => satLane (match op with
          | 0 => x * y + z
          | 1 => x * y - z
          | _ => z - x * y)
        | x, y, z =>
          let p := x.toFloat.mul y.toFloat
          (.f (roundLane (match op with
            | 0 => p.add z.toFloat
            | 1 => p.sub z.toFloat
            | _ => z.toFloat.sub p)), false)) bad
    | 2 => put (funcVal op l.val) l.poison
    | 5 => put ((if stBsrc k = 1 then b.1 else .i 0).op2 Num.add (· + ·) (.i ix)) (l.poison || (stBsrc k == 1 && b.2))
    | _ => (l, false)

end Sys2Proof.Machine
end

