-- ==== Sys2Proof/Machine/Vector.lean ====
section
/-! DEFINITION. The vector engine (06): sampling, operands, the conversion stages and their stores, running a chain, and
the meanings of VOP and VOP_END. -/

namespace Sys2Proof.Machine

/-! ### A running operation -/

/-- What an operation has read, is to store, to count and to write. -/
structure VRun where
  r : Reader
  stores : List (Nat × List DataByte) := []
  counts : List CountKey := []
  sat : Bool := false
  empty : Bool := false
  toscal : Option Toscal := none

/-- What an operation runs under: its core and thread, the beat width, and what was sampled. -/
structure VEnv where
  core : Core
  th : Thr
  w : Nat
  smp : Sampled
  seed : Nat
  step : Nat
  second : List Operand := []
  /-- elements a shuffle-buffer error poisoned -/
  bufBad : List Nat := []

def VEnv.reg (e : VEnv) (r : Nat) : Nat := if r = 0 then 0 else e.smp.regs.getD r 0
def VEnv.dreg (e : VEnv) : Nat := e.reg (e.smp.hdr.getD 0 0)
def VEnv.dsreg (e : VEnv) : Nat := e.smp.hdr.getD 1 0
def VEnv.ssreg (e : VEnv) : Nat := e.smp.hdr.getD 2 0
def VEnv.ixreg (e : VEnv) : Nat := e.smp.hdr.getD 3 0
def VEnv.smask (e : VEnv) : Bool := e.smp.hdr.getD 4 0 == 1
def VEnv.mxsreg (e : VEnv) : Nat := e.smp.hdr.getD 5 0

/-- A block read at sampling. -/
def VEnv.block (e : VEnv) (a n : Nat) : List DataByte :=
  match e.smp.blocks.find? fun b => b.1 == a && b.2.length == n with
  | some b => b.2
  | none => []

def ChainHdr.regs (h : ChainHdr) : List Nat := [h.dreg, h.dsreg, h.ssreg, h.ixreg, h.smask.toNat, h.mxsreg]

def VRun.elems (v : VRun) (e : VEnv) (a width n : Nat) : List (Option Nat) × VRun :=
  let (xs, r) := v.r.elems e.core e.th a 0 width n
  (xs, { v with r })

/-- The format a stage's VFMT names. -/
def stVec (k : Nat) : Fmt := (Fmt.ofCode (stVfmt k)).getD .fp32

/-- A value of the lane type that a format's elements take (R169), for one that is poisoned. -/
def laneZero (f : Fmt) : LV := if laneInt f then .i 0 else .f (.fin false 0 0)

def operandOf (f : Fmt) : Option Nat → Operand
  | some c => (laneOf f c, false)
  | none => (laneZero f, true)

/-- The bytes that a number of packed elements take in a read of them. -/
def vecBytes (f : Fmt) (n : Nat) : Nat := (n * f.width + 7) / 8

/-- An operand of a stage over the whole tile (R177, R178): the second stream, a scalar, a per-column or a per-row vector. The
per-column vectors of a DRAIN were read as it passed to its engine. After a stage that changes or reorders the tile, the second
stream meets the element of the same place in row-major order; an element that it does not reach meets a free value. The manual says
neither. [DESIGN CHOICE: log entries 11 and 12] -/
def VRun.operand (v : VRun) (e : VEnv) (k src reg : Nat) (t : Tile) : (Nat → Operand) × VRun :=
  let f := stVec k
  let cols := max t.cols 1
  match src with
  | 0 =>
    (fun i => e.second.getD i (laneOf f ((Config.freeAt .second v.r.s.fresh i).toNat % 2 ^ f.width), false),
      { v with r := { v.r with s := { v.r.s with fresh := v.r.s.fresh + 1 } } })
  | 1 => (fun _ => (laneScalar f (e.reg reg), false), v)
  | 2 =>
    let (xs, v) := match e.block (e.reg reg) (vecBytes f t.cols) with
      | [] => v.elems e (e.reg reg) f.width t.cols
      | bs => (packedCodes 0 f.width t.cols bs, v)
    (fun i => operandOf f (xs.getD (i % cols) none), v)
  | _ =>
    let (xs, r) := v.r.elems e.core e.th (e.reg reg) t.row0 f.width t.rows
    (fun i => operandOf f (xs.getD (i / cols) none), { v with r })

/-! ### Stores -/

/-- One row of cells to be stored from an address on: none keeps what memory holds, `some none` is poison (R51, R171). The
last group of a packed row is padded with zero elements. -/
def storeRow (s : State) (addr width : Nat) (cells : List (Option (Option Nat))) : List (Nat × List DataByte) :=
  let n := packedBytes width cells.length
  let byte (j : Nat) : Option DataByte :=
    let lo := 8 * j / width
    let hi := (8 * j + 7) / width
    let cs := (List.range (hi + 1 - lo)).map fun i => (lo + i, (cells.getD (lo + i) (some (some 0))))
    if cs.all (fun c => c.2.isNone) then none
    else if cs.any (fun c => c.2 == some none) then some none
    else
      let put := cs.foldl (fun (a : Nat × Nat) c => match c.2 with
        | some (some x) => (a.1 ||| ((x % 2 ^ width) <<< (c.1 * width)), a.2 ||| ((2 ^ width - 1) <<< (c.1 * width)))
        | _ => a) (0, 0)
      let v := (put.1 >>> (8 * j)) % 256
      let m := (put.2 >>> (8 * j)) % 256
      if m = 255 then some (some (BitVec.ofNat 8 v))
      else some ((s.readByte (addr + j)).map fun o => BitVec.ofNat 8 ((o.toNat &&& (255 - m)) ||| (v &&& m)))
  (List.range n).filterMap fun j => (byte j).map fun b => (addr + j, [b])

/-- Join stores whose bytes are adjacent, in order. -/
def joinStores : List (Nat × List DataByte) → List (Nat × List DataByte) := fun xs =>
  (xs.foldl (fun (acc : List (Nat × List DataByte)) x => match acc with
    | y :: r => if y.1 + y.2.length = x.1 then (y.1, y.2 ++ x.2) :: r else x :: acc
    | [] => [x]) []).reverse

/-! ### Conversions (R151, R184 to R186) -/

/-- A field of a stage's parameter block; poisoned bytes read as free bytes. -/
def blockField (fresh : Nat) (bs : List DataByte) (off n : Nat) : Nat :=
  leNat ((List.range n).map fun i =>
    (bs.getD (off + i) (some 0)).getD (BitVec.ofNat 8 (Config.freeAt .blockField fresh (off + i)).toNat))

/-- The rounding of a conversion at a position (R69, R71, R185). -/
def VEnv.rnd (e : VEnv) (k base step row col : Nat) : Rnd :=
  if (Ctl.ofNat (stCtl k)).pounce then
    .pounce (pounceBits e.seed (stStream k) e.step ((base + row * step + col) % 2 ^ 40))
  else .even

/-- The count key of a conversion (R193). -/
def countKey (f : Fmt) (ctl : Nat) (c : Option CountKind) : List CountKey :=
  match c with
  | some kind => [⟨f.code, (Ctl.ofNat ctl).cls, kind⟩]
  | none => []

/-- A row of lanes with whether each is stored (R171). -/
def rowLanes (t : Tile) (r : Nat) : List Lane := (t.lanes.drop (r * t.cols)).take t.cols

/-- The packed size of a tensor row: a row of an MX tensor is padded to whole blocks (R51, R52). -/
def rowBytes (f : Fmt) (cols : Nat) : Nat := packedBytes f.width (if f.isMx then (cols + 31) / 32 * 32 else cols)

/-- The address of a row of an output: the stride register, or packed rows when it is s0 (R186, CRN_VEC_HDR). -/
def VEnv.outStride (e : VEnv) (f : Fmt) (cols : Nat) : Nat :=
  if e.dsreg = 0 then rowBytes f cols else e.reg e.dsreg

/-- An element that an MX conversion meets: none where it is not stored, though it counts as a zero; whether its code is stored
without being counted (a listed outlier channel, R160); whether it is poisoned. -/
structure MxElem where
  value : Option Num
  silent : Bool := false
  bad : Bool := false

/-- Convert one row of `cols` columns to an MX format, block by block (R52, R55 to R57, R185): cells, scale bytes and counts. A
poisoned element poisons its block. The last block of a row is padded with zero elements; the elements that a short last row lacks
are not stored (R168). The manual does not say what the scale byte of such a row's blocks without an element is; it is 0x00 here, as
for a block of zeros. Nor does it say how a masked element that SMASK = 1 does not store counts in its block's scale; it counts as a
zero here. [DESIGN CHOICE: log entry 11] -/
def mxRow (f : Fmt) (ctl : Nat) (rnd : Nat → Rnd) (xs : List MxElem) (cols : Nat) :
    List (Option (Option Nat)) × List (Option Nat) × List CountKey :=
  (List.range ((cols + 31) / 32)).foldl (fun acc b =>
    let ys := (xs.drop (32 * b)).take 32
    let (sc, cs) := convertBlock f (fun i => rnd (32 * b + i)) (ys.map fun y => y.value.getD (.fin false 0 0))
    let poison := ys.any (·.bad)
    let cells := (ys.zip cs).map fun e => if e.1.value.isNone then none else some (if poison then none else some e.2.1)
    let pad : List (Option (Option Nat)) := ((List.range 32).drop ys.length).map fun i =>
      if ys.isEmpty || decide (32 * b + i < cols) then none else some (if poison then none else some 0)
    let keys := if poison then []
      else (ys.zip cs).flatMap fun e => if e.1.value.isNone || e.1.silent then [] else countKey f ctl e.2.2
    (acc.1 ++ cells ++ pad, acc.2.1 ++ [if poison then none else some sc], acc.2.2 ++ keys)) ([], [], [])

/-- Could a channel be one that a poisoned entry of an outlier list names? The entries rise strictly (R160), so it would lie between
the entries around it. [DESIGN CHOICE: log entry 11] -/
def maybeListed (list : List (Option Nat)) (c : Nat) : Bool :=
  list.zipIdx.any fun e => e.1.isNone &&
    list.zipIdx.all fun x => match x.1 with
      | some d => if x.2 < e.2 then decide (d < c) else decide (c < d)
      | none => true

/-- Bytes of a parameter block that a stage uses (R184). -/
def usedFields (mx tap rowt outl zvec : Bool) : List (Nat × Nat) :=
  [(0, 16)] ++ (if mx || tap then [(16, 8)] else []) ++ (if rowt then [(24, 8)] else []) ++
    (if zvec then [(32, 8)] else []) ++ (if outl then [(40, 18)] else [])

/-- QUANT, or TAP, or the final conversion of UNPACK's odd elements: convert and store a tile (R160, R184 to R186). `dst` is
where the elements go; a TAP takes its destination from its block. With SMASK = 1 a masked element of a listed channel is stored in
neither tensor, and a poisoned entry of the list poisons its side column and every narrow element that it could name. Of UNPACK's
odd elements (`side` false) the manual gives the address of the first and the format: they take DSREG's stride and the pouncing
indices of the even ones, and no scale bytes, row terms, side tensor or indices are stored for them; a chain that ends in a REDUCE
with TOSCAL = 1 stores none of them. The manual leaves all of this open. [DESIGN CHOICE: log entry 11] -/
def VRun.quant (v : VRun) (e : VEnv) (k dst : Nat) (t : Tile) (side : Bool) : VRun :=
  let tap := stKind k == 13
  let f := (Fmt.ofCode (stFmt k)).getD .fp32
  let ctl := Ctl.ofNat (stCtl k)
  let blk := e.block (e.reg (stPreg k)) 64
  let fld := blockField v.r.s.fresh blk
  let badBlock := (usedFields f.isMx tap (stRowt k) (stOutl k) (stZps k == 2)).any fun u =>
    ((blk.drop u.1).take u.2).any (·.isNone)
  let base := fld 0 8
  let step := fld 8 8
  let dst := if tap then fld 16 8 else dst
  let stride := e.outStride f t.cols
  let zps := if tap then 0 else stZps k
  let (zvec, v) := if zps = 2 then v.elems e (fld 32 8 + t.row0) 8 t.rows else ([], v)
  let outl := stOutl k && !tap && side
  let o := if outl then fld 56 2 else 0
  let (list, v) := if outl then v.elems e (fld 40 8) 16 o else ([], v)
  let o' := 32 * ((o + 31) / 32)
  let nb := (t.cols + 31) / 32
  (List.range t.rows).foldl (fun (v : VRun) r =>
    let row := t.row0 + r
    let ls := rowLanes t r
    let zp : Nat := match zps with
      | 0 => 0
      | 1 => stZpi k
      | _ => (zvec.getD r (some 0)).getD 0
    let badZp := zps == 2 && (zvec.getD r (some 0)).isNone
    let listed (c : Nat) : Bool := list.any fun x => x == some c
    let stored (l : Lane) : Bool := l.mask || !(tap || e.smask)
    let bad (x : Lane × Nat) : Bool := x.1.poison || badBlock || badZp || maybeListed list x.2
    let empty : Nat := if f = .uint8 then (if zps = 2 then zp else stZaa k) else 0
    let value (l : Lane) : Num := if zp = 0 then l.val.num else l.val.num.add (Num.ofInt zp)
    let rnd := e.rnd k base step row
    let idx : List (Lane × Nat) := ls.zipIdx
    let (cells, scales, keys) : List (Option (Option Nat)) × List (Option Nat) × List CountKey :=
      if f.isMx then
        mxRow f (stCtl k) rnd (idx.map fun x =>
          if !stored x.1 then { value := none }
          else if listed x.2 then { value := some (.fin false 0 0), silent := true }
          else { value := some (value x.1), bad := bad x }) t.cols
      else
        idx.foldr (fun x acc =>
          if !stored x.1 then (none :: acc.1, [], acc.2.2)
          else if listed x.2 then (some (if badZp then none else some empty) :: acc.1, [], acc.2.2)
          else if bad x then (some none :: acc.1, [], acc.2.2)
          else
            let (c, n) := convert f ctl (rnd x.2) (value x.1)
            (some (some c) :: acc.1, [], countKey f (stCtl k) n ++ acc.2.2)) ([], [], [])
    let s := v.r.s
    let out := storeRow s (dst + row * stride) f.width cells
    let sc := if f.isMx && side then scales.zipIdx.map fun x => (fld 16 8 + row * nb + x.2, [x.1.map (BitVec.ofNat 8)]) else []
    let rt := if stRowt k && !tap && side then
        let qs := idx.filterMap fun x => if x.1.mask then some (cells.getD x.2 none) else none
        let ra := qs.foldl (fun a c => match c with
          | some (some q) => a + ((decodeElem f q).toInt - (stZaa k : Int))
          | _ => a) (0 : Int)
        let poisoned := qs.any (· == some none)
        [(fld 24 8 + 8 * row, if poisoned then List.replicate 8 (none : DataByte)
          else (leBytes 4 (wrapInt 32 ra) ++ leBytes 1 zp ++ leBytes 3 0).map some)]
      else []
    let sd := if outl then
        (List.range o').foldr (fun j (acc : List (Option (Option Nat)) × List CountKey) =>
          match (if j < o then list.getD j none else some t.cols) with
          | none => (some none :: acc.1, acc.2)
          | some ch => match ls[ch]? with
            | none => (some (some 0) :: acc.1, acc.2)
            | some l =>
              if !stored l then (none :: acc.1, acc.2)
              else if l.poison || badBlock then (some none :: acc.1, acc.2)
              else
                let (c, n) := convert .bf16 ctl (rnd ch) l.val.num
                (some (some c) :: acc.1, countKey .bf16 (stCtl k) n ++ acc.2)) ([], [])
      else ([], [])
    let so := if outl then storeRow s (fld 48 8 + row * o' * 2) 16 sd.1 else []
    let ix := if e.ixreg ≠ 0 ∧ !tap ∧ side then
        idx.filterMap fun (x : Lane × Nat) => if stored x.1 then x.1.idx.map fun n =>
          (e.reg e.ixreg + 4 * (row * t.cols + x.2), (leBytes 4 n).map fun b => if x.1.poison then none else some b) else none
      else []
    { v with stores := v.stores ++ out ++ sc ++ rt ++ so ++ ix, counts := v.counts ++ keys ++ sd.2 }) v

/-- A rescale record's bytes (R149), and what its flags select. -/
structure Rescale where
  percol : Bool
  zw : Bool
  rowz : Bool
  tie : Nat
  zo : Nat
  kz : Nat
  bytes : List Byte

def Rescale.ofBytes (bs : List Byte) : Rescale :=
  let fl := fieldNat bs 4 1
  ⟨bit fl 0, bit fl 1, bit fl 2, bits fl 4 3, fieldNat bs 5 1, fieldNat bs 0 4, bs⟩

def Rescale.mul (r : Rescale) (n : Nat) : Int :=
  signed 32 (if r.percol then fieldNat r.bytes (64 + 4 * n) 4 else fieldNat r.bytes 8 4)
def Rescale.sh (r : Rescale) (n : Nat) : Nat :=
  if r.percol then fieldNat r.bytes (320 + n) 1 else fieldNat r.bytes 12 1
def Rescale.zwOf (r : Rescale) (n : Nat) : Nat := if r.zw then fieldNat r.bytes (384 + n) 1 else 0
def Rescale.cw (r : Rescale) (n : Nat) : Int := signed 32 (fieldNat r.bytes (448 + 4 * n) 4)

/-- R152's checks of a record, for the stage's target and VREG. -/
def Rescale.ok (r : Rescale) (f : Fmt) (vreg : Nat) : Bool :=
  let bs := r.bytes
  let zeros (lo n : Nat) : Bool := ((bs.drop lo).take n).all (· == 0)
  bits (fieldNat bs 4 1) 7 5 == 0 && r.tie != 3 && zeros 6 2 && zeros 13 51 && zeros 704 64 && decide (r.kz ≤ 2 ^ 23) &&
    (if r.percol then (List.range 64).all fun n => decide (r.sh n ≤ 63) else decide (r.sh 0 ≤ 63)) &&
    (r.tie == 0 || f.isInt) && (r.zo == 0 || f == .uint8) && (!(r.zw || r.rowz) || vreg != 0)

/-- The ranges of a record that the device reads (R149): the fields that FLAGS selects, and the reserved ones, which it checks. -/
def rescaleRanges (flags : Nat) : List (Nat × Nat) :=
  [(0, 64), (704, 64)] ++ (if bit flags 0 then [(64, 320)] else []) ++ (if bit flags 1 then [(384, 64)] else []) ++
    (if bit flags 2 then [(448, 256)] else [])

/-- Is a field that a column's value uses poisoned? (R149, R151, R239) -/
def Rescale.badAt (r : Rescale) (blk : List DataByte) (n : Nat) : Bool :=
  let bad (off k : Nat) : Bool := ((blk.drop off).take k).any (·.isNone)
  bad 4 2 || (r.rowz && (bad 0 4 || bad (448 + 4 * n) 4)) || (r.zw && bad (384 + n) 1) ||
    (if r.percol then bad (64 + 4 * n) 4 || bad (320 + n) 1 else bad 8 5)

/-- The exact value of R151. -/
def Rescale.value (r : Rescale) (x : Num) (n : Nat) (ra : Int) (za : Nat) : Num :=
  let zw : Int := r.zwOf n
  let u := if r.zw then x.sub (Num.ofInt (zw * ra)) else x
  let u := if r.rowz then (u.sub (Num.ofInt (za * r.cw n))).add (Num.ofInt (r.kz * za * zw)) else u
  ((u.mul (Num.ofInt (r.mul n))).scale (-(r.sh n : Int))).add (Num.ofInt r.zo)

/-- RESCALE over a tile (R151, R186). Its pouncing draws are free: the stage names no stream. A poisoned field poisons the values
that use it, and a poisoned row-term entry those of its row; R239's table names neither.
[DESIGN CHOICE: log entries 11 and 12] -/
def VRun.rescale (v : VRun) (e : VEnv) (k : Nat) (t : Tile) : VRun :=
  let f := (Fmt.ofCode (stFmt k)).getD .fp32
  let ctl := Ctl.ofNat (stCtl k)
  let blk := e.block (e.reg (stRreg k)) 768
  let rec_ := Rescale.ofBytes (blk.map (·.getD 0))
  let needRow := rec_.zw || rec_.rowz
  let vbase := e.reg (stVreg k)
  let stride := e.outStride f t.cols
  (List.range t.rows).foldl (fun (v : VRun) r =>
    let row := t.row0 + r
    let (ent, v) := if !needRow then ([], v)
      else if row = 0 then (e.block vbase 8, v)
      else
        let (bs, rd) := v.r.read e.core e.th (vbase + 8 * row) 8
        (bs, { v with r := rd })
    let badRow := needRow && (ent.take 5).any Option.isNone
    let eb := ent.map (·.getD 0)
    let ra := signed 32 (fieldNat eb 0 4)
    let za := fieldNat eb 4 1
    let idx : List (Lane × Nat) := (rowLanes t r).zipIdx
    let (cells, keys) := idx.foldr (fun (x : Lane × Nat) (acc : List (Option (Option Nat)) × List CountKey) =>
      if !(x.1.mask || !e.smask) then (none :: acc.1, acc.2)
      else if x.1.poison || rec_.badAt blk x.2 || badRow then (some none :: acc.1, acc.2)
      else
        let rnd : Rnd := match rec_.tie with
          | 1 => .tiesAway
          | 2 => .tiesUp
          | _ => if ctl.pounce then .pounce ((Config.freeAt .pounce v.r.s.fresh x.2).toNat % 65536) else .even
        let (c, n) := convert f ctl rnd (rec_.value x.1.val.num x.2 ra za)
        (some (some c) :: acc.1, countKey f (stCtl k) n ++ acc.2)) ([], [])
    let s := if ctl.pounce then { v.r.s with fresh := v.r.s.fresh + 1 } else v.r.s
    let out := storeRow s (e.dreg + row * stride) f.width cells
    let ix := if e.ixreg ≠ 0 then
        idx.filterMap fun x => if !(x.1.mask || !e.smask) then none else x.1.idx.map fun n =>
          (e.reg e.ixreg + 4 * (row * t.cols + x.2), (leBytes 4 n).map fun b => if x.1.poison then none else some b)
      else []
    { v with r := { v.r with s }, stores := v.stores ++ out ++ ix, counts := v.counts ++ keys }) v

/-! ### Running a chain -/

/-- A REDUCE with TOSCAL = 1 writes its one result to scalar registers (R190). -/
def VRun.toRegs (v : VRun) (k : Nat) (l : Lane) : VRun :=
  let ext := stOp k == 2 || stOp k == 3
  let conv : Nat × Option CountKind := match l.val with
    | .i x => (wrapInt 64 x, none)
    | .f x => convert .fp32 (Ctl.ofNat 0x38) .even x
  { v with
    toscal := some { reg := stSreg k, value := if l.poison then none else some conv.1,
                     index := if ext then some (if l.poison then none else l.idx) else none }
    counts := v.counts ++ (if l.poison then [] else countKey .fp32 0x38 conv.2) }

/-- One stage that is not a last QUANT or RESCALE. A poisoned byte of a PERMUTE table passes the check made at sampling (R182) and
poisons every element of the tile; an element of PACK that no second-stream element meets is free. The manual says neither.
[DESIGN CHOICE: log entries 11 and 12] -/
def VRun.stage (v : VRun) (e : VEnv) (k : Nat) (last : Nat) (t : Tile) : Tile × VRun :=
  let cols := max t.cols 1
  match stKind k with
  | 7 =>
    let (t', sat, empty) := t.reduce e.w (stOp k) (stAxis k) (e.reg (stBreg k))
    let v := { v with sat := v.sat || sat, empty := v.empty || empty }
    (t', match t'.lanes with
      | l :: _ => if stToscal k then v.toRegs k l else v
      | [] => v)
  | 8 =>
    let (t', sat) := t.scan (stOp k == 0)
    (t', { v with sat := v.sat || sat })
  | 9 =>
    let table := (e.block (e.reg (stBreg k)) e.w).map fun b => (b.getD 0).toNat
    let badTable := stOp k == 0 && (e.block (e.reg (stBreg k)) e.w).any (·.isNone)
    let ls := permuteBeats e.w (permuteSrc e.w (stOp k) (bits k 6 0) table) t.lanes
    ({ t with lanes := ls.map fun l => { l with poison := l.poison || badTable } }, v)
  | 10 =>
    let t := { t with lanes := t.lanes.zipIdx.map fun (x : Lane × Nat) =>
      if e.bufBad.contains x.2 then { x.1 with poison := true } else x.1 }
    if stOp k = 0 then
      if t.lanes.length % cols = 0 then (t.transpose, v)
      else
        let free (i : Nat) : LV := .f (laneLayout.decode ((Config.freeAt .transpose v.r.s.fresh i).toNat % 2 ^ 60))
        let n := t.lanes.length
        ({ rows := t.cols, cols := t.rows, row0 := 0, lanes := (List.range n).map fun i => { val := free i } },
          { v with r := { v.r with s := { v.r.s with fresh := v.r.s.fresh + 1 } } })
    else
      let (g, v) := v.elems e (e.reg (stBreg k)) 32 t.rows
      (t.gather g, v)
  | 11 =>
    let f := stVec k
    let ls := t.lanes.zipIdx.flatMap fun x =>
      let o := e.second.getD x.2 (laneOf f ((Config.freeAt .second v.r.s.fresh x.2).toNat % 2 ^ f.width), false)
      [x.1, { val := o.1, poison := o.2 }]
    ({ t with cols := 2 * t.cols, lanes := ls }, { v with r := { v.r with s := { v.r.s with fresh := v.r.s.fresh + 1 } } })
  | 12 =>
    let even := t.lanes.zipIdx.filter fun x => x.2 % cols % 2 == 0
    let odd := t.lanes.zipIdx.filter fun x => x.2 % cols % 2 == 1
    let ev : Tile := { t with cols := (t.cols + 1) / 2, lanes := even.map (·.1) }
    let od : Tile := { t with cols := t.cols / 2, lanes := odd.map (·.1) }
    (ev, if stKind last = 14 then v.quant e last (e.reg (stBreg k)) od false else v)
  | 13 => (t, v.quant e k 0 t true)
  | kind =>
    let (b, v) := if readsB k then v.operand e k (stBsrc k) (stBreg k) t else (fun _ => (.i 0, false), v)
    let (c, v) := if readsC k then v.operand e k (stCsrc k) (stCreg k) t else (fun _ => (.i 0, false), v)
    let index (i : Nat) : Int :=
      let r : Int := (t.row0 + i / cols : Nat)
      let cc : Int := (i % cols : Nat)
      match stOp k with
      | 0 => ((t.row0 * cols + i : Nat) : Int)
      | 1 => cc
      | 2 => r
      | _ => cc - r
    let draw (i : Nat) : Nat :=
      if kind = 6 then
        pounceBits e.seed (bits k 15 0) e.step
          ((e.reg (stBreg k) % 2 ^ 40 + (t.row0 + i / cols) * e.reg (stCreg k) + i % cols) % 2 ^ 40)
      else 0
    let rs := t.lanes.zipIdx.map fun x => elementStage k (b x.2) (c x.2) (index x.2) (draw x.2) x.1
    ({ t with lanes := rs.map (·.1) }, { v with sat := v.sat || rs.any (·.2) })

/-- The last stage: it stores, or it writes a scalar register (R185, R186, R190). -/
def VRun.finish (v : VRun) (e : VEnv) (k : Nat) (t : Tile) : VRun :=
  match stKind k with
  | 14 => v.quant e k e.dreg t true
  | 15 => v.rescale e k t
  | _ => (v.stage e k 0 t).2

/-- Run a chain's stages over a tile. -/
def VRun.chain (v : VRun) (e : VEnv) : List Nat → Tile → VRun
  | [], _ => v
  | [k], t => v.finish e k t
  | k :: rest, t =>
    let (t, v) := v.stage e k (rest.getLastD 0) t
    v.chain e rest t

/-! ### Sampling -/

/-- The memory blocks that a chain's stages name (R173, R182, R184): parameter blocks and PERMUTE tables. -/
def stageBlocks (w : Nat) (reg : Nat → Nat) (stages : List Nat) : List (Nat × Nat) :=
  stages.filterMap fun k =>
    match stKind k with
    | 13 | 14 => some (reg (stPreg k), 64)
    | 9 => if stOp k = 0 then some (reg (stBreg k), w) else none
    | _ => none

/-- Read the blocks. -/
def readBlocks (c : Core) (th : Thr) : List (Nat × Nat) → Reader → List (Nat × List DataByte) × Reader
  | [], r => ([], r)
  | (a, n) :: rest, r =>
    let (bs, r) := r.read c th a n
    let (xs, r) := readBlocks c th rest r
    ((a, bs) :: xs, r)

/-- A PERMUTE table entry at or above W other than 0xFF (R182). -/
def badTables (w : Nat) (reg : Nat → Nat) (stages : List Nat) (blocks : List (Nat × List DataByte)) : Bool :=
  stages.any fun k => stKind k == 9 && stOp k == 0 &&
    (match blocks.find? fun b => b.1 == reg (stBreg k) && b.2.length == w with
      | some b => b.2.any fun x => match x with
        | some y => decide (w ≤ y.toNat) && y != 0xFF
        | none => false
      | none => false)

/-- The registers of a thread as a list. -/
def ThreadSt.snapshot (t : ThreadSt) : List Nat := (List.range 64).map t.reg

/-! ### VOP (R172 to R175) -/

/-- A vector command is discarded: CMD_ERR and the event with the core number (R175). [DEDUCED: log entry 9] -/
def State.vectorError (s : State) (c : Nat) : State :=
  (s.setB (Reg.CRN_VEC_STATUS_CMD_ERR (crownOf c) (localOf c))).record .vectorCommandError (coreSource c) [pv2 c]

/-- Rows and columns of the tile as each stage meets it (R178): a transpose exchanges them, PACK doubles the columns and UNPACK
halves them. -/
def shapeAfter (k : Nat) (rc : Nat × Nat) : Nat × Nat :=
  if stKind k = 10 ∧ stOp k = 0 then (rc.2, rc.1)
  else if stKind k = 11 then (rc.1, 2 * rc.2) else if stKind k = 12 then (rc.1, (rc.2 + 1) / 2) else rc

/-- Would a REDUCE with TOSCAL = 1 give more than one result for the operation's shape? (R190) -/
def toscalMany : List Nat → Nat × Nat → Bool
  | [], _ => false
  | k :: rest, rc =>
    (stKind k == 7 && stToscal k && (if stAxis k = 0 then rc.1 != 1 else rc.2 != 1)) || toscalMany rest (shapeAfter k rc)

/-- The checks of R175 that need no memory. A VOP whose IFMT is a reserved code, E8M0 or an ACC40 format is discarded too, which
R175's list does not say. [DESIGN CHOICE: log entry 11] -/
def vopOk (v : VopCmd) (hdr : ChainHdr) (stages : List Nat) : Bool :=
  let second := stages.filter usesSecond
  hdr.valid && plainOrMx v.ifmt && !(stages.any fun k => stKind k == 15) &&
    second.all (fun k => stVfmt k == stVfmt (second.headD 0)) && (second.isEmpty || v.src2 != 0) &&
    (!(((Fmt.ofCode v.ifmt).getD .fp32).isMx) || hdr.mxsreg != 0) &&
    !toscalMany stages ((v.count + v.cols - 1) / v.cols, v.cols)
where
  plainOrMx (c : Nat) : Bool := decide (c ≤ 0x11)

/-- The rows of an input tile as lanes (R172): each row from its own address, an MX row under its scales. -/
def readInput (e : VEnv) (f : Fmt) (src stride scales cols count : Nat) : Nat → Nat → VRun → List Lane × VRun
  | 0, _, v => ([], v)
  | n + 1, row, v =>
    let len := min cols (count - row * cols)
    let (xs, v) := v.elems e (src + row * stride) f.width len
    let nb := (cols + 31) / 32
    let (sc, v) := if f.isMx then v.elems e (scales + row * nb) 8 ((len + 31) / 32) else ([], v)
    let lanes : List Lane := xs.zipIdx.map fun x =>
      match x.1 with
      | none => { val := laneZero f, poison := true }
      | some c =>
        if f.isMx then
          match sc.getD (x.2 / 32) none with
          | none => { val := .f (.fin false 0 0), poison := true }
          | some b => { val := .f (decodeMx f c b) }
        else { val := laneOf f c }
    let (more, v) := readInput e f src stride scales cols count n (row + 1) v
    (lanes ++ more, v)

/-- The second stream's elements: packed rows of the input's shape (R172). -/
def readSecond (e : VEnv) (f : Fmt) (src cols count n : Nat) (v : VRun) : List Operand × VRun :=
  let (ls, v) := readInput e f src (packedBytes f.width cols) 0 cols count n 0 v
  (ls.map fun l => (l.val, l.poison), v)

/-- The status bits an operation sets. -/
def State.vecFlags (s : State) (c : Nat) (v : VRun) : State :=
  let s := if v.sat then s.setB (Reg.CRN_VEC_STATUS_SAT (crownOf c) (localOf c)) else s
  if v.empty then s.setB (Reg.CRN_VEC_STATUS_EMPTY (crownOf c) (localOf c)) else s

/-- A sampled VOP reads its input, runs its chain, and holds what it will store, count and write at VOP_END; none while a die in
reset holds a read back. `buf` are the elements a shuffle-buffer error poisons. [DEDUCED: log entry 11] -/
def runVop (c : Core) (th : Thr) (cmd : VopCmd) (smp : Sampled) (buf : List Nat) (r : Reader) : Option State :=
  let s := r.s
  let e : VEnv := { core := c, th, w := 128, smp, seed := s.rd Reg.SHP_SEED_SEED, step := s.rd Reg.SHP_STEP_STEP
                    bufBad := buf }
  let rows := (cmd.count + cmd.cols - 1) / cmd.cols
  let f := (Fmt.ofCode cmd.ifmt).getD .fp32
  let stride := if e.ssreg = 0 then rowBytes f cmd.cols else e.reg e.ssreg
  let (ls, v) := readInput e f (e.reg cmd.src) stride (e.reg e.mxsreg) cmd.cols cmd.count rows 0 { r }
  let (sec, v) := match smp.stages.filter usesSecond with
    | [] => ([], v)
    | k :: _ => readSecond e (stVec k) (e.reg cmd.src2) cmd.cols cmd.count rows v
  let v := v.chain { e with second := sec } smp.stages { rows, cols := cmd.cols, lanes := ls }
  if v.r.held then none
  else if v.r.fault then some (v.r.s.setCore c { v.r.s.core c with vop := none })
  else
    let s := v.r.s.vecFlags c.val v
    let s := if !buf.isEmpty && smp.stages.any (fun k => stKind k == 10) then
        s.setB (Reg.CRN_VEC_STATUS_BUF_POISON (crownOf c.val) (localOf c.val)) else s
    some (s.setCore c { s.core c with vop := (s.core c).vop.map fun x => { x with
      fence := none, stores := joinStores v.stores, counts := v.counts, toscal := v.toscal } })

/-- A command at the head of the vector queue fails a check (R175). -/
def State.dropVop (s : State) (c : Nat) : State :=
  ((s.setCore c { s.core c with vecQueue := (s.core c).vecQueue.drop 1 }).vectorError c).flushOps c

/-- VOP (R172 to R175): at the head of the queue it samples, is checked, and leaves the queue; it reads at once, unless FENCE makes
it wait for the chain stores of the core's earlier DRAINs (R174), when a later VOP row makes it read. Its stores, counts and register
writes take effect at VOP_END. [DEDUCED: log entry 11] -/
def execVop (core : Core) (hits : List EccHit) (buf : List Nat) (s : State) : Result :=
  if s.power.stopped then .next s else
  let c := core.val
  let x := s.core c
  .next (match x.vop with
  | some v =>
    match v.fence with
    | none => s
    | some w =>
      match decodeVop w.word with
      | none => s
      | some cmd =>
        if x.drainBefore v.thread w.before then s
        else (runVop core v.thread cmd w.sampled buf { s := s.eccHits hits, met := w.met, bad := s.pathBad hits }).getD s
  | none =>
    match x.vecQueue with
    | [] => s
    | q :: rest =>
      let (h0, h1) := x.halfFree
      if !(h0 || h1) then s
      else match decodeVop q.word with
        | none => s.dropVop c
        | some cmd =>
          let hdr := s.chainHdr c cmd.chain
          let stages := s.chainStages c cmd.chain
          if !vopOk cmd hdr stages then s.dropVop c
          else
            let regs := (s.thr c q.thread).snapshot
            let reg (r : Nat) : Nat := regs.getD r 0
            let (blocks, r) := readBlocks core q.thread (stageBlocks 128 reg stages)
              { s := s.eccHits hits, bad := s.pathBad hits }
            if r.held then s
            else if r.fault then r.s.setCore c { r.s.core c with vecQueue := (r.s.core c).vecQueue.erase q }
            else if badTables 128 reg stages blocks then r.s.dropVop c
            else
              let smp : Sampled := { regs, hdr := hdr.regs, stages, blocks }
              let wait : VopFence := { word := q.word, sampled := smp, met := r.met, before := x.drainNo }
              let run : VopRun := { thread := q.thread, fence := some wait, stores := [], counts := [], toscal := none }
              let s' := r.s.setCore c { r.s.core c with vecQueue := rest, vop := some run }
              if cmd.fence && x.drainBefore q.thread x.drainNo then s' else (runVop core q.thread cmd smp buf { r with s := s' }).getD s)

end Sys2Proof.Machine
end

