-- ==== Sys2Proof/Machine/VecRegs.lean ====
section
/-! DEFINITION. Chain descriptors written by software (R195) and the counter banks' selection and clears (R193, R194,
R279). -/

namespace Sys2Proof.Machine

def State.updUnit (s : State) (t : Nat) : UpdSt := Sparse.get {} s.upd t
def State.setUpd (s : State) (t : Nat) (x : UpdSt) : State := { s with upd := Sparse.put {} s.upd t x }

/-- BAR0 offset of a chain header, or of one of its stage entries. -/
def chainOff (c d : Nat) : Option (Fin 8) → Nat
  | none => 0x1010500 + crownOf c * 0x400000 + localOf c * 0x1000 + d * 8
  | some st => 0x1010100 + crownOf c * 0x400000 + localOf c * 0x1000 + d * 0x40 + st.val * 8

/-- A word of a chain descriptor is written; a descriptor that then breaks the chain rules is left with VALID 0 (R195). One whose
VALID is 0 after the write is not held to the rules, and sets no DESC_ERR; the manual does not say so. [DESIGN CHOICE: log entry 11] -/
def State.chainWrite (s : State) (c d off : Nat) (acc : RegAccess) : State :=
  let n := crownOf c
  let l := localOf c
  let s := s.writeReg off acc fun _ => true
  if s.rdB (Reg.CRN_VEC_HDR_VALID n l d) && !chainRules (s.chainStages c d) (s.chainHdr c d).smask then
    (s.clrB (Reg.CRN_VEC_HDR_VALID n l d)).setB (Reg.CRN_VEC_STATUS_DESC_ERR n l)
  else s

/-- The selection fields and the latched counters of a bank: FMT, CLASS, OVF, VAN, INV. -/
def bankFlds : Bank → Fld × Fld × Fld × Fld × Fld
  | .core c =>
    let n := crownOf c.val
    let l := localOf c.val
    (Reg.CRN_VEC_CNT_SEL_FMT n l, Reg.CRN_VEC_CNT_SEL_CLASS n l, Reg.CRN_VEC_CNT_OVF_COUNT n l,
      Reg.CRN_VEC_CNT_VAN_COUNT n l, Reg.CRN_VEC_CNT_INV_COUNT n l)
  | .crown n => (Reg.CRN_CNT_SEL_FMT n.val, Reg.CRN_CNT_SEL_CLASS n.val, Reg.CRN_CNT_OVF_COUNT n.val,
      Reg.CRN_CNT_VAN_COUNT n.val, Reg.CRN_CNT_INV_COUNT n.val)
  | .update t => (Reg.UPD_CNT_SEL_FMT t.val, Reg.UPD_CNT_SEL_CLASS t.val, Reg.UPD_CNT_OVF_COUNT t.val,
      Reg.UPD_CNT_VAN_COUNT t.val, Reg.UPD_CNT_INV_COUNT t.val)

/-- A bank's counters. -/
def State.bank (s : State) : Bank → List (Nat × Nat)
  | .core c => (s.core c.val).counts
  | .crown n => (s.crown n.val).counts
  | .update t => (s.updUnit t.val).counts

def State.setBank (s : State) (v : List (Nat × Nat)) : Bank → State
  | .core c => s.setCore c.val { s.core c.val with counts := v }
  | .crown n => s.setCrown n.val { s.crown n.val with counts := v }
  | .update t => s.setUpd t.val { s.updUnit t.val with counts := v }

/-- Set the latched counters of a bank. -/
def State.latch3 (s : State) (b : Bank) (o v i tot : Nat) : State :=
  let (_, _, fo, fv, fi) := bankFlds b
  let s := ((s.wr fo o).wr fv v).wr fi i
  match b with
  | .update t => s.wr (Reg.UPD_CNT_TOT_COUNT t.val) tot
  | _ => s

/-- The selected pair of a bank as the index of its first counter; none for a format without counters (R194). -/
def State.pairOf (s : State) (b : Bank) : Option Nat :=
  let (ff, fc, _, _, _) := bankFlds b
  if s.rd ff ≤ 0x11 then some (s.rd ff * 8 + s.rd fc) else none

/-- Does the access reach the fields in the lower half of the register? -/
def partLow : RegPart → Bool
  | .upper => false
  | _ => true

/-- A bank's selection is written, and the counters of the pair are latched together (R194). -/
def State.selectPair (s : State) (bank : Bank) (v : Nat) : State :=
  let (ff, fc, _, _, _) := bankFlds bank
  let s := (s.wr ff (bits v 12 8)).wr fc (bits v 2 0)
  match s.pairOf bank with
  | none => s.latch3 bank 0 0 0 0
  | some i =>
    let t := s.bank bank
    let tot := match bank with
      | .update u => Sparse.get 0 (s.updUnit u.val).totals i
      | _ => 0
    s.latch3 bank (Sparse.get 0 t (i * 3)) (Sparse.get 0 t (i * 3 + 1)) (Sparse.get 0 t (i * 3 + 2)) tot

/-- Every counter of a bank is cleared, with its latched values (R194). -/
def State.clearBank (s : State) (bank : Bank) : State :=
  let s := s.setBank [] bank
  let s := match bank with
    | .update t => s.setUpd t.val { s.updUnit t.val with totals := [] }
    | _ => s
  s.latch3 bank 0 0 0 0

/-- The counters of the selected pair are cleared, with their latched values (R194). -/
def State.clearPair (s : State) (bank : Bank) : State :=
  let s := match s.pairOf bank with
    | none => s
    | some i =>
      let s := s.setBank ((s.bank bank).filter fun e => e.1 / 3 != i) bank
      match bank with
      | .update t => s.setUpd t.val { s.updUnit t.val with totals := (s.updUnit t.val).totals.filter fun e => e.1 != i }
      | _ => s
  s.latch3 bank 0 0 0 0

/-- BAR0 offset of a bank's selection register. -/
def bankOff : Bank → Nat
  | .core c => 0x1010588 + crownOf c.val * 0x400000 + localOf c.val * 0x1000
  | .crown n => 0x1000200 + n.val * 0x400000
  | .update t => 0x400020 + t.val * 0x1000

/-- BAR0 offset of a bank's CTL register. -/
def bankClear (b : Bank) : Nat :=
  bankOff b + (match b with
    | .update _ => 0x28
    | _ => 0x20)

end Sys2Proof.Machine
end

