-- ==== Sys2Proof/Machine/CoreWrite.lean ====
section
/-! DEFINITION. Stores of the cores' engines and threads: the register path (R79, R120, R225), the stores of a chain, and VOP_END
(R190, R192). -/

namespace Sys2Proof.Machine

/-- The core and the offset within its block of a register address (R79). -/
def coreBlock (off : Nat) : Option (Nat × Nat) :=
  if 0x1000000 ≤ off ∧ off < 0x2000000 then
    let n := (off - 0x1000000) / 0x400000
    let r := (off - 0x1000000) % 0x400000
    if 0x10000 ≤ r ∧ r < 0x10000 + 144 * 0x1000 then some (144 * n + (r - 0x10000) / 0x1000, r % 0x1000) else none
  else none

/-- The slot descriptors a store of `n` bytes covers, with the values it brings: the lower word to the lower offset. -/
def storedSlots (o n v : Nat) : List (Arr × Nat × Nat) :=
  if 0x80 ≤ o ∧ o < 0x100 ∧ o % n = 0 then
    let arr : Arr := if o < 0xC0 then .F else .B
    let sl := (o % 0x40) / 4
    (List.range (n / 4)).map fun i => (arr, sl + i, v / 2 ^ (32 * i) % 2 ^ 32)
  else []

/-- One register written from inside a crown: chain descriptors under their own rules, the counter banks, SYN_OP; every other field
acts under its access code (R225). [DEDUCED: log entry 11] -/
def State.innerWrite (s : State) (off : Nat) (acc : RegAccess) : State :=
  let v := acc.value
  let counters (b : Bank) (sel : Bool) (s : State) : State :=
    if !partLow acc.part then s
    else if sel then s.selectPair b v
    else
      let s := if bit v 0 then s.clearPair b else s
      if bit v 1 then s.clearBank b else s
  match coreBlock off with
  | some (k, o) =>
    if 0x100 ≤ o ∧ o < 0x580 then s.chainWrite k (if o < 0x500 then (o - 0x100) / 0x40 else (o - 0x500) / 8) off acc
    else if o = 0x588 ∨ o = 0x5A8 then counters (.core (Fin.ofNat 576 k)) (o == 0x588) s
    else s.writeReg off acc fun r => !r.own
  | none =>
    let r := (off - 0x1000000) % 0x400000
    let crn : Tower := Fin.ofNat 4 ((off - 0x1000000) / 0x400000)
    let t : Tower := Fin.ofNat 4 ((off - 0x400000) / 0x1000)
    let u := (off - 0x400000) % 0x1000
    if 0x1000000 ≤ off ∧ off < 0x2000000 ∧ (r = 0x200 ∨ r = 0x220) then counters (.crown crn) (r == 0x200) s
    else if off = 0x80000 then s.synOp acc (bit v 17)
    else if 0x400000 ≤ off ∧ off < 0x404000 ∧ (u = 0x20 ∨ u = 0x48) then counters (.update t) (u == 0x20) s
    else s.writeReg off acc fun r => !r.own

/-- A write of `n` bytes to the register region by a core: slot descriptors under R119 and R120, CRN_FLEX_POST under R222 from the
core's own threads, and every other register. `th` is the thread whose local register path it takes, none for the engines.
[DEDUCED: log entry 11] -/
def State.engineWrite (s : State) (c : Nat) (th : Option Thr) (off n v : Nat) : State :=
  let slots := match coreBlock off with
    | some (k, o) => (storedSlots o n v).map fun e => (k, e)
    | none => []
  if slots ≠ [] then
    slots.foldl (fun s e => match th with
      | some t => if e.1 = c then s.threadSlotWrite c t e.2.1 e.2.2.1 e.2.2.2 else s.installSlot e.1 e.2.1 e.2.2.1 (Slot.ofNat e.2.2.2)
      | none => s.installSlot e.1 e.2.1 e.2.2.1 (Slot.ofNat e.2.2.2)) s
  else if (coreBlock off).any fun b => b.2 == 0x48 then
    match th with
    | some t => if (coreBlock off).any (fun b => b.1 == c) && isFlex c then s.postJob c t v else s
    | none => s
  else match regAccess off n with
    | some (_, ro, part) => s.innerWrite ro ⟨0, part, v⟩
    | none =>
      if n = 8 then (s.innerWrite off ⟨0, .whole, v % 2 ^ 32⟩).innerWrite (off + 4) ⟨0, .whole, v / 2 ^ 32⟩ else s

/-- A store of a core, with the status it completes with (R224, R225). The value of a poisoned store to a register is stated
nowhere. [DESIGN CHOICE: log entry 12] -/
def State.coreStore (s : State) (c : Core) (th : Option Thr) (a : Nat) (bs : List DataByte) : Nat × State :=
  match s.place a with
  | .reg off =>
    if regionFault off bs.length true then (stAddrFault, s.addrFault (.core c) a)
    else if s.regPathLost (.core c) off then (stPathLost, s)
    else
      let (v, s) := if bs.any (·.isNone) then s.drawWord else (leNat (bs.map (·.getD 0)), s)
      (stOk, s.engineWrite c.val th off bs.length v)
  | _ => s.memWrite (.core c) a bs

/-- Store an operation's results; an ADDR_FAULT ends the unit (R225, R366). [DEDUCED: log entry 11] -/
def State.commitStores (s : State) (c : Core) (th : Thr) (xs : List (Nat × List DataByte)) : State :=
  xs.foldl (fun s x =>
    let (st, s) := s.coreStore c none x.1 x.2
    if st = stAddrFault then s.unitError c.val th else s) s

/-- VOP_END (R190, R192, R239): the last store completes, once no die in reset holds one back. [DEDUCED: log entry 11] -/
def execVopEnd (core : Core) (s : State) : Result :=
  if s.power.stopped then .next s else
  .next (match (s.core core.val).vop with
  | none => s
  | some v =>
    if v.fence.isSome || s.storesHeld (.core core) v.stores then s
    else
      let s := s.setCore core.val { s.core core.val with vop := none }
      let s := (s.commitStores core v.thread v.stores).countCore core.val v.counts
      let s := s.flushOps core.val
      match v.toscal with
      | none => s
      | some t =>
        if t.value.isNone || t.index == some none then s.unitError core.val v.thread
        else
          let th := (s.thr core.val v.thread).setReg t.reg (t.value.getD 0)
          let th := match t.index with
            | some (some i) => th.setReg (t.reg + 1) i
            | _ => th
          s.setThr core.val v.thread th)

end Sys2Proof.Machine
end

