-- ==== Sys2Proof/Machine/ControlCore.lean ====
section
/-! DEFINITION. The control cores: threads, instruction fetch and every instruction of R358, with the local register path
(R79, R120, R225), and work unit completion (R362, R364, R369). A command names a core and a thread; its meaning acts when
that thread is ready and the instruction at its program counter is the one the command names. -/

namespace Sys2Proof.Machine

/-! ### Fetch -/

/-- First byte of a core's local SRAM (R79). -/
def sramBase (c : Nat) : Nat := 0x5000000000 + c * 0x100000

/-- The bytes at a program counter as a fetch reads them, none where the counter lies outside the local SRAM, and the state in which the
changed bits of their words have been met (R234, R237). -/
def State.fetch (s : State) (c pc : Nat) : List DataByte × State :=
  if 0x100000 < pc + 4 then ([], s)
  else
    let a := sramBase c + pc
    let (bad, s) := s.meet a 4
    (spoil bad a (s.readBytes a 4), s)

/-- The instruction word at a thread's program counter; none where the counter lies outside the local SRAM or the word is
poisoned. -/
def State.insnWord (s : State) (c pc : Nat) : Option Nat :=
  let bs := (s.fetch c pc).1
  if bs = [] || bs.any (·.isNone) then none else some (leNat (bs.map (·.getD 0)))

/-- A thread has fetched its instruction: what its word met is done (R237). -/
def State.fetched (s : State) (c : Nat) (th : Thr) : State := (s.fetch c (s.thr c th).pc).2

/-- A thread can issue: its crown has a clock (R413), it runs and waits for nothing, and thread U, while it runs, stops the other two (R357, R377). -/
def State.threadReady (s : State) (c : Nat) (th : Thr) : Bool :=
  let t := s.thr c th
  !s.power.stopped && t.running && t.wait.isNone && !t.suspended && (th == .U || !(s.thr c .U).running)

/-- The instruction a thread is to issue; the inner none is one that ends its unit with an error (R358): a reserved opcode
or field value, an ACMD of thread F or B to the other array's queue (R357), or a word that cannot be fetched. -/
def State.insn (s : State) (c : Nat) (th : Thr) : Option (Option CInsn) :=
  if !s.threadReady c th then none
  else some (match (s.insnWord c (s.thr c th).pc).bind decodeInsn with
    | some (.acmd ra fn) =>
      (match th, fn with
        | .F, 1 => none
        | .B, 0 => none
        | _, _ => some (.acmd ra fn))
    | i => i)

/-- Registers an instruction reads or writes (R190). -/
def insnRegs : CInsn → List Nat
  | .alu rd ra rb _ => [rd, ra, rb]
  | .addi rd ra _ | .ld rd ra _ | .st rd ra _ => [rd, ra]
  | .lix rd _ => [rd]
  | .br ra rb _ _ | .sadd ra rb | .sset ra rb | .swait ra rb _ | .radd ra rb => [ra, rb]
  | .acmd ra _ | .vcmd ra => [ra]
  | .jmp _ | .fence | .endUnit => []

/-- Registers that a queued or running VOP of the thread will write (R190). -/
def State.toscalRegs (s : State) (c : Nat) (th : Thr) : List Nat :=
  let x := s.core c
  let ops (stages : List Nat) : List Nat := (stages.filter fun k => stKind k == 7 && stToscal k).flatMap fun k =>
    stSreg k :: (if stOp k == 2 || stOp k == 3 then [stSreg k + 1] else [])
  let run := match x.vop with
    | some v => if v.thread = th then (match v.toscal with
        | some t => t.reg :: (if t.index.isSome then [t.reg + 1] else [])
        | none => match v.fence with
          | some w => ops (w.sampled.stages)
          | none => []) else []
    | none => []
  let queued := (x.vecQueue.filter (·.thread == th)).flatMap fun e =>
    match decodeVop e.word with
    | none => []
    | some v => ops (s.chainStages c v.chain)
  run ++ queued

/-- The instruction waits for a register that the vector engine has still to write (R190). [DEDUCED: log entry 11] -/
def State.regWait (s : State) (c : Nat) (th : Thr) (i : CInsn) : Bool :=
  (insnRegs i).any (s.toscalRegs c th).contains

/-- The thread's instruction, where it may issue now. -/
def State.issuing (s : State) (c : Nat) (th : Thr) : Option CInsn :=
  match s.insn c th with
  | some (some i) => if s.regWait c th i then none else some i
  | _ => none

/-- Move a thread to its next instruction. -/
def State.advance (s : State) (c : Nat) (th : Thr) : State :=
  (s.fetched c th).setThr c th { s.thr c th with pc := (s.thr c th).pc + 4 }

/-- Write a register and move on. -/
def State.writeBack (s : State) (c : Nat) (th : Thr) (rd v : Nat) : State :=
  let s := s.advance c th
  s.setThr c th ((s.thr c th).setReg rd v)

/-- Branch by a signed number of instructions, from the branch itself. [DEDUCED: log entry 9] -/
def State.branch (s : State) (c : Nat) (th : Thr) (off : Int) : State :=
  (s.fetched c th).setThr c th { s.thr c th with pc := wrapInt 32 ((s.thr c th).pc + 4 * off) }

/-! ### Arithmetic and branches -/

/-- RA op RB (R358). -/
def aluResult (fn a b : Nat) : Nat :=
  match fn with
  | 0 => (a + b) % 2 ^ 64
  | 1 => (a + 2 ^ 64 - b % 2 ^ 64) % 2 ^ 64
  | 2 => a &&& b
  | 3 => a ||| b
  | 4 => a ^^^ b
  | 5 => (a * 2 ^ (b % 64)) % 2 ^ 64
  | 6 => a / 2 ^ (b % 64)
  | 7 => wrapInt 64 (signed 64 a / (2 ^ (b % 64) : Nat))
  | 8 => (a * b) % 2 ^ 64
  | _ => wrapInt 64 (signed 64 a * signed 64 b / (2 ^ 64 : Nat))

/-- RA COND RB (R358). -/
def brHolds (cond a b : Nat) : Bool :=
  match cond with
  | 0 => a == b
  | 1 => a != b
  | 2 => decide (signed 64 a < signed 64 b)
  | 3 => decide (signed 64 b ≤ signed 64 a)
  | 4 => decide (a < b)
  | _ => decide (b ≤ a)

/-- ALU (R358). -/
def execAlu (core : Core) (thread : Thr) (s : State) : Result :=
  let t := s.thr core.val thread
  .next (match s.issuing core.val thread with
  | some (.alu rd ra rb fn) => s.writeBack core.val thread rd (aluResult fn (t.reg ra) (t.reg rb))
  | _ => s)

/-- ADDI (R358). [DEDUCED: log entry 9] -/
def execAddi (core : Core) (thread : Thr) (s : State) : Result :=
  let t := s.thr core.val thread
  .next (match s.issuing core.val thread with
  | some (.addi rd ra imm) => s.writeBack core.val thread rd (wrapInt 64 (t.reg ra + signed 12 imm))
  | _ => s)

/-- LIX (R358). -/
def execLix (core : Core) (thread : Thr) (s : State) : Result :=
  let t := s.thr core.val thread
  .next (match s.issuing core.val thread with
  | some (.lix rd imm) => s.writeBack core.val thread rd ((t.reg rd * 2 ^ 18) % 2 ^ 64 ||| imm)
  | _ => s)

/-- BR (R358). -/
def execBr (core : Core) (thread : Thr) (s : State) : Result :=
  let t := s.thr core.val thread
  .next (match s.issuing core.val thread with
  | some (.br ra rb cond off) =>
    if brHolds cond (t.reg ra) (t.reg rb) then s.branch core.val thread (signed 9 off) else s.advance core.val thread
  | _ => s)

/-- JMP (R358). -/
def execJmp (core : Core) (thread : Thr) (s : State) : Result :=
  .next (match s.issuing core.val thread with
  | some (.jmp off) => s.branch core.val thread (signed 24 off)
  | _ => s)

/-! ### Loads and stores -/

/-- The address of a load or store. -/
def ThreadSt.address (t : ThreadSt) (ra imm : Nat) : Nat := wrapInt 64 (t.reg ra + 8 * signed 12 imm)

def thrIndex : Thr → Nat
  | .F => 0
  | .B => 1
  | .U => 2

/-- A memory access of a thread is held back by a die in reset or a tower asleep (R22, R23, R25). -/
def State.holdAccess (s : State) (c : Core) (th : Thr) (h : Holder) (k : Sink) (a : Nat) (bs : List DataByte) : State :=
  let s := s.holdReq ⟨h, .core c, k, a, 8, bs⟩
  s.setThr c.val th { s.thr c.val th with wait := some .load }

/-- LD (R358, R239): a poisoned word, or a load that completes with PATH_LOST or CHAN_FAIL data, is a poison fault; one that
completes with ADDR_FAULT ends the unit too. [DEDUCED: log entry 9] -/
def execLd (core : Core) (thread : Thr) (hits : List EccHit) (s : State) : Result :=
  let c := core.val
  .next (match s.issuing c thread with
  | some (.ld rd ra imm) =>
    let a := (s.thr c thread).address ra imm
    match s.rangeHolder (.core core) a 8 with
    | some h => (s.advance c thread).holdAccess core thread h (.load c (thrIndex thread) rd) a []
    | none =>
      let bad := s.pathBad hits
      let (st, bs, s) := (s.eccHits hits).memRead (.core core) a 8
      let bs := spoil bad a bs
      if st = stAddrFault then (s.fetched c thread).unitError c thread
      else if bs.any (·.isNone) then ((s.fetched c thread).consumePoison (.core core) (poisonWords a bs)).unitError c thread
      else s.writeBack c thread rd (leNat (bs.map (·.getD 0)))
  | _ => s)

/-- A store must wait: to CRN_FLEX_POST while the job table is full (R207), or of thread U to a slot of an array that has not been
preempted for it, or whose save has not been committed (R137, R377). [DEDUCED: log entry 10] -/
def State.storeWaits (s : State) (c : Nat) (th : Thr) (off v : Nat) : Bool :=
  match coreBlock off with
  | some (k, o) => k == c &&
    ((o == 0x48 && isFlex c && s.rdB (Reg.CRN_FLEX_CFG_EN (crownOf c) (localOf c)) && !(s.core c).jobRoom) ||
      (th == .U && (storedSlots o 8 v).any fun e =>
        (s.arr c e.1).preempting || ((s.core c).urgent && (s.arr c e.1).saved.isNone)))
  | none => false

/-- ST (R358): to memory, or through the register path. [DEDUCED: log entry 9] -/
def execSt (core : Core) (thread : Thr) (s : State) : Result :=
  let c := core.val
  .next (match s.issuing c thread with
  | some (.st rd ra imm) =>
    let t := s.thr c thread
    let a := t.address ra imm
    let v := t.reg rd
    match s.place a with
    | .reg off =>
      if s.storeWaits c thread off v then s
      else if regionFault off 8 true then ((s.fetched c thread).addrFault (.core core) a).unitError c thread
      else ((s.advance c thread).coreStore core (some thread) a ((leBytes 8 v).map some)).2
    | _ =>
      let bs := (leBytes 8 v).map some
      match s.rangeHolder (.core core) a 8 with
      | some h => (s.advance c thread).holdAccess core thread h (.store c (thrIndex thread)) a bs
      | none =>
        let (st, s) := s.memWrite (.core core) a bs
        if st = stAddrFault then (s.fetched c thread).unitError c thread else s.advance c thread
  | _ => s)

/-! ### Commands to the engines -/

/-- ACMD (R357, R358, R211, R377). -/
def execAcmd (core : Core) (thread : Thr) (s : State) : Result :=
  let c := core.val
  .next (match s.issuing c thread with
  | some (.acmd ra fn) =>
    let a : Arr := if fn = 0 then .F else .B
    let y := s.arr c a
    let e : ArrEntry := { word := (s.thr c thread).reg ra, thread }
    if thread ≠ .U ∧ s.rdB (Reg.CRN_FLEX_CFG_EN (crownOf c) (localOf c)) then (s.arrayError c).advance c thread
    else if 8 ≤ y.queue.length ∨ y.entering ≠ [] ∨ (thread = .U ∧ y.saved.isNone) then s
    else (s.enqueueArr c a e).advance c thread
  | _ => s)

/-- VCMD (R358). -/
def execVcmd (core : Core) (thread : Thr) (s : State) : Result :=
  let c := core.val
  .next (match s.issuing c thread with
  | some (.vcmd ra) =>
    let x := s.core c
    if 8 ≤ x.vecQueue.length then s
    else (s.setCore c { x with vecQueue := x.vecQueue ++ [⟨(s.thr c thread).reg ra, thread⟩] }).advance c thread
  | _ => s)

/-! ### Synchronisation -/

/-- A change of a sync object by a thread: made once the stores it is ordered after have completed (R369). -/
def State.syncOrdered (s : State) (c : Nat) (th : Thr) (o : SyncOp) : State :=
  let t := s.thr c th
  (s.setThr c th { t with ops := t.ops ++ [o] }).flushThread c th

/-- SADD (R358, R369). -/
def execSadd (core : Core) (thread : Thr) (s : State) : Result :=
  let t := s.thr core.val thread
  .next (match s.issuing core.val thread with
  | some (.sadd ra rb) =>
    (s.advance core.val thread).syncOrdered core.val thread ⟨false, bits (t.reg ra) 16 0, bits (t.reg rb) 31 0⟩
  | _ => s)

/-- SSET (R358, R369). -/
def execSset (core : Core) (thread : Thr) (s : State) : Result :=
  let t := s.thr core.val thread
  .next (match s.issuing core.val thread with
  | some (.sset ra rb) =>
    (s.advance core.val thread).syncOrdered core.val thread ⟨true, bits (t.reg ra) 16 0, bits (t.reg rb) 31 0⟩
  | _ => s)

/-- SWAIT (R358): the thread waits. -/
def execSwait (core : Core) (thread : Thr) (s : State) : Result :=
  .next (match s.issuing core.val thread with
  | some (.swait ra rb fn) =>
    let s := s.advance core.val thread
    let t := s.thr core.val thread
    s.setThr core.val thread { t with
      wait := some (.sync (bits (t.reg ra) 16 0) (bits (t.reg rb) 31 0) (fn == 1)) }
  | _ => s)

/-- SYNC_WAIT_SATISFIED (R370): the object's value ends the wait. -/
def execSyncWaitSatisfied (core : Core) (thread : Thr) (s : State) : Result :=
  if s.power.stopped then .next s else
  let t := s.thr core.val thread
  .next (match t.wait with
  | some (.sync o v eq) =>
    if s.condHolds ⟨o, v, eq⟩ then s.setThr core.val thread { t with wait := none } else s
  | _ => s)

/-- RADD (R358, R372). [DEDUCED: log entry 18] -/
def execRadd (core : Core) (thread : Thr) (s : State) : Result :=
  let c := core.val
  let t := s.thr c thread
  .next (match s.issuing c thread with
  | some (.radd ra rb) =>
    let coord := bits (t.reg ra) 30 17
    let obj := bits (t.reg ra) 16 0
    let op := s.nextOp % 2 ^ 32
    let s : State := { s.advance c thread with
      nextOp := s.nextOp + 1
      remoteAdds := s.remoteAdds ++ [⟨op, c, thrIndex thread, coord, obj⟩] }
    -- a core that is cut off from its brim sends nothing, and its add times out (R30)
    if s.cutOff (.core core) then s
    else s.sendPkt (crownOf c) 0 coord 0x11 false 0 [] (leBytes 4 obj ++ leBytes 4 (bits (t.reg rb) 31 0) ++ leBytes 4 op) []
  | _ => s)

/-- FENCE (R358). -/
def execFence (core : Core) (thread : Thr) (s : State) : Result :=
  .next (match s.issuing core.val thread with
  | some .fence => if (s.core core.val).quiet thread then s.advance core.val thread else s
  | _ => s)

/-! ### The end of a unit -/

/-- Sample slots of the package (R364). -/
def sampleSlots : Nat := 256

/-- Samples of a micro-batch (R360). -/
def State.mbSize (s : State) (m : Nat) : Nat := ((s.units.find? (·.mb == m)).map (·.mbsz)).getD 0

/-- Micro-batches take slots in ascending index order; one that finds too few waits, with every later one behind it
(R364). `n` counts the indices left. [DEDUCED: log entry 22] -/
def State.takeSlots : Nat → Nat → State → State
  | 0, _, s => s
  | n + 1, m, s =>
    match s.step with
    | none => s
    | some r =>
      if !(s.units.any (·.mb == m)) || r.mbHeld.contains m || decide (0 < Sparse.get 0 r.mbEnded m) then
        State.takeSlots n (m + 1) s
      else if s.slotsUsed + s.mbSize m ≤ sampleSlots then
        State.takeSlots n (m + 1) { s with step := some { r with mbHeld := r.mbHeld ++ [m] } }
      else s

/-- Every micro-batch that can take its slots takes them. [DEDUCED: log entry 22] -/
def State.grantSlots (s : State) : State := State.takeSlots 1024 0 s

/-- A unit with SLOT_END completes: when every such unit of the micro-batch has, its slots return, and the next
micro-batches take them (R364). -/
def State.endSlots (s : State) (u : UnitDesc) : State :=
  match s.step with
  | none => s
  | some r =>
    if u.mb = 0xFFFF ∨ !u.slotEnd then s
    else
      let n := Sparse.get 0 r.mbEnded u.mb + 1
      let all := (s.units.filter fun v => v.mb == u.mb && v.slotEnd).length
      let r := { r with mbEnded := Sparse.put 0 r.mbEnded u.mb n
                        mbHeld := if all ≤ n then r.mbHeld.filter (· != u.mb) else r.mbHeld }
      ({ s with step := some r } : State).grantSlots

/-- A work unit completes: SIGNAL gains 1 (R360, R369). -/
def State.completeUnit (s : State) (u : UnitDesc) : State := (s.endSlots u).signal (coreOrig u.core) u.signal

/-- END (R358, R372, R376): thread U ends its urgent unit on this core; threads F and B complete their work unit. -/
def execEndUnit (core : Core) (thread : Thr) (s : State) : Result :=
  let c := core.val
  let t := s.thr c thread
  .next (match s.issuing c thread with
  | some .endUnit =>
    if !(s.core c).quiet thread || t.ops ≠ [] || (s.core c).jobs.any (·.thread == thread) ||
        s.remoteAdds.any (fun r => r.core == c && r.thread == thrIndex thread) then s
    else if thread = .U then (s.fetched c thread).endUrgent c
    else
      let s := (s.fetched c thread).setThr c thread { t with running := false, wait := none }
      match s.units[t.unit]? with
      | some u => s.completeUnit u
      | none => s
  | _ => s)

/-- RESERVED_OPCODE (R358, R366): an instruction that R358 reserves ends its unit with an error; one whose word is poisoned is a
consumer of that word (R239). -/
def execReservedOpcode (core : Core) (thread : Thr) (s : State) : Result :=
  let pc := (s.thr core.val thread).pc
  .next (match s.insn core.val thread with
  | some none =>
    let (bs, s) := s.fetch core.val pc
    (s.consumePoison (.core core) (poisonWords (sramBase core.val + pc) bs)).unitError core.val thread
  | _ => s)

end Sys2Proof.Machine
end

