-- ==== Sys2Proof/Machine/Keep.lean ====
section
/-! DEFINITION. What a reset or low-power state does to register fields (R10, R480), and core gating. -/

namespace Sys2Proof.Machine

/-- The row of a stored field, by its key. -/
def rowAt (key : Nat) : Option FieldRow :=
  let off := key / 64
  let off := if portBCopy ≤ off then off - portBCopy else off
  (familyAt off).bind fun f => f.fields.find? fun r => r.lo == key % 64

/-- A reset kind returns every field it reaches to its Reset value, unless the field is kept across it (R480). `reach` looks
at the offset (port B's copies above `portBCopy`) and the row. [DEDUCED: log entry 2] -/
def State.resetFields (s : State) (k : ResetKind) (reach : Nat → FieldRow → Bool) : State :=
  let stays (key : Nat) : Bool := match rowAt key with
    | some r => !reach (key / 64) r || r.kept.keeps k
    | none => true
  { s with flds := s.flds.filter fun e => stays e.1 }

/-- The BAR0 block of a core (R79). -/
def inCoreBlock (c off : Nat) : Bool :=
  let b := 0x1010000 + crownOf c * 0x400000 + localOf c * 0x1000
  decide (b ≤ off) && decide (off < b + 0x1000)

/-- Lose the local SRAM of a core: its words read as words never written. -/
def State.loseSram (s : State) (c : Nat) : State :=
  let lo := 0x5000000000 + c * 0x100000
  { s with mem := s.mem.filter fun e => !(decide (lo ≤ e.1) && decide (e.1 < lo + 0x100000))
           poison := s.poison.filter fun e => !(decide (lo / 16 ≤ e.1) && decide (e.1 < (lo + 0x100000) / 16)) }

/-- A core enters core gating (R480, G): its block's fields, its local SRAM, its accumulators and its engines. -/
def State.gateCore (s : State) (c : Nat) : State :=
  ((s.setCore c {}).loseSram c).resetFields .G fun off _ => inCoreBlock c off

/-- Gate every core of a crown. -/
def State.gateCrown (s : State) (n : Nat) : State :=
  (List.range 144).foldl (fun s l => s.gateCore (144 * n + l)) s

/-- A core is powered up (R353). -/
def State.powerCore (s : State) (c : Nat) : State := s.setCore c { s.core c with gated := false }

end Sys2Proof.Machine
end

