-- ==== Sys2Proof/Machine/Plan.lean ====
section
/-! DEFINITION. The update plan (R257 to R259), copy descriptors (R273), buckets and shard maps (R314, R315), FP32
arithmetic (R268, R324), CRC-64 (R277). -/

namespace Sys2Proof.Machine

/-! ### FP32 operations: one rounding to nearest even each -/

def f32Layout : Layout := ⟨8, 23, 127, .ieee⟩

def toF32 (x : Num) : Nat := (f32Layout.convert true .even x).1
def ofF32 (c : Nat) : Num := f32Layout.decode c
/-- Round an exact value to FP32. -/
def rnd32 (x : Num) : Num := ofF32 (toF32 x)

def fAdd (a b : Num) : Num := rnd32 (a.add b)
def fSub (a b : Num) : Num := rnd32 (a.sub b)
def fMul (a b : Num) : Num := rnd32 (a.mul b)

/-- A quotient to more than 64 bits, with a last bit that says that something remains. -/
def quoVal (neg : Bool) (m : Nat) (e : Int) (n : Nat) (f : Int) : Num :=
  let k := 64 + Nat.log2 n
  let t := m * 2 ^ k
  .fin neg (2 * (t / n) + (if t % n = 0 then 0 else 1)) (e - f - k - 1)

/-- An exact quotient as far as any rounding needs it. -/
def Num.div : Num → Num → Num
  | .nan, _ => .nan
  | _, .nan => .nan
  | .inf _, .inf _ => .nan
  | .inf s, .fin t _ _ => .inf (s != t)
  | .fin s _ _, .inf t => .fin (s != t) 0 0
  | .fin s m e, .fin t n f =>
    if n = 0 then (if m = 0 then .nan else .inf (s != t))
    else if m = 0 then .fin (s != t) 0 0
    else quoVal (s != t) m e n f

def fDiv (a b : Num) : Num := rnd32 (a.div b)

/-- Integer square root of a number below 4^64. -/
def isqrt (n : Nat) : Nat :=
  (List.range 64).foldl (fun r i => let c := r + 2 ^ (63 - i); if c * c ≤ n then c else r) 0

/-- Square root as far as a rounding to FP32 needs it; −0 stays −0 and other negatives give NaN. -/
def Num.sqrt : Num → Num
  | .nan => .nan
  | .inf s => if s then .nan else .inf false
  | .fin s m e =>
    if m = 0 then .fin s 0 0
    else if s then .nan
    else
      -- an even exponent, and enough bits below
      let k : Nat := if (e - 64) % 2 = 0 then 64 else 65
      let n := m * 2 ^ k
      let r := isqrt n
      .fin false (2 * r + (if r * r = n then 0 else 1)) ((e - k) / 2 - 1)

def fSqrt (a : Num) : Num := rnd32 a.sqrt

/-- sign of R268. -/
def fSign : Num → Num
  | .nan => .nan
  | .inf s => .fin s 1 0
  | .fin s m _ => if m = 0 then .fin false 0 0 else .fin s 1 0

def one32 : Num := .fin false 1 0

/-! ### CRC-64 (R277) -/

def crc64Byte (c : Nat) (b : Byte) : Nat :=
  (List.range 8).foldl (fun c _ =>
    if bit c 63 then (c * 2 % 2 ^ 64) ^^^ 0x42F0E1EBA9EA3693 else c * 2) (c ^^^ (b.toNat * 2 ^ 56))

def crc64 (bs : List Byte) : Nat := bs.foldl crc64Byte 0

/-! ### Plan entries (R257) -/

/-- A plan entry, by the fields of R257. -/
structure PlanEntry where
  master : Nat
  m1 : Nat
  m1s : Nat
  m2 : Nat
  m2s : Nat
  gbuf : Nat
  srec : Nat
  copy : Nat
  nrow : Nat
  ncol : Nat
  lr : Nat
  beta1 : Nat
  beta2 : Nat
  eps : Nat
  wd : Nat
  gscale : Nat
  contrib : Nat
  rule : Nat
  bias : Bool
  short : Nat
  nonfinite : Bool
  m1fmt : Nat
  m2fmt : Nat
  ctlw : Nat
  ctlm : Nat
  ncopy : Nat
  streamW : Nat
  stream1 : Nat
  stream2 : Nat
  tower : Nat
  owner : Bool
  index : Nat
  done : Nat
deriving DecidableEq, Repr

def planOf (e : List Byte) : PlanEntry where
  master := fieldNat e 0 8
  m1 := fieldNat e 8 8
  m1s := fieldNat e 16 8
  m2 := fieldNat e 24 8
  m2s := fieldNat e 32 8
  gbuf := fieldNat e 40 8
  srec := fieldNat e 48 8
  copy := fieldNat e 56 8
  nrow := fieldNat e 64 4
  ncol := fieldNat e 68 4
  lr := fieldNat e 72 4
  beta1 := fieldNat e 76 4
  beta2 := fieldNat e 80 4
  eps := fieldNat e 84 4
  wd := fieldNat e 88 4
  gscale := fieldNat e 92 4
  contrib := fieldNat e 96 2
  rule := fieldNat e 98 1 % 16
  bias := bit (fieldNat e 98 1) 4
  short := bits (fieldNat e 98 1) 6 5
  nonfinite := bit (fieldNat e 98 1) 7
  m1fmt := fieldNat e 99 1 % 32
  m2fmt := fieldNat e 100 1 % 32
  ctlw := fieldNat e 101 1
  ctlm := fieldNat e 102 1
  ncopy := fieldNat e 103 1
  streamW := fieldNat e 104 2
  stream1 := fieldNat e 106 2
  stream2 := fieldNat e 108 2
  tower := fieldNat e 110 1 % 4
  owner := bit (fieldNat e 110 1) 2
  index := fieldNat e 112 5
  done := fieldNat e 120 4 % 2 ^ 17

/-- Parameters of an entry, and its chunks of 8,192 (R259). -/
def PlanEntry.params (e : PlanEntry) : Nat := e.nrow * e.ncol
def PlanEntry.chunks (e : PlanEntry) : Nat := (e.params + 8191) / 8192
/-- Delivery pieces of 2,048 masters (R340). -/
def PlanEntry.pieces (e : PlanEntry) : Nat := (e.params + 2047) / 2048
/-- Parameters of a chunk. -/
def PlanEntry.chunkLen (e : PlanEntry) (c : Nat) : Nat := min 8192 (e.params - 8192 * c)

/-- Does the rule store a first moment, and a second in blocks? (R257, R272) -/
def PlanEntry.hasM1 (e : PlanEntry) : Bool := e.rule != 0 && !(e.rule == 7 && e.beta1 % 2 ^ 31 == 0)
def PlanEntry.hasM2 (e : PlanEntry) : Bool := decide (3 ≤ e.rule) && decide (e.rule ≤ 5)
def PlanEntry.factored (e : PlanEntry) : Bool := e.rule == 7
def PlanEntry.lamb (e : PlanEntry) : Bool := e.rule == 5

/-- The state of an owner entry by REGION (R259, R323): region, base and bytes. -/
def PlanEntry.regions (e : PlanEntry) : List (Nat × Nat × Nat) :=
  let blocks := (e.params + 31) / 32
  [(0, e.master, 2 * e.params)] ++
    (if e.hasM1 then [(1, e.m1, 32 * blocks), (2, e.m1s, blocks)] else []) ++
    (if e.hasM2 then [(3, e.m2, 32 * blocks), (4, e.m2s, blocks)] else []) ++
    (if e.factored then [(3, e.m2, 4 * e.nrow), (4, e.m2s, 4 * e.ncol)] else []) ++
    [(5, e.srec, 64)]

/-- The plan, decoded, with each entry's index. -/
def State.planEntries (s : State) : List (Nat × PlanEntry) := s.fabric.plan.zipIdx.map fun (b, i) => (i, planOf b)
def State.planAt (s : State) (i : Nat) : Option PlanEntry := s.fabric.plan[i]?.map planOf

def State.entry (s : State) (i : Nat) : EntrySt := Sparse.get {} s.entries i
def State.setEntry (s : State) (i : Nat) (x : EntrySt) : State := { s with entries := Sparse.put {} s.entries i x }

/-- The contribution count of a chunk that has landed, none before it has. -/
def EntrySt.cnt (x : EntrySt) (c : Nat) : Option Nat :=
  match Sparse.get 0 x.landed c with
  | 0 => none
  | n + 1 => some n

/-! ### Buckets and shards (R314, R315) -/

structure Bucket where
  group : Nat
  efmt : Nat
  tag : Nat
  seq0 : Nat
  nchunk : Nat
  ready : Nat
  readyVal : Nat
  nshard : Nat
  shards : Nat
  src : Nat
  nelem : Nat
  map : List Shard
deriving DecidableEq, Repr

/-- A bucket, by the fields of its record and its shard map. -/
def bucketOf (b : List Byte) (map : List Shard) : Bucket where
  group := fieldNat b 0 1 % 64
  efmt := fieldNat b 1 1
  tag := fieldNat b 2 2 % 4096
  seq0 := fieldNat b 4 4
  nchunk := fieldNat b 8 4
  ready := fieldNat b 12 4 % 2 ^ 17
  readyVal := fieldNat b 16 4
  nshard := fieldNat b 20 4
  shards := fieldNat b 24 8
  src := fieldNat b 32 8
  nelem := fieldNat b 40 8
  map

/-- Buckets of the shaped image. -/
def State.bucketAt (s : State) (i : Nat) : Option Bucket :=
  s.fabric.buckets[i]?.map fun b => bucketOf b (s.fabric.shardMaps.getD i [])
def State.bucketList (s : State) : List (Nat × Bucket) :=
  s.fabric.buckets.zipIdx.map fun (b, i) => (i, bucketOf b (s.fabric.shardMaps.getD i []))

/-- The shard that holds a bucket chunk. -/
def Bucket.shardOf (b : Bucket) (chunk : Nat) : Option Shard :=
  b.map.find? fun d => decide (d.first ≤ chunk) && decide (chunk < d.first + d.count)

/-- The group and the owner of a plan entry: those of the buckets that shard into it (R316). -/
def State.entryHome (s : State) (i : Nat) : Option (Nat × Nat) :=
  s.bucketList.findSome? fun (_, b) => (b.map.find? (·.entry == i)).map fun d => (b.group, d.owner)

/-- The lowest-numbered brim whose adder works, in place of one whose adder has failed (R329). -/
def State.adderBrim (s : State) (b : Nat) : Nat :=
  let bad := s.rd Reg.RED_ADDER_FAILED
  if bit bad b then ([0, 1, 2, 3].find? fun x => !bit bad x).getD b else b

/-! ### The tables as they lie in memory -/

/-- One entry of a guard list (R313). -/
def guardOf (b : List Byte) : Nat × Nat := (fieldNat b 0 2 % 16384, fieldNat b 2 2 % 16384)

/-- One entry of a shard map (R315). -/
def shardRec (b : List Byte) : Shard :=
  ⟨fieldNat b 0 4, fieldNat b 4 4, fieldNat b 8 2 % 16384, fieldNat b 10 3, fieldNat b 13 3⟩

/-- One copy descriptor (R273). -/
def copyDescOf (b : List Byte) : CopyDesc :=
  ⟨fieldNat b 0 8, fieldNat b 8 8, fieldNat b 16 8, fieldNat b 24 8, fieldNat b 32 4, fieldNat b 36 4, fieldNat b 40 1,
    fieldNat b 41 1 % 32, fieldNat b 42 1, fieldNat b 44 2, fieldNat b 46 2, fieldNat b 48 8,
    decide (fieldNat b 41 1 < 32) && fieldNat b 43 1 == 0 && fieldNat b 56 8 == 0⟩

end Sys2Proof.Machine
end

