-- ==== Sys2Proof/Machine/TierMgr.lean ====
section
/-! DEFINITION. The tier managers: page moves and their queue (R241 to R247, R253), frame zeroing, refresh, scrubbing, row and
lane sparing (R248 to R252), TIER_CFG (R255). -/

namespace Sys2Proof.Machine

/-! ### Plan order of pages -/

/-- The place of a page in update-plan order: the first entry whose state touches it (R246). -/
def State.planIndex (s : State) (pg : Nat) : Nat :=
  (s.fabric.plan.findIdx? fun e => (planOf e).regions.any fun (_, base, n) =>
    decide (0 < n) && decide (base < (pg + 1) * 65536) && decide (pg * 65536 < base + n)).getD s.fabric.plan.length

/-! ### The page engine's queue -/

def State.enqueueMove (s : State) (t : Nat) (m : PageMove) : State :=
  let x := s.tier t
  s.setTier t { x with queue := x.queue ++ [m] }

/-- The order in which the page engine takes moves (R246): class, then plan order, marker or region as the class has it,
then page. -/
def State.moveKey (s : State) (m : PageMove) : List Nat :=
  let region := (s.regions.findIdx? fun r => decide (r.page ≤ m.page) && decide (m.page < r.page + r.count)).getD 1024
  match m.kind with
  | .stateIn => [m.kind.rank, s.planIndex m.page, m.page]
  | .stage => [m.kind.rank, m.marker, region, m.page]
  | _ => [m.kind.rank, region, m.page]

def keyLess : List Nat → List Nat → Bool
  | [], [] => false
  | [], _ => true
  | _, [] => false
  | a :: r, b :: t => if a < b then true else if b < a then false else keyLess r t

/-- Can the move begin: does its page still wait for it, and has a stage-in a free frame of its class (R247)? -/
def State.moveStarts (s : State) (t : Nat) (m : PageMove) : Bool :=
  let p := s.page m.page
  match m.kind with
  | .stateOut | .leave => p.state == .resident || p.state == .homeLost
  | .stateIn | .stage => p.state == .absent &&
    (match s.regionOf m.page with
      | some r => (s.freeFrame t r.cls).isSome
      | none => false)

/-- A move into the near tier. -/
def MoveKind.inward : MoveKind → Bool
  | .stateIn | .stage => true
  | .stateOut | .leave => false

/-- Does a move of the page, in or out, wait in its tower's queue? -/
def State.moveQueued (s : State) (pg : Nat) (inward : Bool) : Bool :=
  (s.tier (s.pageHome pg).1).queue.any fun m => m.page == pg && m.kind.inward == inward

/-- A move whose page no longer needs it. A page that is on its way in, or still to be staged, is to leave after that; one that is on
its way out, or still to leave, is to be staged after that (R241). A page that has lost its home leaves though its region is gone
(R253). [DEDUCED: log entry 7] -/
def State.moveStale (s : State) (m : PageMove) : Bool :=
  let p := s.page m.page
  if m.kind.inward then
    (s.regionOf m.page).isNone || !(p.state == .absent || p.state == .leaving || s.moveQueued m.page false)
  else
    !(p.state == .homeLost ||
      ((s.regionOf m.page).isSome && (p.state == .resident || p.state == .arriving || s.moveQueued m.page true)))

/-- PAGE_ENGINE_START (R243, R246, R255): the next move that can begin. -/
def execPageEngineStart (t : Tower) (s : State) : Result :=
  let x := s.tier t.val
  let q := x.queue.filter fun m => !s.moveStale m
  let best := (q.filter (s.moveStarts t.val)).foldl (fun (b : Option PageMove) m => match b with
    | none => some m
    | some n => if keyLess (s.moveKey m) (s.moveKey n) then some m else some n) none
  let s := s.setTier t.val { x with queue := q, rateInForce := s.rd (Reg.TIER_CFG_RATE t.val) }
  .next (match best with
  | none => s
  | some m =>
    let x := s.tier t.val
    let s := s.setTier t.val { x with queue := x.queue.erase m }
    let p := s.page m.page
    match m.kind with
    | .stateOut | .leave => s.setPage m.page { p with state := .leaving }
    | .stateIn | .stage =>
      match s.regionOf m.page with
      | none => s
      | some r => match s.freeFrame t.val r.cls with
        | none => s
        | some f => (s.setFrame t.val f .used).setPage m.page { state := .arriving, frame := f })

/-- The page engine begins a block: RATE comes into force (R255), and the tower is idle no more (R485). -/
def State.takeRate (s : State) (t : Nat) : State :=
  let s := if (s.tower t).idle then s.setTower t { s.tower t with idle := false } else s
  s.setTier t { s.tier t with rateInForce := s.rd (Reg.TIER_CFG_RATE t) }

/-- STAGE_IN_COMMIT (R243, R244, R253): the last block of a page arrives, and the page commits; a die in reset holds it back (R22).
The words of the copy whose bits changed are its hits (R237). -/
def execStageInCommit (copy : PageCopy) (s : State) : Result :=
  let ⟨page, hits⟩ := copy
  let x := s.page page
  let (t, ta) := s.pageHome page
  .next (if x.state != .arriving || s.moveHeld t ta then s
    else if s.movePathLost t ta then (((s.takeRate t).setPage page {}).freeUp t x.frame).errAddr t 3 (page * 65536)
    else
      let bad := s.pathBad hits
      (((s.takeRate t).eccHits hits).movePage page t ta x.frame true bad).becomeResident page t x.frame false
        |>.incWrap (Reg.TIER_PAGE_CNT_STAGED t))

/-- WRITE_BACK_COMMIT (R243, R244, R253): a page that was not written leaves without a copy; a die in reset holds a copy back (R22).
The words of the copy whose bits changed are its hits (R237). [DEDUCED: log entry 7] -/
def execWriteBackCommit (copy : PageCopy) (s : State) : Result :=
  let ⟨page, hits⟩ := copy
  let x := s.page page
  let (t, ta) := s.pageHome page
  .next (if x.state != .leaving || (x.dirty && s.moveHeld t ta) then s
    else
      let bad := s.pathBad hits
      let s := s.takeRate t
      (if x.dirty && !s.movePathLost t ta then s.eccHits hits else s).finishLeave page bad)

/-! ### What other agents make the tier managers do -/

/-- The classes whose pages STAGE_AT fills from the deep tier, and those that LEAVE_AT writes back (R241). -/
def stagedClass (c : Nat) : Bool := c == 1 || c == 2 || c == 4
def leavingClass (c : Nat) : Bool := c == 1 || c == 2

/-- A page is to be staged: one in the deep tier, or one that leaves or is still to leave, which is staged after that (R241).
[DEDUCED: log entry 7] -/
def State.dueIn (s : State) (pg : Nat) : Bool :=
  let p := (s.page pg).state
  !s.moveQueued pg true && (p == .absent || p == .leaving || (p == .resident && s.moveQueued pg false))

/-- A page is to leave: one in its frame, or one that arrives or is still to be staged, which leaves after that (R241, R263).
[DEDUCED: log entry 7] -/
def State.dueOut (s : State) (pg : Nat) : Bool :=
  let p := (s.page pg).state
  s.moveQueued pg true || p == .arriving || p == .resident

/-- A phase marker is signalled (R240, R241, R246): stage-ins and write-backs fall due. -/
def State.markerPages (s : State) (m : Nat) : State :=
  s.regions.foldl (fun s r =>
    let pages := (List.range r.count).map (r.page + ·)
    let s := if r.stageAt = m && stagedClass r.cls then
        pages.foldl (fun s pg => if s.dueIn pg then
            s.enqueueMove (s.pageHome pg).1 ⟨if r.cls = 4 then .stateIn else .stage, pg, m⟩
          else s) s
      else s
    if r.leaveAt = m && leavingClass r.cls then
      pages.foldl (fun s pg =>
        if s.dueOut pg then
          let x := s.page pg
          (if x.state = .resident then s.setPage pg { x with leavePassed := true } else s).enqueueMove (s.pageHome pg).1 ⟨.leave, pg, m⟩
        else s) s
    else s) s

/-- The update unit releases a STATE page: its write-back is due (R246, R263), once. -/
def State.releaseState (s : State) (pg : Nat) : State :=
  match s.regionOf pg with
  | some r => if r.cls = 4 && s.dueOut pg && !((s.tier (s.pageHome pg).1).queue.any fun m => m.page == pg && m.kind == .stateOut) then
      s.enqueueMove (s.pageHome pg).1 ⟨.stateOut, pg, 0⟩ else s
  | none => s

/-- The STATE pages that are in the near tier, on their way there or still to be staged (R263). -/
def State.statePagesIn (s : State) : List Nat :=
  let inside := (s.pages.filter fun e => e.2.state == .resident || e.2.state == .arriving).map (·.1)
  let due := [0, 1, 2, 3].flatMap fun t => ((s.tier t).queue.filter (·.kind == .stateIn)).map (·.page)
  (inside ++ due).eraseDups.filter fun pg => match s.regionOf pg with
    | some r => r.cls == 4
    | none => false

/-- The update unit releases a GRADBUF page, without write-back (R241, R263). -/
def State.releaseGradbuf (s : State) (pg : Nat) : State :=
  match s.regionOf pg with
  | some r =>
    if r.cls != 3 then s
    else
      let x := s.page pg
      let t := (s.pageHome pg).1
      match x.state with
      | .resident => (s.setPage pg {}).freeUp t x.frame
      | .spilled => s.setPage pg {}
      | _ => s
  | none => s

/-- Make the pages of some classes EMPTY (R243, R362): frames return to the pool and their moves end. -/
def State.emptyPages (s : State) (cls : List Nat) : State :=
  let hit (pg : Nat) : Bool := match s.regionOf pg with
    | some r => cls.contains r.cls
    | none => false
  let s := [0, 1, 2, 3].foldl (fun s t =>
    let x := s.tier t
    s.setTier t { x with queue := x.queue.filter fun m => !hit m.page }) s
  let s := (s.pages.filter fun e => hit e.1).foldl (fun s e =>
    match e.2.state with
    | .resident | .leaving | .arriving | .homeLost => s.freeUp (s.pageHome e.1).1 e.2.frame
    | _ => s) s
  (s.regions.filter fun r => cls.contains r.cls).foldl (fun s r =>
    (List.range r.count).foldl (fun s i => s.setPage (r.page + i) { state := .empty }) s) s

/-- Clear a tower's directory: every page ABSENT, every frame free, its contents lost (R254). -/
def State.clearDirectory (s : State) (t : Nat) : State :=
  let pages := s.pages.filter fun e => (s.pageHome e.1).1 != t
  let x := s.tier t
  ({ s with pages } : State).setTier t { x with frames := [], queue := [], arrivals := 0 }

/-! ### Zeroing, refresh and scrub -/

/-- FRAME_ZEROING (R245). -/
def execFrameZeroing (t : Tower) (s : State) : Result :=
  .next (match (s.tier t.val).frames.find? fun e => e.2 == .unzeroed with
    | some (f, _) => (s.zeroFrame t.val f).setFrame t.val f .free
    | none => s)

/-- DRAM_REFRESH (R22, R248): issued, or owed while the horizon's logic is in reset. -/
def execDramRefresh (t : Tower) (channel : Fin 320) (s : State) : Result :=
  let h := channel.val / 64
  let x := s.tower t.val
  let m := s.tier t.val
  let c := channel.val
  .next (if x.horizonReset.contains h then
      let due := Sparse.put 0 x.refreshDue c (Sparse.get 0 x.refreshDue c + 1)
      s.setTower t.val { x with refreshDue := due }
    else
      let done := Sparse.put 0 m.refreshes c (Sparse.get 0 m.refreshes c + 1)
      s.setTier t.val { m with refreshes := done })

/-- The device-physical address of a place in a tower's deep tier: the inverse of R226. -/
def deepAddress (loc t ta : Nat) : Nat :=
  let j := ta / 2 ^ 30
  let r := ta % 2 ^ 30
  if bit loc j then j * 2 ^ 32 + t * 2 ^ 30 + r
  else
    let hi := r / 2 ^ 21
    j * 2 ^ 32 + hi * 2 ^ 23 + (t ^^^ hi % 4) * 2 ^ 21 + r % 2 ^ 21

/-- SCRUB_EN comes into force for a scrub engine where it begins a 512-byte block, and stays so to the block's end (R255). -/
def State.scrubOn (s : State) (t : Nat) (deep : Bool) : State :=
  let m := s.tier t
  let en := s.rdB (Reg.TIER_CFG_SCRUB_EN t)
  if deep then (if m.scrubDeep % 32 = 0 then s.setTier t { m with scrubInForce := en } else s)
  else if m.scrubNear % 32 = 0 then s.setTier t { m with scrubNearInForce := en } else s

/-- The deep tier's scrub reads the word it stands at (R237, R249): skipped where the path is lost or the channel has failed, and else
held back while the horizon is in reset (R22, R24). -/
def State.scrubDeepWord (s : State) (t : Nat) (error : Word144) : State :=
  let m := s.tier t
  let ta := m.scrubDeep * 16
  let d := deepPlace ta
  let lost := ((PathEnd.horizon d.horizon).inner t).any s.domainLost
  if !lost && (s.tower t).horizonReset.contains d.horizon then s
  else
    let last := m.scrubDeep + 1 ≥ 20 * 2 ^ 30 / 16
    let s := s.setTier t { m with scrubDeep := if last then 0 else m.scrubDeep + 1 }
    let s := if last then s.incWrap (Reg.TIER_MAINT_DEEP_PASSES t) else s
    if m.failedChannels.contains (channelNo ta) || lost then s
    else s.storageWord t (deepKey t ta) (deepAddress (s.rd Reg.TIER_LOCAL_LOCAL) t ta) (5 - d.horizon) (some d.rowId) error

/-- The scrub of the near tier and of the local SRAM above it reads the word it stands at (R237, R249). -/
def State.scrubNearWord (s : State) (t : Nat) (error : Word144) : State :=
  let m := s.tier t
  let w := m.scrubNear * 16
  let last := m.scrubNear + 1 ≥ (0x30000000 + 144 * 0x100000) / 16
  let s := s.setTier t { m with scrubNear := if last then 0 else m.scrubNear + 1 }
  let s := if last then s.incWrap (Reg.TIER_MAINT_NEAR_PASSES t) else s
  let inNear := w < 0x30000000
  let key := if inNear then nearKey t w else sramKey (144 * t) (w - 0x30000000)
  if !inNear && s.domainLost (t, 6) then s
  else s.storageWord t key key (if inNear then 6 else 7) none error

/-- PATROL_SCRUB (R249, R255): the next word of the deep tier, or of the near tier and local SRAM; `error` is the bits of it that
changed. Nothing is scrubbed while the cache die is in reset or the tower is not awake. [DEDUCED: log entry 8] -/
def execPatrolScrub (t : Tower) (deep : Bool) (error : Word144) (s : State) : Result :=
  let x := s.tower t.val
  .next (if x.cacheReset || x.sleep != .awake then s
    else
      let s := s.scrubOn t.val deep
      let m := s.tier t.val
      if !(if deep then m.scrubInForce else m.scrubNearInForce) then s
      else if deep then s.scrubDeepWord t.val error
      else s.scrubNearWord t.val error)

/-- Do a tower's memory channels to a horizon admit no transfer of the tier manager's: the cache die or the horizon in reset (R22),
or the tower not awake (R25)? A transfer that meets a lost domain is not held (R24). -/
def State.horizonHeld (s : State) (t h : Nat) : Bool :=
  let x := s.tower t
  !((PathEnd.horizon h).inner t).any s.domainLost && (x.cacheReset || x.sleep != .awake || x.horizonReset.contains h)

/-- Is a write to the storage that holds an address's bytes held back? -/
def State.storageHeld (s : State) (t a : Nat) : Bool :=
  match s.place a with
  | .deep _ ta => s.horizonHeld t (deepPlace ta).horizon
  | _ => (s.tower t).cacheReset || (s.tower t).sleep != .awake

/-- CORRECTED_WRITE_BACK (R237): the first corrected word waiting reaches storage, which then holds it without error; a die in
reset, or a tower that admits no transfer, holds it back (R22, R25). -/
def execCorrectedWriteBack (t : Tower) (s : State) : Result :=
  let m := s.tier t.val
  .next (match m.correctedPending with
    | [] => s
    | a :: rest => if s.storageHeld t.val a then s else s.setTier t.val { m with correctedPending := rest })

/-! ### Sparing -/

/-- A row that R250 spares: one with an uncorrectable word, or with corrected errors in four distinct words. -/
def TierSt.rowToSpare (m : TierSt) : Option Nat :=
  match m.rowUncorrectable with
  | r :: _ => some r
  | [] => (m.rowErrors.find? fun e => decide (4 ≤ e.2.length)).map (·.1)

/-- The address within a tower of a byte of a row (R226). -/
def rowTa (r col : Nat) : Nat :=
  let ca := r % 2048 * 2 ^ 15 + r / 2048 % 16 * 2 ^ 11 + col
  (ca / 512 * 320 + r / 32768) * 512 + ca % 512

/-- A row goes through the decoder (R237, R250): `errors` gives words of it, by number, with the bits that changed. -/
def State.readRow (s : State) (t r : Nat) (errors : List (Nat × Word144)) : State :=
  errors.foldl (fun s e =>
    let ta := rowTa r (16 * (e.1 % 128))
    s.storageWord t (deepKey t ta) (deepAddress (s.rd Reg.TIER_LOCAL_LOCAL) t ta) (5 - (deepPlace ta).horizon) (some r) e.2) s

/-- ROW_SPARING (R250): the row's contents go through the decoder to a spare, or the bank has none left. A horizon in reset, a tower that is
not awake or a path that is lost holds the copy back (R22, R25, R30). -/
def execRowSparing (copy : RowCopy) (s : State) : Result :=
  let ⟨t, errors⟩ := copy
  .next (match (s.tier t.val).rowToSpare with
  | none => s
  | some r =>
    let bank := r / 2048
    let h := bank / 16 / 64
    let pos := 5 - h
    if s.horizonHeld t.val h || ((PathEnd.horizon h).inner t.val).any s.domainLost then s
    else
      let used := Sparse.get 0 (s.tier t.val).sparesUsed bank
      let s := if used < 16 then s.readRow t.val r errors else s
      let m := s.tier t.val
      let m := { m with rowUncorrectable := m.rowUncorrectable.erase r, rowErrors := Sparse.put [] m.rowErrors r [] }
      if used < 16 then
        (s.setTier t.val { m with sparesUsed := Sparse.put 0 m.sparesUsed bank (used + 1)
                                  sparedRows := m.sparedRows ++ [r] }).record .rowSpared (source t.val pos 0) []
      else
        ((s.setTier t.val m).setB (Reg.TIER_STATUS_SPARE_LOW t.val)).record .rowSpareExhausted (source t.val pos 0) [])

/-- The path that a lane group of a tower belongs to, and its number in that path (R15, R37). A tower's lane groups are numbered
here: 0 to 319 its memory channels, then 96 of the uplink up and 96 down, then the 16 by which its row bridge and its column
bridge each carry traffic out of it. [DESIGN CHOICE: log entry 8] -/
inductive GroupPath where
  | channel (horizon n : Nat)
  | up (n : Nat)
  | down (n : Nat)
  | rowBridge (n : Nat)
  | columnBridge (n : Nat)
deriving DecidableEq, Repr

/-- What the lane group with a number carries (R15, R37). [DESIGN CHOICE: log entry 8] -/
def groupPath (g : Nat) : GroupPath :=
  if g < 320 then .channel (g / 64) (g % 64)
  else if g < 416 then .up (g - 320)
  else if g < 512 then .down (g - 416)
  else if g < 528 then .rowBridge (g - 512)
  else .columnBridge (g - 528)

/-- LANE_HEALTH_CHECK (R251, R252): a test beat of a lane group; `bad` says that the lane fails the limits. A fifth lane fails the
group: a memory channel then serves CHAN_FAIL, and any other path goes on over its remaining groups. -/
def execLaneHealthCheck (t : Tower) (group : Fin 544) (lane : Fin 148) (bad : Bool) (s : State) : Result :=
  let m := s.tier t.val
  let g := Sparse.get {} m.lanes group.val
  .next (if !bad || g.failed.contains lane.val || g.takingOver.isSome || decide (5 ≤ g.failed.length) then s
    else if g.failed.length < 4 then
      s.setTier t.val { m with lanes := Sparse.put {} m.lanes group.val { g with takingOver := some lane.val } }
    else
      let m := { m with lanes := Sparse.put {} m.lanes group.val { g with failed := g.failed ++ [lane.val] } }
      let s := ((s.setTier t.val m).setB (Reg.TIER_STATUS_LANE_FAIL t.val)).record .laneGroupFailed
        (source t.val 6 0) []
      match groupPath group.val with
      | .channel .. =>
        (s.setTier t.val { m with failedChannels := m.failedChannels ++ [group.val] }).setB (Reg.TIER_STATUS_CHAN_FAIL t.val)
      | _ => s)

/-- LANE_TAKEOVER (R251). -/
def execLaneTakeover (t : Tower) (group : Fin 544) (s : State) : Result :=
  let m := s.tier t.val
  let g := Sparse.get {} m.lanes group.val
  .next (match g.takingOver with
    | some l => s.setTier t.val { m with
        lanes := Sparse.put {} m.lanes group.val { failed := g.failed ++ [l], takingOver := none } }
    | none => s)

/-- TELEMETRY_SNAPSHOT (R248, R485): into the near tier of tower 0, or brim 0's SRAM while tower 0 sleeps. -/
def execTelemetrySnapshot (s : State) : Result :=
  .next { s with telemetry := s.telemetry + 1, telemetryInBrim := (s.tower 0).sleep != .awake }

end Sys2Proof.Machine
end

