-- ==== Sys2Proof/Machine/Held.lean ====
section
/-! DEFINITION. Requests that a die in reset or a tower asleep holds (R22, R23, R25, R425): what serves them, the ends of what held
them, and how an engine's own accesses wait. -/

namespace Sys2Proof.Machine

/-! ### Serving what was held -/

/-- A held change of a sync object is made; one whose path has been lost meanwhile changes nothing (R30).
[DEDUCED: log entry 20] -/
def State.serveSync (s : State) (o : Orig) (kind : SyncKind) (obj v : Nat) : State :=
  match kind with
  | .add => s.addObjFrom o obj v
  | .set => s.setObjFrom o obj v
  | .release => State.setRelease State.setObj s obj v

/-- A held store of a control-core thread goes the way of its own path (R79, R225); any other held write is an access of its
originator's. [DEDUCED: log entry 20] -/
def State.serveWrite (s : State) (r : HeldReq) : Nat × State :=
  match r.sink, r.orig with
  | .store _ th, .core c =>
    s.coreStore c (some (match th with
      | 0 => .F
      | 1 => .B
      | _ => .U)) r.addr r.data
  | _, o => s.memWrite o r.addr r.data

/-- A host's write of a register in a crown or a cache die acts (R7, R114, R119, R194, R195, R222, R255): `own` says that it is a command
of its own, and else only the fields without one are written. -/
def State.hostRegWrite (s : State) (own : Bool) (off : Nat) (acc : RegAccess) : State :=
  if !own then s.writeReg off acc fun r => !r.own
  else match coreBlock off with
  | some (k, o) =>
    if o = 0x48 ∨ (s.step.isSome ∧ 0x80 ≤ o ∧ o < 0x580) then s.rejectWrite acc.port.val off
    else if 0x80 ≤ o ∧ o < 0x100 then s.installSlot k (if o < 0xC0 then .F else .B) (o % 0x40 / 4) (Slot.ofNat acc.value)
    else s.innerWrite off acc
  | none =>
    if off < 0x104000 ∨ (0x1000000 ≤ off ∧ (off - 0x1000000) % 0x400000 = 0x100) then s.writeReg off acc fun _ => true
    else s.innerWrite off acc

/-- A held write of a register is made; one whose path has been lost meanwhile changes nothing (R30), and one that another die holds
back now waits there. [DEDUCED: log entry 20] -/
def State.serveReg (s : State) (r : HeldReq) (own : Bool) (acc : RegAccess) : State :=
  let off := r.addr - 0x6000000000
  if s.regPathLost r.orig off then s
  else match s.regHolder r.orig off with
  | some h => s.holdReq { r with holder := h }
  | none => s.hostRegWrite own off acc

/-- Serve one request; one that another die holds back now waits there. [DEDUCED: log entry 20] -/
def State.serveHeld (s : State) (r : HeldReq) : State :=
  match r.sink with
  | .sync kind obj v => s.serveSync r.orig kind obj v
  | .hostReg own acc => s.serveReg r own acc
  | _ =>
    match s.rangeHolder r.orig r.addr (if r.data = [] then r.len else r.data.length) with
    | some h => s.holdReq { r with holder := h }
    | none =>
      if r.data ≠ [] then
        let (st, s) := s.serveWrite r
        s.finishAccess r.sink st []
      else
        let (st, bs, s) := s.memReadMet r.orig r.addr r.len
        let s := s.consumePoison r.orig (if st = stPathLost ∨ st = stAddrFault then [] else poisonWords r.addr bs)
        s.finishAccess r.sink st bs

/-- Serve, in arrival order, the requests that some holder kept. -/
def State.serve (s : State) (sel : Holder → Bool) : State :=
  let mine := s.held.filter fun r => sel r.holder
  mine.foldl State.serveHeld { s with held := s.held.filter fun r => !sel r.holder }

/-- Does a request's path cross a lost domain? -/
def State.heldLost (s : State) (r : HeldReq) : Bool :=
  match r.sink with
  | .sync _ obj _ => s.crownPathLost r.orig (bits obj 16 15)
  | .hostReg .. => s.regPathLost r.orig (r.addr - 0x6000000000)
  | _ => s.rangePathLost r.orig r.addr r.len

/-! ### The ends of what holds requests -/

/-- A horizon's logic leaves reset: the refreshes that fell due are issued, then the held requests are served (R22). -/
def State.endHorizonReset (s : State) (t h : Nat) : State :=
  let x := s.tower t
  let due := x.refreshDue.filter fun e => e.1 / 64 == h
  let s := s.setTower t { x with
    horizonReset := x.horizonReset.filter fun k => k != h
    refreshDue := x.refreshDue.filter fun e => e.1 / 64 != h }
  let m := s.tier t
  let done := due.foldl (fun d e => Sparse.put 0 d e.1 (Sparse.get 0 d e.1 + e.2)) m.refreshes
  (s.setTier t { m with refreshes := done }).serve (· == .horizon t h)

/-- A cache die leaves reset (R23). -/
def State.endCacheReset (s : State) (t : Nat) : State :=
  (s.setTower t { s.tower t with cacheReset := false }).serve (· == .cacheDie t)

/-- What the low-power states S and Y reach of a tower: crown window n and the TIER_ and UPD_ blocks (R480). -/
def inTower (t off : Nat) : Bool :=
  (decide (0x1000000 + t * 0x400000 ≤ off) && decide (off < 0x1000000 + (t + 1) * 0x400000)) ||
    (decide (0x100000 + t * 0x1000 ≤ off) && decide (off < 0x100000 + (t + 1) * 0x1000)) ||
    (decide (0x400000 + t * 0x1000 ≤ off) && decide (off < 0x400000 + (t + 1) * 0x1000))

/-- The near tier of a tower and the local SRAM of its crown lose their contents, and its directory is cleared (R254,
R480). [DEDUCED: log entry 20] -/
def State.loseTower (s : State) (t : Nat) : State :=
  ((s.clearRange (nearKey t 0) 0x30000000).clearDirectory t).gateCrown t

/-- What the engines of a tower keep behind the registers of its crown window and its UPD_ block: the slot coordinator and the counter
banks (R480). -/
def State.clearEngines (s : State) (t : Nat) : State := (s.setCrown t {}).setUpd t {}

/-- The sync objects of a crown (R369) return to 0. [DEDUCED: log entry 26] -/
def State.clearObjects (s : State) (n : Nat) : State := { s with sync := s.sync.filter fun e => e.1 / 32768 != n }

/-- Does a request wait for a tower to leave sleep? -/
def State.sleepHeld (s : State) (t : Nat) : Bool := s.held.any fun r => r.holder == .sleep t

/-- The drain of a tower on its way to sleep ends: its through domains are switched off, and the tower sleeps, until the first
access, which may be waiting already (R25, R480, R484). [DEDUCED: log entry 20] -/
def State.drainEnd (s : State) (t : Nat) : State :=
  let s := (s.setTower t { s.tower t with sleep := .asleep, trained := false }).loseTower t
  let s := ((s.clearEngines t).clearObjects t).resetFields .S fun off _ => inTower t off
  let s := s.record .lowPowerEntry (source t 0 0) []
  if s.sleepHeld t then s.wake t else s

/-- The tower admits transfers again. -/
def State.trained (s : State) (t : Nat) : State :=
  let x := s.tower t
  if x.sleep = .leaving then
    ((s.setTower t { x with sleep := .awake, trained := true }).record .lowPowerExit (source t 0 0) []).serve (· == .sleep t)
  else if x.sleep = .awake ∧ !x.trained then (s.setTower t { x with trained := true }).serve (· == .sleep t)
  else s

/-- A tower's sleep ends: on its way to sleep it stays awake, and asleep it starts to leave sleep (R484).
[DEDUCED: log entry 21] -/
def State.endSleep (s : State) (t : Nat) : State :=
  let x := s.tower t
  if x.sleep = .entering then (s.setTower t { x with sleep := .awake }).serve (· == .sleep t) else s.wake t

/-! ### Accesses of engines within one command -/

/-- What holds a request comes to its end: a reset ends, or a tower goes to sleep, if it is on its way there, and wakes and is
trained. -/
def State.endHolder (s : State) (h : Holder) : State :=
  match h with
  | .horizon t h => s.endHorizonReset t h
  | .cacheDie t => s.endCacheReset t
  | .sleep t =>
    let s := if (s.tower t).sleep = .entering then s.drainEnd t else s
    (s.wake t).trained t

/-- An engine waits within its command until nothing holds its access: the command goes on once what holds it has ended (R22, R23,
R25). Twenty-eight holders there are at most: five horizons, a cache die and a sleep to a tower. [DEDUCED: log entry 20] -/
def State.waitFor (holder : State → Option Holder) : Nat → State → State
  | 0, s => s
  | n + 1, s => match holder s with
    | none => s
    | some h => State.waitFor holder n (s.endHolder h)

/-- An engine's access to some bytes waits until nothing holds it. [DEDUCED: log entry 20] -/
def State.await (s : State) (o : Orig) (a n : Nat) : State := State.waitFor (fun s => s.rangeHolder o a n) 28 s

/-- A page move waits until nothing holds it. [DEDUCED: log entry 20] -/
def State.awaitMove (s : State) (t ta : Nat) : State := State.waitFor (fun s => s.moveHolder t ta) 28 s

/-- A read by an engine that waits for what holds it. [DEDUCED: log entry 20] -/
def State.readAwait (s : State) (o : Orig) (a n : Nat) : Nat × List DataByte × List Byte × State := (s.await o a n).readFree o a n

/-- A write by an engine that waits for what holds it. [DEDUCED: log entry 20] -/
def State.writeAwait (s : State) (o : Orig) (a : Nat) (bs : List DataByte) : Nat × State := (s.await o a bs.length).memWrite o a bs

/-! ### Accesses of a port -/

/-- What holds the first posted write of a port that is held. [DEDUCED: log entry 23] -/
def State.postedHolder (s : State) (p : Nat) : Option Holder := (s.held.find? fun r => r.posted p).map (·.holder)

/-- An access of a port takes effect after every posted write that the port received before it: where one is held, the access goes on
once what holds that one has ended (R424). [DEDUCED: log entry 23] -/
def State.portTurn (s : State) (p : Nat) : State := State.waitFor (fun s => s.postedHolder p) 28 s

/-- A host's write of a register: where BAR0 serves it (R482) and its path is not lost (R30), it acts, unless a die in reset or a tower
asleep holds it back (R425). [DEDUCED: log entry 20] -/
def State.hostReg (s : State) (own : Bool) (off : Nat) (acc : RegAccess) (act : State → State) : State :=
  let s := s.portTurn acc.port.val
  if !s.bar0Open off || s.regPathLost (.port acc.port) off then s
  else match s.regHolder (.port acc.port) off with
  | some h => s.holdReq ⟨h, .port acc.port, .hostReg own acc, 0x6000000000 + off, 0, []⟩
  | none => act s

/-! ### Pages -/

/-- Write back every dirty resident page of a tower at once, and mark every page ABSENT (R254, R355). A move that a reset holds waits
for it. -/
def State.flushPages (s : State) (t : Nat) : State :=
  let mine := s.pages.filter fun e => (s.pageHome e.1).1 == t && e.2.state.inFrame
  mine.foldl (fun s e => (if e.2.dirty then s.awaitMove t (s.pageHome e.1).2 else s).finishLeave e.1) s

end Sys2Proof.Machine
end

