-- ==== Sys2Proof/Machine/Deliver.lean ====
section
/-! DEFINITION. What an owner sends after a sweep: deliveries (R340, R341) and mirrors (R343, R344). -/

namespace Sys2Proof.Machine

/-- The PARAM extension (R323). -/
def paramExt (entry flags step offset region npiece : Nat) : List Byte :=
  leBytes 3 entry ++ leBytes 1 flags ++ leBytes 4 step ++ leBytes 8 offset ++ leBytes 1 region ++ leBytes 3 0 ++
    leBytes 4 npiece

/-- The way down to a child: the hop of its tree reversed, unless one of its two ends is not where its logical coordinate says. -/
def State.wayDown (s : State) (g : Group) (owner c : Nat) : Option (Nat × Bool) :=
  (s.nextHop g c owner).map fun (d, n) => (d, d < 3 && !n)

/-- An originator sends a PARAM packet to each child of this node in an owner's tree, on the child's own link of the tree, reversed. Its
flow number makes the router choose the index that R318 gives the chunk (R300). [DEDUCED: log entry 14] -/
def State.sendDown (s : State) (o : Orig) (g : Group) (owner src echunk kind : Nat) (poison : Bool) (ext data : List Byte) : State :=
  let k := echunk % 65536 ^^^ owner
  (s.childrenOf g s.logSelf owner).foldl (fun s c =>
    let way := s.wayDown g owner c
    let b := match way with
      | some (d, n) => s.hopBrim (treeIdx echunk owner) d n
      | none => 0
    let straight := !s.isTaken c && !s.isTaken s.logSelf
    if !s.sendsAt o b then s
    else s.injectPkt b false false (Pkt.make c src 6 kind poison (k ^^^ src ^^^ s.physOf c) 0 [] ext data)
      (if straight then way else none)) s

/-- Read bytes to send them on, for an entry of a tower: the bytes, and the state in which the poison met is consumed; `met` says
that the command has met some before (R239). -/
def State.readToSend (s : State) (e : PlanEntry) (a n : Nat) (met : Bool) : List DataByte × Bool × State :=
  let (_, bs, s) := (s.await (updateOrig e.tower) a n).memReadMet (updateOrig e.tower) a n
  let ws := poisonWords a bs
  (bs, met || ws != [], s.consumePoison (updateOrig e.tower) ws met)

/-- The bytes of a delivery piece of an entry. -/
def State.pieceBytes (s : State) (e : PlanEntry) (q : Nat) (met : Bool) : List DataByte × Bool × State :=
  s.readToSend e (e.master + 4096 * q) (2 * min 2048 (e.params - 2048 * q)) met

/-- An originator sends a PARAM packet of a burst: its packets have one flow number, so they take one way and arrive in order (R288,
R300, R340). [DESIGN CHOICE: log entry 14] -/
def State.sendBurst (s : State) (o : Orig) (b dst kind flow : Nat) (poison : Bool) (ext data : List Byte) : State :=
  if s.sendsAt o b then s.injectPkt b false false (Pkt.make dst s.physSelf 6 kind poison flow 0 [] ext data) else s

/-- Resend every piece of an entry to one replica, and DELIVER_END after them (R341). [DEDUCED: log entry 14] -/
def State.resendEntry (s : State) (i : Nat) (e : PlanEntry) (replica : Nat) : State :=
  let step := (s.entry i).sweepT
  let o := updateOrig e.tower
  let (w, s) := s.drawWord
  let flow := w % 65536
  let (s, _) := (List.range e.pieces).foldl (fun (s, met) q =>
    let (bs, met, s) := s.pieceBytes e q met
    (s.sendBurst o e.tower replica 0x43 flow (bs.any (·.isNone)) (paramExt i 0 step (4096 * q) 0 0) (bs.map (·.getD 0)), met))
    (s, false)
  (s.sendBurst o e.tower replica 0x42 flow false (paramExt i 0 step 0 0 e.pieces) []).setB Reg.RED_STATUS_RESEND

/-- Deliver an owner entry's master (R340): the pieces in which a master changed, or all of them on the first delivery
after shaping; and all of them to each replica that diverged (R278). [DEDUCED: log entry 14] -/
def State.deliverEntry (s : State) (i : Nat) (e : PlanEntry) : State :=
  let x := s.entry i
  match s.entryHome i with
  | none => s
  | some (gi, _) =>
    let g := s.group gi
    let owner := s.logSelf
    let o := updateOrig e.tower
    let full := !x.delivered
    let qs := (List.range e.pieces).filter fun q => full || x.changed.contains q
    let (s, _) := qs.foldl (fun (s, met) q =>
      let (bs, met, s) := s.pieceBytes e q met
      (s.sendDown o g owner s.physSelf (q / 4) 0x41 (bs.any (·.isNone)) (paramExt i full.toNat x.sweepT (4096 * q) 0 0)
        (bs.map (·.getD 0)), met)) (s, false)
    let s := s.sendDown o g owner s.physSelf (e.chunks - 1) 0x42 false (paramExt i full.toNat x.sweepT 0 0 qs.length) []
    let s := x.diverged.foldl (fun s r => s.resendEntry i e r) s
    s.setEntry i { s.entry i with delivered := true, diverged := [] }

/-! ### Mirrors -/

/-- The mirror target of a logical coordinate (R343). [DEDUCED: log entry 14] -/
def State.mirrorTargetOf (s : State) (c : Nat) : Nat :=
  if s.rdB Reg.HB_PLANE_TWIN then mkCoord (cx c) (cy c) (cz c) (1 - cplane c)
  else setDim c 0 (if s.dimSize 0 = 0 then cx c else (cx c + 1) % s.dimSize 0)

/-- Pieces of one region of an entry: offset and length. -/
def regionPieces (n : Nat) : List (Nat × Nat) := (List.range ((n + 4095) / 4096)).map fun q => (4096 * q, min 4096 (n - 4096 * q))

/-- The pieces of an entry's state: region, its base, offset and length. -/
def PlanEntry.statePieces (e : PlanEntry) : List (Nat × Nat × Nat × Nat) :=
  e.regions.flatMap fun (r, base, n) => (regionPieces n).map fun (off, len) => (r, base, off, len)

/-- Is an earlier mirror still being sent? -/
def State.mirrorSending (s : State) : Bool :=
  s.fabric.inject.any fun e => e.2.any fun p => vcClass p.pkt.vc == 3 && (p.pkt.kind == 0x44 || p.pkt.kind == 0x45)

/-- Send the mirror of every owner entry, and MIRROR_COMMIT after it (R344). [DEDUCED: log entry 14] -/
def State.sendMirror (s : State) : State :=
  let own := s.planEntries.filter fun e => e.2.owner
  if own = [] ∨ !s.rdB Reg.RED_CFG_MIRROR_EN ∨ s.mirrorSending then s
  else
    let target := s.mirrorTargetOf s.logSelf
    let t := (own.map fun e => (s.entry e.1).sweepT).foldl max 0
    let (w, s) := s.drawWord
    let flow := w % 65536
    let ps := own.flatMap fun (i, e) => e.statePieces.map fun p => (i, e, p)
    let (s, _) := ps.foldl (fun (s, met) (i, e, r, base, off, len) =>
      let (bs, met, s) := s.readToSend e (base + off) len met
      (s.sendBurst (updateOrig e.tower) 0 target 0x44 flow (bs.any (·.isNone)) (paramExt i 0 (s.entry i).sweepT off r 0) (bs.map (·.getD 0)), met))
      (s, false)
    let s := s.sendBurst .mgmt 0 target 0x45 flow false (paramExt 0 0 t 0 0 ps.length) []
    s.modFabric fun f => { f with mirror := { f.mirror with sending := f.mirror.sending ++ [t] } }

end Sys2Proof.Machine
end

