-- ==== Sys2Proof/Machine/Update.lean ====
section
/-! DEFINITION. The update units (09): the sweep (R260 to R265), gradient preparation and the rules (R266 to R272), the
pre-passes (R269, R270), working copies (R273 to R276), digests (R277) and REGEN (R280). -/

namespace Sys2Proof.Machine

/-- SOURCE of a tower's update unit (R511). -/
def updSource (t : Nat) : Nat := source t 6 0

/-! ### What a unit shows -/

/-- The entries of a tower. -/
def State.towerEntries (s : State) (t : Nat) : List (Nat × PlanEntry) := s.planEntries.filter fun e => e.2.tower == t

/-- PHASE of a tower (R280); the sweep ends when every entry is complete (R265). [DEDUCED: log entry 13] -/
def State.updPhase (s : State) (t : Nat) : State :=
  let es := s.towerEntries t
  let u := s.updUnit t
  let open_ := es.filter fun e => !(s.entry e.1).complete
  let u := { u with sweeping := u.sweeping && !open_.isEmpty }
  let s := s.setUpd t u
  let phase :=
    if u.sweeping then
      (if open_.any fun e => e.2.owner && decide ((s.entry e.1).committed.length < e.2.chunks) then 2 else 3)
    else if es.any fun e => (s.entry e.1).regen then 3
    else if es.any fun e => e.2.owner && !(s.entry e.1).landed.isEmpty then 1
    else 0
  s.wr (Reg.UPD_STATUS_PHASE t) phase

/-- SWEEP_AT is signalled (R260): every tower's sweep starts; the words of a state record that do not come are free values (R239).
[DESIGN CHOICE: log entry 12] -/
def State.startSweep (s : State) (step lrf : Nat) : State :=
  let s := s.planEntries.foldl (fun s (i, e) =>
    let x := s.entry i
    if e.owner then
      let (_, _, r, s) := s.readAwait (updateOrig e.tower) e.srec 12
      let t := (fieldNat r 0 4 + 1) % 2 ^ 32
      let p1 := fMul (ofF32 (fieldNat r 4 4)) (ofF32 e.beta1)
      let p2 := fMul (ofF32 (fieldNat r 8 4)) (ofF32 e.beta2)
      let bs := leBytes 4 t ++ leBytes 4 (toF32 p1) ++ leBytes 4 (toF32 p2)
      let (_, s) := s.writeAwait (updateOrig e.tower) e.srec (bs.map some)
      s.setEntry i { x with
        measured := [], prepared := !(e.lamb || e.factored), taken := [], committed := [], changed := [], passed := []
        c1 := toF32 (fSub one32 p1), c2 := toF32 (fSub one32 p2), lr := toF32 (fMul (ofF32 e.lr) (ofF32 lrf))
        copying := false, complete := false, regen := false, sweepT := t }
    else s) s
  [0, 1, 2, 3].foldl (fun s t =>
    let chunks := ((s.towerEntries t).map fun e => if e.2.owner then e.2.chunks else 0).sum
    let s := ((s.wr (Reg.UPD_STATUS_STEP t) step).wr (Reg.UPD_PROGRESS_TOTAL t) chunks).wr (Reg.UPD_PROGRESS_DONE t) 0
    (s.setUpd t { s.updUnit t with sweeping := true }).updPhase t) s

/-! ### Readiness (R261) -/

/-- The byte ranges of the state that a chunk touches: its part of the master, of the moments and of the statistics. -/
def PlanEntry.chunkState (e : PlanEntry) (c : Nat) : List (Nat × Nat) :=
  let n := e.chunkLen c
  let blocks := (n + 31) / 32
  let i0 := 8192 * c
  let i1 := i0 + n - 1
  let (n0, n1) := (i0 / max 1 e.ncol, i1 / max 1 e.ncol)
  let (k0, k1) := (i0 % max 1 e.ncol, i1 % max 1 e.ncol)
  let cols : List (Nat × Nat) :=
    if n0 = n1 then [(k0, k1 + 1 - k0)] else if n0 + 1 = n1 then [(k0, e.ncol - k0), (0, k1 + 1)] else [(0, e.ncol)]
  [(e.master + 2 * i0, 2 * n)] ++
    (if e.hasM1 then [(e.m1 + i0, 32 * blocks), (e.m1s + i0 / 32, blocks)] else []) ++
    (if e.hasM2 then [(e.m2 + i0, 32 * blocks), (e.m2s + i0 / 32, blocks)] else []) ++
    (if e.factored then (e.m2 + 4 * n0, 4 * (n1 + 1 - n0)) :: cols.map fun (k, m) => (e.m2s + 4 * k, 4 * m) else [])

/-- The ranges a chunk holds until it commits: its state, and its entry's state record. [DEDUCED: log entry 13] -/
def PlanEntry.heldState (e : PlanEntry) (c : Nat) : List (Nat × Nat) := (e.srec, 64) :: e.chunkState c

/-- The pages a range touches. -/
def pagesOf (r : Nat × Nat) : List Nat :=
  if r.2 = 0 then [] else (List.range ((r.1 + r.2 - 1) / 65536 + 1 - r.1 / 65536)).map (r.1 / 65536 + ·)

/-- Every STATE page the chunk touches is RESIDENT; state outside every STATE region is always staged. -/
def State.staged (s : State) (e : PlanEntry) (c : Nat) : Bool :=
  ((e.chunkState c).flatMap pagesOf).all fun pg => match s.regionOf pg with
    | some r => r.cls != 4 || (s.page pg).state == .resident
    | none => true

/-- Ready but for the staging of its state, and not yet taken. -/
def State.landedFor (s : State) (i c : Nat) : Bool :=
  let x := s.entry i
  x.prepared && (x.cnt c).isSome && !x.taken.contains c

/-- The owner chunks of a tower in plan order. -/
def State.planChunks (s : State) (t : Nat) : List (Nat × PlanEntry × Nat) :=
  ((s.towerEntries t).filter fun e => e.2.owner).flatMap fun (i, e) => (List.range e.chunks).map fun c => (i, e, c)

/-! ### Reading for the unit -/

/-- What a unit has read: the state, the poisoned words it met, and whether a die in reset holds a read back (R22, R23), so that the
command waits. `bad` are the words (address ÷ 16) that the path spoils (R237). -/
structure UReader where
  s : State
  words : List Nat := []
  held : Bool := false
  bad : List Nat := []

/-- A unit begins to read, with the words whose bits changed (R237). -/
def State.unitReads (s : State) (hits : List EccHit) : UReader := { s := s.eccHits hits, bad := s.pathBad hits }

/-- A read by an update unit, which notes the poison it meets (R239, R267). [DEDUCED: log entry 13] -/
def UReader.read (r : UReader) (t a n : Nat) : List DataByte × UReader :=
  if r.held || (r.s.rangeHolder (updateOrig t) a n).isSome then (List.replicate n none, { r with held := true })
  else
    let (_, bs, s) := r.s.memRead (updateOrig t) a n
    let bs := spoil r.bad a bs
    (bs, { r with s, words := r.words ++ poisonWords a bs })

/-- `n` numbers of some bytes each; none is poisoned. -/
def numbersOf (w n : Nat) (bs : List DataByte) : List (Option Nat) :=
  (List.range n).map fun j =>
    let b := (bs.drop (w * j)).take w
    if b.any (·.isNone) then none else some (leNat (b.map (·.getD 0)))

/-- A block of 32 parameters as it is read: codes of the gradient, the master, the moments and the statistics. -/
structure UBlock where
  g : List (Option Nat) := []
  w : List (Option Nat) := []
  m : List (Option Num) := []
  v : List (Option Num) := []
  r : List (Option Nat) := []
  c : List (Option Nat) := []
  bad : Bool := false

/-- The decoded moments of a block. -/
def momentVals (f : Nat) (elems : List (Option Nat)) (scale : Option Nat) : List (Option Num) :=
  elems.map fun e => match e, scale with
    | some c, some sc => some (decodeMx ((Fmt.ofCode f).getD .mxfp8e4) c sc)
    | _, _ => none

/-- Read the gradients of a block of a chunk (R259). -/
def UReader.grads (r : UReader) (e : PlanEntry) (b n : Nat) : List (Option Nat) × UReader :=
  let (bs, r) := r.read e.tower (e.gbuf + 32768 * (b / 256) + 128 * (b % 256)) (4 * n)
  (numbersOf 4 n bs, r)

def UReader.moment (r : UReader) (e : PlanEntry) (a sa f b : Nat) : List (Option Num) × UReader :=
  let (bs, r) := r.read e.tower (a + 32 * b) 32
  let (sc, r) := r.read e.tower (sa + b) 1
  (momentVals f (numbersOf 1 32 bs) ((numbersOf 1 1 sc).getD 0 none), r)

/-- One statistic for each parameter of a block. -/
def UReader.stats (r : UReader) (e : PlanEntry) (base : Nat) (at_ : List Nat) : List (Option Nat) × UReader :=
  at_.foldl (fun (acc, r) k =>
    let (bs, r) := UReader.read r e.tower (base + 4 * k) 4
    (acc ++ [(numbersOf 4 1 bs).getD 0 none], r)) ([], r)

/-- Read block `b` of an entry, `n` parameters long: everything a block reads (R267). -/
def UReader.block (r : UReader) (e : PlanEntry) (b n : Nat) : UBlock × UReader :=
  let (g, r) := r.grads e b n
  let (bs, r) := r.read e.tower (e.master + 64 * b) (2 * n)
  let w := numbersOf 2 n bs
  let (m, r) := if e.hasM1 then r.moment e e.m1 e.m1s e.m1fmt b else ([], r)
  let (v, r) := if e.hasM2 then r.moment e e.m2 e.m2s e.m2fmt b else ([], r)
  let is := (List.range n).map (32 * b + ·)
  let (rs, r) := if e.factored then r.stats e e.m2 (is.map (· / max 1 e.ncol)) else ([], r)
  let (cs, r) := if e.factored then r.stats e e.m2s (is.map (· % max 1 e.ncol)) else ([], r)
  let bad := g.any (·.isNone) || w.any (·.isNone) || m.any (·.isNone) || v.any (·.isNone) || rs.any (·.isNone) ||
    cs.any (·.isNone)
  (⟨g, w, m, v, rs, cs, bad⟩, r)

/-! ### Gradient preparation (R266) -/

/-- Is the chunk skipped whole? -/
def PlanEntry.skips (e : PlanEntry) (cnt : Nat) : Bool :=
  cnt == 0 || decide (e.contrib < cnt) || (decide (cnt < e.contrib) && e.short == 2)

/-- One prepared gradient. -/
def PlanEntry.prepare (e : PlanEntry) (cnt raw : Nat) : Num :=
  let g := fMul (ofF32 e.gscale) (ofF32 raw)
  if cnt < e.contrib ∧ e.short = 1 then fMul g (fDiv (Num.ofInt e.contrib) (Num.ofInt cnt)) else g

def Num.finite : Num → Bool
  | .fin .. => true
  | _ => false

/-! ### The rules (R268) -/

/-- The fields and per-sweep values a rule uses. -/
structure RuleEnv where
  b1 : Num
  b2 : Num
  eps : Num
  wd : Num
  bias : Bool
  c1 : Num
  c2 : Num
  lr : Num
  ratio : Num
  rbar : Num
  beta1Zero : Bool

def ruleEnv (e : PlanEntry) (x : EntrySt) : RuleEnv :=
  ⟨ofF32 e.beta1, ofF32 e.beta2, ofF32 e.eps, ofF32 e.wd, e.bias, ofF32 x.c1, ofF32 x.c2, ofF32 x.lr, ofF32 x.ratio,
    ofF32 x.rbar, e.beta1 % 2 ^ 31 == 0⟩

/-- b × m + (1 − b) × d. -/
def blend (b m d : Num) : Num := fAdd (fMul b m) (fMul (fSub one32 b) d)

def RuleEnv.moments (r : RuleEnv) (m v d : Num) : Num × Num := (blend r.b1 m d, blend r.b2 v (fMul d d))

def RuleEnv.adamU (r : RuleEnv) (m v : Num) : Num :=
  let (mh, vh) := if r.bias then (fDiv m r.c1, fDiv v r.c2) else (m, v)
  fDiv mh (fAdd (fSqrt vh) r.eps)

/-- w − lr × x. -/
def RuleEnv.stepBy (r : RuleEnv) (w x : Num) : Num := fSub w (fMul r.lr x)

/-- The new master and moments of one parameter: gradient, master, moments, row and column statistics. -/
def RuleEnv.apply (r : RuleEnv) (rule : Nat) (g w m v rn ck : Num) : Num × Num × Num :=
  let decay := fMul r.wd w
  match rule with
  | 0 => (r.stepBy w (fAdd g decay), m, v)
  | 1 =>
    let m := fAdd (fMul r.b1 m) (fAdd g decay)
    (r.stepBy w m, m, v)
  | 2 =>
    let d := fAdd g decay
    let m := fAdd (fMul r.b1 m) d
    (r.stepBy w (fAdd d (fMul r.b1 m)), m, v)
  | 3 =>
    let (m, v) := r.moments m v (fAdd g decay)
    (r.stepBy w (r.adamU m v), m, v)
  | 4 =>
    let (m, v) := r.moments m v g
    (r.stepBy w (fAdd (r.adamU m v) decay), m, v)
  | 5 =>
    let (m, v) := r.moments m v g
    (fSub w (fMul (fMul r.lr r.ratio) (fAdd (r.adamU m v) decay)), m, v)
  | 6 =>
    let c := blend r.b1 m g
    (r.stepBy w (fAdd (fSign c) decay), blend r.b2 m g, v)
  | _ =>
    let u := fDiv g (fSqrt (fDiv (fMul rn ck) r.rbar))
    let (m, u) := if r.beta1Zero then (m, u) else (blend r.b1 m u, blend r.b1 m u)
    (r.stepBy w (fAdd u decay), m, v)

/-! ### Conversions of the unit -/

/-- A draw of R70 for the element of index `i`. -/
def updRnd (ctl seed stream step index i : Nat) : Rnd :=
  if (Ctl.ofNat ctl).pounce then .pounce (pounceBits seed stream step ((index + i) % 2 ^ 40)) else .even

/-- Count conversions in the unit's bank (R279): what each counts, and one in TOT for each. -/
def State.countUpd (s : State) (t : Nat) (cs : List (Nat × Nat × Option CountKind)) : State :=
  let u := s.updUnit t
  let counts := cs.foldl (fun b (f, cls, k) => match k with
    | some k => bankAdd b ⟨f, cls, k⟩
    | none => b) u.counts
  let totals := cs.foldl (fun b (f, cls, _) => if f ≤ 0x11 then
      Sparse.put 0 b (f * 8 + cls) (satAdd 48 (Sparse.get 0 b (f * 8 + cls)) 1) else b) u.totals
  s.setUpd t { u with counts, totals }

/-- Encode a block of moments (R272): the values of its real elements, which of them are not counted. -/
def momentBlock (f ctl : Nat) (rnd : Nat → Rnd) (vals : List Num) (skip : List Bool) :
    List Byte × Byte × List (Nat × Nat × Option CountKind) :=
  let n := vals.length
  let fmt := (Fmt.ofCode f).getD .mxfp8e4
  let (sc, cs) := convertBlock fmt rnd (vals ++ List.replicate (32 - n) (.fin false 0 0))
  (cs.map fun c => BitVec.ofNat 8 c.1, BitVec.ofNat 8 sc,
    ((cs.take n).zip skip).filterMap fun (c, sk) => if sk then none else some (f, (Ctl.ofNat ctl).cls, c.2))

/-! ### One chunk (R262, R266 to R272) -/

/-- What applying a rule to a chunk gives. -/
structure ChunkOut where
  stores : List (Nat × List DataByte) := []
  changed : List Nat := []
  counts : List (Nat × Nat × Option CountKind) := []
  nonfinite : Nat := 0
  poisonBlocks : Nat := 0

/-- One block of a chunk. -/
def blockOut (e : PlanEntry) (x : EntrySt) (seed step cnt b : Nat) (k : UBlock) (o : ChunkOut) : ChunkOut :=
  if k.bad then { o with poisonBlocks := o.poisonBlocks + 1 }
  else
    let env := ruleEnv e x
    let at0 (xs : List (Option Num)) (j : Nat) : Num := (xs.getD j none).getD (.fin false 0 0)
    let num (xs : List (Option Nat)) (j : Nat) : Num := ofF32 ((xs.getD j none).getD 0)
    let js := List.range k.g.length
    let gs := js.map fun j => e.prepare cnt ((k.g.getD j none).getD 0)
    let res := js.map fun j =>
      let g := gs.getD j .nan
      let m := at0 k.m j
      let v := at0 k.v j
      let old := (k.w.getD j none).getD 0
      if !g.finite && e.nonfinite then (old, m, v, true, none)
      else
        let (w, m, v) := env.apply e.rule g (decodeElem .bf16 old) m v (num k.r j) (num k.c j)
        let (code, n) := convert .bf16 (Ctl.ofNat e.ctlw) (updRnd e.ctlw seed e.streamW step e.index (32 * b + j)) w
        (code, m, v, false, n)
    let skip := res.map fun (_, _, _, sk, _) => sk
    let wk := res.filterMap fun (_, _, _, sk, n) => if sk then none else some (Fmt.bf16.code, (Ctl.ofNat e.ctlw).cls, n)
    let wst := [(e.master + 64 * b, (res.flatMap fun (c, _) => leBytes 2 c).map some)]
    let moves := js.any fun j => (res.getD j (0, .nan, .nan, true, none)).1 != (k.w.getD j none).getD 0
    let part (has : Bool) (f stream a sa : Nat) (vals : List Num) :
        List (Nat × List DataByte) × List (Nat × Nat × Option CountKind) :=
      if has then
        let (es, sc, ks) := momentBlock f e.ctlm (fun j => updRnd e.ctlm seed stream step e.index (32 * b + j)) vals skip
        ([(a + 32 * b, es.map some), (sa + b, [some sc])], ks)
      else ([], [])
    let (ms, mk) := part e.hasM1 e.m1fmt e.stream1 e.m1 e.m1s (res.map fun (_, m, _) => m)
    let (vs, vk) := part e.hasM2 e.m2fmt e.stream2 e.m2 e.m2s (res.map fun (_, _, v, _) => v)
    { stores := o.stores ++ wst ++ ms ++ vs
      changed := if moves then o.changed ++ [b / 64] else o.changed
      counts := o.counts ++ wk ++ mk ++ vk
      nonfinite := o.nonfinite + (gs.filter fun g => !g.finite).length
      poisonBlocks := o.poisonBlocks }

/-- Every block of a chunk. -/
def UReader.chunkOut (u : UReader) (i : Nat) (e : PlanEntry) (c cnt : Nat) : ChunkOut × UReader :=
  let s := u.s
  let x := s.entry i
  let step := s.rd (Reg.UPD_STATUS_STEP e.tower)
  let seed := s.rd Reg.SHP_SEED_SEED
  let n := e.chunkLen c
  (List.range ((n + 31) / 32)).foldl (fun (o, r) j =>
    let b := 256 * c + j
    let (k, r) := UReader.block r e b (min 32 (n - 32 * j))
    (blockOut e x seed step cnt b k o, r)) ({}, u)

/-- Poison met by a unit is consumed: one event for the command, the counts, and the running step's flag (R239, R365).
[DEDUCED: log entry 13] -/
def UReader.done (r : UReader) (t : Nat) : State := r.s.consumePoison (updateOrig t) r.words

/-- May a sweep lane take a chunk (R262)? It issues the reads of one chunk at a time, and its last chunk may still be storing what it
computed. [DEDUCED: log entry 13] -/
def UpdSt.laneFree (u : UpdSt) (lane : Nat) : Bool := decide ((u.runs.filter (·.lane == lane)).length < 2)

/-- What the contribution count of a chunk records (R266). -/
def State.countShort (s : State) (t : Nat) (e : PlanEntry) (cnt : Nat) : State :=
  let s := if cnt = 0 ∨ e.contrib < cnt then s.record .contributionCount (updSource t) [] else s
  let s := if e.contrib < cnt then (s.incStop (Reg.UPD_GRAD_OVERCOUNT t)).setB (Reg.UPD_STATUS_OVERCOUNT t) else s
  if 0 < cnt ∧ cnt < e.contrib then (s.incStop (Reg.UPD_GRAD_SHORT t)).setB (Reg.UPD_STATUS_SHORT t) else s

/-- What applying a rule to a chunk counts and records (R267, R279). -/
def State.countChunk (s : State) (t : Nat) (o : ChunkOut) : State :=
  let s := s.countUpd t o.counts
  let s := if o.nonfinite = 0 then s else
    (s.incStop (Reg.UPD_GRAD_NONFINITE t) o.nonfinite).setB (Reg.UPD_STATUS_NONFINITE t)
  if o.poisonBlocks = 0 then s else
    ((s.incStop (Reg.UPD_GRAD_POISON_BLK t) o.poisonBlocks).setB (Reg.UPD_STATUS_POISON t)).record .updatePoison (updSource t) []

/-- Ready chunks that the unit passes over for their unstaged state: each is counted once. -/
def State.passOver (s : State) (t : Nat) (cs : List (Nat × PlanEntry × Nat)) : State :=
  let cs := cs.filter fun (j, _, d) => !(s.entry j).passed.contains d
  (cs.foldl (fun s (j, _, d) => s.setEntry j { s.entry j with passed := (s.entry j).passed ++ [d] }) s).incWrap
    (Reg.UPD_STALL_PASSED t) cs.length

/-- A lane has taken a chunk. -/
def State.laneTakes (s : State) (t : Nat) (r : ChunkRun) : State :=
  let x := s.entry r.entry
  let s := s.setEntry r.entry { x with taken := x.taken ++ [r.chunk] }
  s.setUpd t { s.updUnit t with runs := (s.updUnit t).runs ++ [r] }

/-- A free lane finds no ready chunk though the sweep has chunks that no lane has taken: one lane-cycle. [DESIGN CHOICE: log entry 13] -/
def State.laneStalls (s : State) (t : Nat) : State :=
  if (s.planChunks t).any fun (i, _, c) => !(s.entry i).taken.contains c then s.incWrap (Reg.UPD_STALL_IDLE t) else s

/-- CHUNK_TAKEN (R261, R262, R266 to R268): a free lane of a tower takes the earliest ready chunk, with the words it reads whose bits
changed. [DEDUCED: log entry 13] -/
def execChunkTaken (lane : LaneId) (hits : List EccHit) (s : State) : Result :=
  let ⟨t, lane⟩ := lane
  let cs := (s.planChunks t.val).filter fun (i, _, c) => s.landedFor i c
  .next (if !(s.updUnit t.val).sweeping || !(s.updUnit t.val).laneFree lane.val then s
    else match cs.find? fun (_, e, c) => s.staged e c with
    | none => s.laneStalls t.val
    | some (i, e, c) =>
      let cnt := ((s.entry i).cnt c).getD 0
      let passed := cs.takeWhile fun (j, _, d) => !(j == i && d == c)
      if e.skips cnt then
        ((s.passOver t.val passed).countShort t.val e cnt).laneTakes t.val ⟨lane.val, i, c, [], []⟩
      else
        let (o, r) := (s.unitReads hits).chunkOut i e c cnt
        if r.held then s
        else
          let s := (((r.done t.val).passOver t.val passed).countShort t.val e cnt).countChunk t.val o
          s.laneTakes t.val ⟨lane.val, i, c, o.stores, o.changed⟩)

/-! ### Committing a chunk (R263, R265) -/

/-- Pages of a chunk's gradient buffer. -/
def PlanEntry.gradRange (e : PlanEntry) (c : Nat) : Nat × Nat := (e.gbuf + 32768 * c, 4 * e.chunkLen c)

/-- The chunks of every tower that have not committed. -/
def State.uncommitted (s : State) : List (PlanEntry × Nat) :=
  (s.planEntries.filter fun e => e.2.owner).flatMap fun (i, e) =>
    ((List.range e.chunks).filter fun c => !(s.entry i).committed.contains c).map fun c => (e, c)

/-- Release the pages that only committed chunks used: of the chunk's gradient pages, and of all STATE pages, those staged late too.
[DEDUCED: log entry 13] -/
def State.releasePages (s : State) (e : PlanEntry) (c : Nat) : State :=
  let rest := s.uncommitted
  let gs := (pagesOf (e.gradRange c)).filter fun pg => !rest.any fun (f, d) => (pagesOf (f.gradRange d)).contains pg
  let ps := s.statePagesIn.filter fun pg => !rest.any fun (f, d) => ((f.heldState d).flatMap pagesOf).contains pg
  let s := gs.foldl State.releaseGradbuf s
  ps.foldl State.releaseState s

/-- CHUNK_COMMIT (R263, R265, R340): the stores of a chunk that a lane has taken; the owner's delivery begins with its last
chunk. A die in reset holds the stores back (R22, R23). -/
def execChunkCommit (t : Tower) (entry chunk : Nat) (s : State) : Result :=
  let u := s.updUnit t.val
  .next (match u.runs.find? fun r => r.entry == entry && r.chunk == chunk, s.planAt entry with
  | some r, some e =>
    if s.storesHeld (.update t) r.stores then s
    else
      let s := s.setUpd t.val { u with runs := u.runs.erase r }
      let s := r.stores.foldl (fun s (a, bs) => (s.memWrite (.update t) a bs).2) s
      let x := s.entry entry
      let s := s.setEntry entry { x with committed := x.committed ++ [chunk], changed := x.changed ++ r.changed.eraseDups }
      let s := (s.incWrap (Reg.UPD_PROGRESS_DONE t.val)).releasePages e chunk
      let s := if e.chunks ≤ (s.entry entry).committed.length then s.deliverEntry entry e else s
      s.updPhase t.val
  | _, _ => s)

/-! ### Pre-passes (R269, R270) -/

/-- A sum in a fixed pairwise tree over 2^n positions. [DEDUCED: log entry 13] -/
def treeSum : Nat → List Num → Num
  | 0, xs => xs.headD (.fin false 0 0)
  | n + 1, xs => fAdd (treeSum n (xs.take (2 ^ n))) (treeSum n (xs.drop (2 ^ n)))

/-- w × w and r × r of each parameter of a block, zero where it is skipped. -/
def measureBlock (e : PlanEntry) (x : EntrySt) (cnt : Nat) (k : UBlock) : List (Num × Num) :=
  let env := ruleEnv e x
  let zero : Num := .fin false 0 0
  (List.range k.g.length).map fun j =>
    let g := e.prepare cnt ((k.g.getD j none).getD 0)
    if k.bad || (!g.finite && e.nonfinite) then (zero, zero)
    else
      let w := decodeElem .bf16 ((k.w.getD j none).getD 0)
      let (m, v) := env.moments ((k.m.getD j none).getD zero) ((k.v.getD j none).getD zero) g
      let r := fAdd (env.adamU m v) (fMul env.wd w)
      (fMul w w, fMul r r)

/-- RATIO of a LAMB entry of which every chunk has been measured: the chunk sums are added in ascending chunk order (R269). -/
def EntrySt.lambRatio (x : EntrySt) (e : PlanEntry) : Num :=
  let total (f : Nat × Nat × Nat → Nat) : Num := (List.range e.chunks).foldl (fun a d =>
    match x.measured.find? (·.1 == d) with
    | some m => fAdd a (ofF32 (f m))
    | none => a) (.fin false 0 0)
  let sw := total (·.2.1)
  let sr := total (·.2.2)
  if sw.isZero || sr.isZero then one32 else fDiv (fSqrt sw) (fSqrt sr)

/-- MEASURING_PRE_PASS (R269): the earliest chunk of a LAMB entry that is ready for it; RATIO is written when all are
measured. [DEDUCED: log entry 13] -/
def execMeasuringPrePass (t : Tower) (hits : List EccHit) (s : State) : Result :=
  let pick := (s.planChunks t.val).find? fun (i, e, c) =>
    let x := s.entry i
    e.lamb && !x.prepared && (x.cnt c).isSome && !(x.measured.any (·.1 == c)) && s.staged e c
  .next (if !(s.updUnit t.val).sweeping then s
    else match pick with
    | none => s
    | some (i, e, c) =>
      let x := s.entry i
      let cnt := (x.cnt c).getD 0
      let n := e.chunkLen c
      let u := s.unitReads hits
      let (vals, r) : List (Num × Num) × UReader := if e.skips cnt then ([], u) else
        (List.range ((n + 31) / 32)).foldl (fun (acc, r) j =>
          let (k, r) := UReader.block r e (256 * c + j) (min 32 (n - 32 * j))
          (acc ++ measureBlock e x cnt k, r)) ([], u)
      if r.held || (s.rangeHolder (.update t) (e.srec + 12) 4).isSome then s
      else
        let s := r.done t.val
        let sum := (c, toF32 (treeSum 13 (vals.map (·.1))), toF32 (treeSum 13 (vals.map (·.2))))
        let x := { x with measured := x.measured ++ [sum] }
        if x.measured.length < e.chunks then s.setEntry i x
        else
          let ratio := x.lambRatio e
          let s := (s.memWrite (.update t) (e.srec + 12) ((leBytes 4 (toF32 ratio)).map some)).2
          (s.setEntry i { x with prepared := true, ratio := toF32 ratio }).updPhase t.val)

/-- The prepared gradients of a FACTORED entry in ascending i: zeros for a chunk that is skipped, a free value for one whose
word is poisoned. [DESIGN CHOICE: log entry 13] -/
def UReader.allGrads (u : UReader) (i : Nat) (e : PlanEntry) : List Num × UReader :=
  let x := u.s.entry i
  (List.range e.chunks).foldl (fun (acc, r) c =>
    let cnt := (x.cnt c).getD 0
    let n := e.chunkLen c
    if e.skips cnt then (acc ++ List.replicate n (.fin false 0 0), r)
    else
      (List.range ((n + 31) / 32)).foldl (fun (acc, r) j =>
        let (gs, r) := UReader.grads r e (256 * c + j) (min 32 (n - 32 * j))
        (acc ++ gs.zipIdx.map fun (g, q) => match g with
          | some g => e.prepare cnt g
          | none => ofF32 ((Config.freeAt .gradient r.s.fresh (8192 * c + 32 * j + q)).toNat % 2 ^ 32), r)) (acc, r))
    ([], u)

/-- The new statistic of one row or column: BETA2 × old + (1 − BETA2) × (sum ÷ n), of the gradients in order.
[DESIGN CHOICE: log entry 13] -/
def statOf (e : PlanEntry) (old : Option Nat) (gs : List Num) : Option Num :=
  old.map fun o =>
    let sum := gs.foldl (fun a g => fAdd a (fAdd (fMul g g) (ofF32 e.eps))) (.fin false 0 0)
    blend (ofF32 e.beta2) (ofF32 o) (fDiv sum (Num.ofInt gs.length))

/-- STATISTICS_PRE_PASS (R270): the first FACTORED entry of the tower of which every chunk has landed.
[DEDUCED: log entry 13] -/
def execStatisticsPrePass (t : Tower) (hits : List EccHit) (s : State) : Result :=
  let pick := (s.towerEntries t.val).find? fun (i, e) =>
    let x := s.entry i
    e.owner && e.factored && !x.prepared && (List.range e.chunks).all fun c => (x.cnt c).isSome
  .next (if !(s.updUnit t.val).sweeping then s
    else match pick with
    | none => s
    | some (i, e) =>
      let (gs, r) := (s.unitReads hits).allGrads i e
      let (oldR, r) := r.stats e e.m2 (List.range e.nrow)
      let (oldC, r) := r.stats e e.m2s (List.range e.ncol)
      if r.held then s
      else
        let s := r.done t.val
        let newR := (List.range e.nrow).map fun n => statOf e (oldR.getD n none) ((gs.drop (n * e.ncol)).take e.ncol)
        let newC := (List.range e.ncol).map fun k => statOf e (oldC.getD k none) ((List.range e.nrow).map fun n =>
          gs.getD (n * e.ncol + k) .nan)
        let bytes (x : Option Num) : List DataByte := match x with
          | some v => (leBytes 4 (toF32 v)).map some
          | none => List.replicate 4 none
        let s := (s.memWrite (.update t) e.m2 (newR.flatMap bytes)).2
        let s := (s.memWrite (.update t) e.m2s (newC.flatMap bytes)).2
        let (w, s) := s.drawWord
        let s := { s with fresh := s.fresh + 1 }
        let rbar := if newR.any (·.isNone) then w % 2 ^ 32
          else toF32 (fDiv (newR.foldl (fun a x => fAdd a (x.getD .nan)) (.fin false 0 0)) (Num.ofInt e.nrow))
        (s.setEntry i { s.entry i with prepared := true, rbar }).updPhase t.val)

/-! ### Working copies (R273 to R276) -/

/-- The masters of an entry; none is poisoned. -/
def UReader.masters (r : UReader) (e : PlanEntry) : List (Option Num) × UReader :=
  let (bs, r) := r.read e.tower e.master (2 * e.params)
  ((numbersOf 2 e.params bs).map fun c => c.map (decodeElem .bf16), r)

/-- What a copy writes and counts. -/
structure CopyOut where
  stores : List (Nat × List DataByte) := []
  counts : List (Nat × Nat × Option CountKind) := []

/-- Bytes of one code of 8 or 16 bits; none is poison. -/
def codeBytes (w : Nat) (c : Option Nat) : List DataByte :=
  match c with
  | some v => (leBytes (w / 8) v).map some
  | none => List.replicate (w / 8) none

/-- A PLAIN copy: input-major, PRESCALE × w (R273). -/
def plainCopy (e : PlanEntry) (d : CopyDesc) (rnd : Nat → Rnd) (ws : List (Option Num)) : CopyOut :=
  let f := (Fmt.ofCode d.fmt).getD .bf16
  let ctl := Ctl.ofNat d.ctl
  (List.range e.ncol).foldl (fun o k =>
    let cs := (List.range e.nrow).map fun n => (ws.getD (n * e.ncol + k) none).map fun w =>
      convert f ctl (rnd (n * e.ncol + k)) ((ofF32 d.prescale).mul w)
    ⟨o.stores ++ [(d.dst + k * d.dstride, cs.flatMap fun c => codeBytes f.width (c.map (·.1)))],
     o.counts ++ cs.filterMap fun c => c.map fun x => (d.fmt, ctl.cls, x.2)⟩) {}

/-- An MX copy: output-major, blocks along k, the last padded with zeros (R52, R156, R273). [DEDUCED: log entry 13] -/
def mxCopy (s : State) (e : PlanEntry) (d : CopyDesc) (rnd : Nat → Rnd) (ws : List (Option Num)) : CopyOut :=
  let f := (Fmt.ofCode d.fmt).getD .mxfp8e4
  let nb := (e.ncol + 31) / 32
  let bpb := 4 * f.width
  (List.range e.nrow).foldl (fun o n => (List.range nb).foldl (fun o b =>
    let m := min 32 (e.ncol - 32 * b)
    let i0 := n * e.ncol + 32 * b
    let xs := (List.range m).map fun j => (ws.getD (i0 + j) none).map fun w => (ofF32 d.prescale).mul w
    let bad := xs.any (·.isNone)
    let (sc, cs) := convertBlock f (fun j => rnd (i0 + j)) (xs.map (·.getD .nan) ++ List.replicate (32 - m) (.fin false 0 0))
    let cells := cs.map fun c => some (if bad then none else some c.1)
    ⟨o.stores ++ storeRow s (d.dst + n * d.dstride + b * bpb) f.width cells ++
       [(d.aux + n * (d.dstride / bpb) + b, [if bad then none else some (BitVec.ofNat 8 sc)])],
     if bad then o.counts else o.counts ++ (cs.take m).map fun c => (d.fmt, (Ctl.ofNat d.ctl).cls, c.2)⟩) o) {}

/-- The larger or smaller of two values; a NaN wins. -/
def numMaxE (a b : Num) : Num := if a.isNan || b.isNan then .nan else if a.ltv b then b else a
def numMinE (a b : Num) : Num := if a.isNan || b.isNan then .nan else if b.ltv a then b else a

/-- M and SH of a rescale record (R274); none where the product is no number. Zero and a negative product have no logarithm: `free`
is SH there, 0 to 63, and M follows from it. SH is 0 to 63, but for −1 where M × 2^0 rounds to 2^31. [DEDUCED: log entry 13] -/
def rescaleOf (m : Num) (free : Nat) : Option (Int × Int) :=
  match m with
  | .fin neg k e =>
    let sh := if neg || k == 0 then free % 64 else (clampInt 0 63 (30 - floorLog2 k e)).toNat
    let v : Int := roundMag .even neg k (e + sh) 0
    let v := if neg then -v else v
    let (v, sh) : Int × Int := if v = 2 ^ 31 then ((2 : Int) ^ 30, (sh : Int) - 1) else (v, sh)
    some (clampInt (-(2 ^ 31)) (2 ^ 31 - 1) v, sh)
  | _ => none

/-- An INTCOL copy (R274): codes input-major, and the record fields of each column. `free` supplies M and SH where R274 gives
them no value. [DESIGN CHOICE: log entry 12; DEDUCED: log entry 13] -/
def intColCopy (e : PlanEntry) (d : CopyDesc) (rnd : Nat → Rnd) (ws : List (Option Num)) (free : Nat → Nat) : CopyOut :=
  let f := (Fmt.ofCode d.fmt).getD .int8
  let ctl := Ctl.ofNat d.ctl
  (List.range e.nrow).foldl (fun o n =>
    let row := (List.range e.ncol).map fun k => ws.getD (n * e.ncol + k) none
    let bad := row.any (·.isNone)
    let vals := row.map (·.getD .nan)
    let lo := vals.foldl numMinE (.fin false 0 0)
    let hi := vals.foldl numMaxE (.fin false 0 0)
    let sc := if f = .uint8 then fDiv (hi.add lo.neg) (Num.ofInt 255) else fDiv (numMaxE lo.neg hi) (Num.ofInt 127)
    let sc := if sc.isZero then one32 else sc
    let zw : Nat := if f = .uint8 then (convert .uint8 ctl .even (lo.neg.div sc)).1 else 0
    let qs := vals.zipIdx.map fun (w, k) => convert f ctl (rnd (n * e.ncol + k)) ((w.div sc).add (Num.ofInt zw))
    let cw : Int := (qs.map fun q => (decodeElem f q.1).scaled 0).sum
    let (m, sh) : Int × Int := (rescaleOf ((ofF32 d.rq).mul sc) (free (2 * n + 1))).getD (signed 32 (free (2 * n)), free (2 * n + 1))
    let rec0 := d.aux + 768 * (n / 64)
    let c := n % 64
    let put (bs : List Byte) : List DataByte := bs.map fun b => if bad then none else some b
    ⟨o.stores ++ (qs.zipIdx.map fun (q, k) => (d.dst + k * d.dstride + n, put (leBytes 1 q.1))) ++
       [(rec0 + 64 + 4 * c, put (leBytes 4 (wrapInt 32 m))), (rec0 + 320 + c, put (leBytes 1 (wrapInt 8 sh))),
        (rec0 + 448 + 4 * c, put (leBytes 4 (wrapInt 32 cw)))] ++
       (if f = .uint8 then [(rec0 + 384 + c, put (leBytes 1 zw))] else []),
     if bad then o.counts else o.counts ++ qs.map fun q => (d.fmt, ctl.cls, q.2)⟩) {}

/-- The BF16 side matrix (R275, R161). -/
def sideCopy (e : PlanEntry) (d : CopyDesc) (rnd : Nat → Rnd) (ws : List (Option Num)) (list : List (Option Nat)) : CopyOut :=
  let ctl := Ctl.ofNat d.ctl
  (List.range (32 * ((d.ocnt + 31) / 32))).foldl (fun o j =>
    let cs : List (Option Conv) := (List.range e.nrow).map fun n =>
      if j < d.ocnt then
        (list.getD j none).bind fun k => (ws.getD (n * e.ncol + k) none).map fun w =>
          convert .bf16 ctl (rnd (n * e.ncol + k)) (if d.kind = 2 then w else (ofF32 d.prescale).mul w)
      else some (0, none)
    ⟨o.stores ++ [(d.side + 2 * e.nrow * j, cs.flatMap fun c => codeBytes 16 (c.map (·.1)))],
     if j < d.ocnt then o.counts ++ cs.filterMap fun c => c.map fun x => (Fmt.bf16.code, ctl.cls, x.2) else o.counts⟩) {}

/-- The step s of the draws of an entry's copies (R276): that of the sweep, for an owner and where REGEN asks for the copies; for a
replica that of the running step, in which its delivery came, and for a delivery repeated that of the copies it repeats.
[DEDUCED: log entry 13] -/
def State.copyStep (s : State) (i : Nat) (e : PlanEntry) : Nat :=
  if e.owner then s.rd (Reg.UPD_STATUS_STEP e.tower)
  else if (s.entry i).regen then (s.entry i).drawn.getD (s.rd (Reg.UPD_STATUS_STEP e.tower))
  else s.rd Reg.SHP_STEP_STEP

/-- Write one copy of an entry. [DEDUCED: log entry 13] -/
def UReader.writeCopy (r : UReader) (i : Nat) (e : PlanEntry) (d : CopyDesc) : UReader :=
  let (ws, r) := r.masters e
  let (list, r) := if d.olist = 0 then ([], r) else
    let (bs, r) := r.read e.tower d.olist (2 * d.ocnt)
    (numbersOf 2 d.ocnt bs, r)
  let s := r.s
  let rnd := updRnd d.ctl (s.rd Reg.SHP_SEED_SEED) d.stream (s.copyStep i e) e.index
  let main := match d.kind with
    | 0 => plainCopy e d rnd ws
    | 1 => mxCopy s e d rnd ws
    | _ => intColCopy e d rnd ws fun n => (Config.freeAt .intCol s.fresh n).toNat
  let side := if d.olist = 0 then {} else sideCopy e d rnd ws list
  let stores := main.stores ++ side.stores
  if r.held || s.storesHeld (updateOrig e.tower) stores then { r with held := true }
  else
    let s := { s with fresh := s.fresh + 1 }
    let s := stores.foldl (fun s (a, bs) => (s.memWrite (updateOrig e.tower) a bs).2) s
    { r with s := s.countUpd e.tower (main.counts ++ side.counts) }

/-- COPY_REGENERATION (R265, R276, R280): an entry's copies, once its last chunk has committed, its delivery is complete, or
REGEN asks for them. A replica's copies wait for the step that they belong to, and a die in reset holds them back (R22, R23).
[DEDUCED: log entry 13] -/
def execCopyRegeneration (entry : Nat) (hits : List EccHit) (s : State) : Result :=
  .next (match s.planAt entry with
  | none => s
  | some e =>
    let x := s.entry entry
    let due := x.regen || (!x.complete &&
      (if e.owner then (s.updUnit e.tower).sweeping && decide (e.chunks ≤ x.committed.length)
       else x.arrived && s.step.isSome))
    if x.copying || !due then s
    else
      let r := (s.fabric.copies.getD entry []).foldl (fun r d => UReader.writeCopy r entry e d) (s.unitReads hits)
      if r.held then s
      else
        let t := r.done e.tower
        (t.setEntry entry { t.entry entry with copying := true, drawn := some (s.copyStep entry e) }).updPhase e.tower)

/-! ### Entries complete, and their digests (R265, R277, R278, R342) -/

/-- Does a die in reset hold back the reads and the write of an entry's digest (R22, R23)? -/
def State.digestHeld (s : State) (e : PlanEntry) : Bool :=
  (s.rangeHolder (updateOrig e.tower) e.master (2 * e.params)).isSome ||
    (e.owner && (s.rangeHolder (updateOrig e.tower) e.srec 64).isSome)

/-- The digest of an entry's master, whether it is valid (no word of it is poisoned), and the state that has read the master. -/
def State.digestOf (s : State) (e : PlanEntry) : Nat × Bool × State :=
  let (_, bs, s) := s.memReadMet (updateOrig e.tower) e.master (2 * e.params)
  (crc64 (bs.map (·.getD 0)), !bs.any (·.isNone), s.consumePoison (updateOrig e.tower) (poisonWords e.master bs))

/-- A digest is computed: the owner's goes into the state record; a replica keeps its own and sends it when the delivery's
STEP is a multiple of DIG_INT (R342). [DEDUCED: log entry 13] -/
def State.takeDigest (s : State) (i : Nat) (e : PlanEntry) : State :=
  let (d, ok, s) := s.digestOf e
  let s := s.setEntry i { s.entry i with digest := d, digestValid := ok }
  let s := if ok then s else s.setB (Reg.UPD_STATUS_DIG_INVALID e.tower)
  if e.owner then
    let s := if ok then s else s.record .digestInvalid (updSource e.tower) []
    (s.memWrite (updateOrig e.tower) (e.srec + 16) ((leBytes 8 d).map some)).2
  else
    let t := (s.entry i).sweepT
    let int := s.rd Reg.UPD_CFG_DIG_INT
    match s.entryHome i with
    | some (_, owner) =>
      if int ≠ 0 ∧ t % int = 0 then
        s.sendOwn (updateOrig e.tower) fun s =>
          s.sendPkt e.tower 0 owner 0x31 false 0 [] [] (leBytes 3 i ++ leBytes 1 ok.toNat ++ leBytes 4 t ++ leBytes 8 d)
      else s
    | none => s

/-- A spare that has regenerated every copy has recovered (R347). -/
def State.recovered (s : State) : State :=
  if s.rd Reg.RED_RECOVER_STATE = 3 ∧ s.planEntries.all fun e => !(s.entry e.1).regen then
    let lag := s.fabric.restoreT - s.rd Reg.RED_RECOVER_MIRROR_STEP
    ((s.wr Reg.RED_RECOVER_STATE 4).wr Reg.RED_RECOVER_LAG (min 255 lag)).record .recoveryComplete (source 0 0 4) []
  else s

/-- ENTRY_COMPLETE (R265, R277, R280): the copies are written; DONE_SYNC gains 1 unless REGEN asked for the copies.
[DEDUCED: log entry 13] -/
def execEntryComplete (entry : Nat) (s : State) : Result :=
  .next (match s.planAt entry with
  | none => s
  | some e =>
    let x := s.entry entry
    if !x.copying || s.digestHeld e then s
    else if x.regen then ((s.setEntry entry { x with copying := false, regen := false }).updPhase e.tower).recovered
    else
      let s := s.setEntry entry { x with copying := false, complete := true, landed := [] }
      let s := (if e.owner then s.takeDigest entry e else s).addObjFrom (updateOrig e.tower) e.done 1
      s.updPhase e.tower)

/-- Ask for every copy of every entry again, with the draws of the last sweep. -/
def State.regenAll (s : State) : State :=
  let s := s.planEntries.foldl (fun s (i, _) => s.setEntry i { s.entry i with regen := true, copying := false, drawn := none }) s
  [0, 1, 2, 3].foldl State.updPhase s

/-- REGEN (R280). [DEDUCED: log entry 13] -/
def execRegen (acc : RegAccess) (s : State) : Result :=
  let s := s.portTurn acc.port.val
  .next (if !bit (s.accessBits acc Reg.UPD_CTL_REGEN) 0 then s
    else if s.holds acc.port.val && [0, 1, 2, 3].all fun t => s.rd (Reg.UPD_STATUS_PHASE t) == 0 then s.regenAll
    else s.rejectWrite acc.port.val 0x404008)

end Sys2Proof.Machine
end

