-- ==== Sys2Proof/Machine/Reduction.lean ====
section
/-! DEFINITION. Reduction in the fabric (11): injection (R314, R321, R326, R337), the adders and their store (R324 to R336),
landing (R338, R339). -/

namespace Sys2Proof.Machine

/-! ### Elements: an FP32 code and its residue -/

abbrev RElem := Nat × Nat

/-- The code of a poisoned element (R326). -/
def poisonCode : Nat := 0xFFFFFFFF

/-- The residue of an FP32 code (R326). -/
def residueOf (c : Nat) : Nat :=
  let e := bits c 30 23
  if e = 255 then 15
  else
    let m : Int := if e = 0 then (bits c 22 0 : Nat) else (2 ^ 23 + bits c 22 0 : Nat)
    wrapMod (if bit c 31 then -m else m)
where
  wrapMod (v : Int) : Nat := (v % 15).toNat

/-- a + b of two elements (R324, R328): poison spreads; the residue is that of the result's bits. -/
def addElem (a b : RElem) : RElem :=
  if a.1 = poisonCode ∨ b.1 = poisonCode then (poisonCode, 15)
  else
    let c := toF32 ((ofF32 a.1).add (ofF32 b.1))
    (c, residueOf c)

def addElems (a b : List RElem) : List RElem := (a.zip b).map fun p => addElem p.1 p.2

/-- Bytes of one element in a contribution format: 0 FP32, 1 BF16. -/
def elemBytes (fmt : Nat) : Nat := if fmt = 0 then 4 else 2

/-- Widen a stored code to FP32 exactly; BF16 poison is all ones. -/
def widen (fmt c : Nat) : Nat := if fmt = 0 then c else if c = 0xFFFF then poisonCode else c * 65536

/-- The payload of a piece (R321): blocks of 32 elements and a residue word. -/
def packPiece (fmt : Nat) (es : List RElem) : List Byte :=
  (List.range 16).flatMap fun b =>
    let blk := (es.drop (32 * b)).take 32
    (blk.flatMap fun e => leBytes (elemBytes fmt) (if fmt = 0 then e.1 else e.1 / 65536)) ++
      leBytes 16 (blk.zipIdx.foldl (fun a (e, j) => a + e.2 % 16 * 16 ^ j) 0)

/-- The elements of a payload. -/
def unpackPiece (fmt : Nat) (bs : List Byte) : List RElem :=
  let w := elemBytes fmt
  let n := 32 * w + 16
  (List.range 16).flatMap fun b => (List.range 32).map fun j =>
    (widen fmt (fieldNat bs (n * b + w * j) w), (fieldNat bs (n * b + 32 * w + j / 2) 1 >>> (4 * (j % 2))) % 16)

/-- The element numbers that a 128-bit word of a piece's layout carries, or carries residues of (R321). -/
def wordElems (fmt w : Nat) : List Nat :=
  let per := 16 / elemBytes fmt
  let n := 32 / per + 1
  let b := w / n
  if w % n = n - 1 then (List.range 32).map (32 * b + ·) else (List.range per).map (32 * b + per * (w % n) + ·)

/-- Elements of which some words decode as uncorrectable: those elements are poison (R326, R330). -/
def spoilElems (fmt : Nat) (bad : List Nat) (es : List RElem) : List RElem :=
  let js := bad.flatMap (wordElems fmt)
  if js = [] then es else es.zipIdx.map fun (e, j) => if js.contains j then (poisonCode, 15) else e

/-! ### The header of a reduction packet (R322) -/

def Pkt.rTag (p : Pkt) : Nat := fieldNat p.hdr 32 2 % 4096
def Pkt.rSeq (p : Pkt) : Nat := fieldNat p.hdr 34 4
def Pkt.rChunk (p : Pkt) : Nat := fieldNat p.hdr 38 3
def Pkt.rPiece (p : Pkt) : Nat := fieldNat p.hdr 41 1 % 16
def Pkt.rEntry (p : Pkt) : Nat := fieldNat p.hdr 42 3
def Pkt.rEchunk (p : Pkt) : Nat := fieldNat p.hdr 45 3
def Pkt.rCnt (p : Pkt) : Nat := fieldNat p.hdr 48 2
def Pkt.rGid (p : Pkt) : Nat := fieldNat p.hdr 50 2 % 16384
def Pkt.rOwner (p : Pkt) : Nat := fieldNat p.hdr 52 2 % 16384
def Pkt.rGroup (p : Pkt) : Nat := fieldNat p.hdr 54 1 % 64
def Pkt.rFmt (p : Pkt) : Nat := fieldNat p.hdr 55 1
def Pkt.rStep (p : Pkt) : Nat := fieldNat p.hdr 56 1
def Pkt.rElems (p : Pkt) : List RElem := unpackPiece p.rFmt p.data

def Pkt.key (p : Pkt) : RedKey := ⟨p.vc - 8, p.rTag, p.rChunk, p.rPiece, p.rStep⟩

/-- The extension of a reduction packet. -/
def redExt (tag seq chunk piece entry echunk cnt gid owner group fmt step8 flg : Nat) : List Byte :=
  leBytes 2 tag ++ leBytes 4 seq ++ leBytes 3 chunk ++ leBytes 1 piece ++ leBytes 3 entry ++ leBytes 3 echunk ++
    leBytes 2 cnt ++ leBytes 2 gid ++ leBytes 2 owner ++ leBytes 1 group ++ leBytes 1 fmt ++ leBytes 1 step8 ++ leBytes 1 flg

/-- ORDER mode (R316, R349). -/
def State.orderMode (s : State) : Bool := s.rd Reg.RED_CFG_MODE == 2

/-- The running step's number modulo 256. -/
def State.step8 (s : State) : Nat := s.rd Reg.SHP_STEP_STEP % 256

/-! ### The checks of R327 -/

/-- Does an element carry its residue? -/
def residueOk (e : RElem) : Bool := e.2 == residueOf e.1

/-- A reduction packet with the elements of some payload words marked as poison. -/
def Pkt.markWords (p : Pkt) (ws : List Nat) : Pkt := { p with data := packPiece p.rFmt (spoilElems p.rFmt ws p.rElems) }

/-- Check a packet that came from a link: none where it passes, else the state that has counted and recorded it. -/
def State.checkPiece (s : State) (link : Nat) (p : Pkt) : Option State :=
  if link ≥ 14 then none
  else
    let fail (f : Fld) : State :=
      ((s.incStop f).setB Reg.RED_STATUS_INTEG).record .reductionIntegrity (linkSource link) [pv2 p.src]
    if !p.ecrcOk then some (fail Reg.RED_ERR_CNT_ECRC_ERR)
    else if p.rElems.any fun e => !residueOk e then some (fail Reg.RED_ERR_CNT_RES_ERR) else none

/-! ### Brims, stores and positions -/

def State.brimRed (s : State) (b : Nat) : BrimRed := Sparse.get {} s.fabric.brims b
def State.setBrimRed (s : State) (b : Nat) (x : BrimRed) : State :=
  s.modFabric fun f => { f with brims := Sparse.put {} f.brims b x }

/-- The combining brim of a chunk at this node (R319, R329). -/
def State.combineBrim (s : State) (g : Group) (chunk owner entry : Nat) : Nat :=
  s.adderBrim (match s.nextHop g s.logSelf owner with
    | some (d, n) => s.hopBrim (treeIdx chunk owner) d n
    | none => ((s.planAt entry).map (·.tower)).getD 0)

/-- The order positions of a channel that a brim combines (R332): those of the buckets whose group contains the package. -/
def State.positions (s : State) (b chan : Nat) : List Nat :=
  s.bucketList.flatMap fun (_, k) =>
    let g := s.group k.group
    if g.chan = chan ∧ g.contains s.logSelf then
      (List.range k.nchunk).flatMap fun c => match k.shardOf c with
        | some d => if s.combineBrim g c d.owner d.entry = b then (List.range 16).map fun p => k.seq0 + 16 * c + p else []
        | none => []
    else []

/-- H of a channel at a brim (R332): the lowest position not yet forwarded or landed; 0 once all have been. -/
def State.orderHead (s : State) (b chan : Nat) : Nat :=
  let done := Sparse.get [] (s.brimRed b).passed chan
  match (s.positions b chan).filter fun q => !done.contains q with
  | [] => 0
  | q :: r => r.foldl min q

/-- H moves past a position; once it passes the last, it returns to 0 (R332). -/
def State.passSeq (s : State) (b chan seq : Nat) : State :=
  if !s.orderMode then s
  else
    let x := s.brimRed b
    let done := Sparse.get [] x.passed chan ++ [seq]
    let all := (s.positions b chan).all done.contains
    s.setBrimRed b { x with passed := Sparse.put [] x.passed chan (if all then [] else done) }

/-- Is the piece one of an older step, a timed-out straggler, or below H? (R335) [DEDUCED: log entry 15] -/
def State.olderStep (s : State) (step8 : Nat) : Bool :=
  let d := (s.step8 + 256 - step8) % 256
  decide (1 ≤ d) && decide (d ≤ 127)

def State.isOlder (s : State) (b : Nat) (p : Pkt) : Bool :=
  s.olderStep p.rStep || (s.brimRed b).timed.contains p.key ||
    (s.orderMode && decide (p.rSeq < s.orderHead b (p.vc - 8)))

/-- STORE_HI, in units of 8 entries. [DEDUCED: log entry 15] -/
def State.storeHigh (s : State) (b : Nat) : State :=
  let n := (s.brimRed b).store.length / 8
  if s.rd Reg.RED_STATUS_STORE_HI < n then s.wr Reg.RED_STATUS_STORE_HI n else s

/-- A packet goes on unaltered (R331, R334, R335, R337); one that this package injected still needs credits for two.
[DEDUCED: log entry 15] -/
def State.passOn (s : State) (b : Nat) (injected : Bool) (p : Pkt) : State :=
  s.setInjectQ b (s.injectQ b ++ [⟨p, injected, true, none⟩])

/-- An entry leaves its store and is forwarded with its sum and count (R321, R334, R336). -/
def State.forwardEntry (s : State) (b : Nat) (x : StoreEntry) (timed : Bool) (bad : List Nat := []) : State :=
  let r := s.brimRed b
  let fmt := if x.inputs ≤ 1 then fieldNat x.hdr 55 1 else 0
  let ws := bad.filter (· < 144)
  let timedKeys := if timed then (x.key :: r.timed).take 256 else r.timed
  let s := s.setBrimRed b { r with store := r.store.erase x, timed := timedKeys }
  let s := if timed then s.incWrap Reg.RED_STORE_TIMED else s
  let h := setField (setField (setField x.hdr 48 (leBytes 2 x.cnt)) 55 (leBytes 1 fmt)) 57 (leBytes 1 timed.toNat)
  let data := packPiece fmt (spoilElems 0 ws x.elems)
  let owner := fieldNat h 52 2 % 16384
  let h := setField (setField (setField h 0 (leBytes 2 owner)) 2 (leBytes 2 s.physSelf)) 6 (leBytes 2 data.length)
  ((s.injectPkt b true true ⟨h, data⟩).passSeq b x.key.chan x.seq).routerPoison b ws.length

/-- An addition has failed twice in a brim (R329). [DEDUCED: log entry 15; DESIGN CHOICE: log entry 35] -/
def State.adderFault (s : State) (b : Nat) : State :=
  let s := (s.setB Reg.RED_STATUS_ADDER_FAULT).record .adderFault (source b 0 4) []
  let s := s.wr Reg.RED_ADDER_FAILED (s.rd Reg.RED_ADDER_FAILED ||| 2 ^ b)
  if s.rd Reg.RED_ADDER_FAILED = 15 then s.raiseNotice 14 (noticeBytes s.physSelf s.physSelf 1 0) else s

/-! ### Interior nodes (R330 to R336) -/

/-- INNER_DL of an entry of a group (R336). [DESIGN CHOICE: log entry 15] -/
def State.innerDl (s : State) (g : Group) : Nat :=
  let v := s.rd Reg.RED_CFG_INNER_DL
  let dl := s.groupDl g
  if dl ≤ v then dl - 100 else v

/-- A CONTRIB piece that has passed its checks, at its combining brim; `bad` are the words of the entry it is added to that decode
as uncorrectable (R330). [DEDUCED: log entry 15] -/
def State.combine (s : State) (b : Nat) (g : Group) (p : Pkt) (injected fault : Bool) (bad : List Nat) : State :=
  let r := s.brimRed b
  let complete (s : State) (x : StoreEntry) : State :=
    if s.expected g s.logSelf p.rOwner ≤ x.cnt then s.forwardEntry b x false else s
  if s.isOlder b p then s.passOn b injected p
  else match r.store.find? fun x => x.key == p.key && (!s.orderMode || x.seq == p.rSeq) with
    | some x =>
      if fault then
        (s.setBrimRed b { r with store := r.store.erase x }).adderFault b
      else
        let ws := bad.filter (· < 144)
        let y := { x with
          elems := addElems (spoilElems 0 ws x.elems) p.rElems, inputs := x.inputs + 1, cnt := x.cnt + p.rCnt }
        let s := s.setBrimRed b { r with store := r.store.map fun z => if z == x then y else z }
        complete (s.routerPoison b ws.length) y
    | none =>
      if 1024 ≤ r.store.length then
        ((s.incStop Reg.RED_STORE_PASS).setB Reg.RED_STATUS_PASS).passOn b injected
          { p with hdr := setField p.hdr 57 (leBytes 1 (fieldNat p.hdr 57 1 ||| 2)) }
      else
        let x : StoreEntry := ⟨p.key, p.rSeq, p.hdr, p.rElems, 1, p.rCnt, s.innerDl g⟩
        complete ((s.setBrimRed b { r with store := r.store ++ [x] }).storeHigh b) x

/-! ### Landing (R338, R339) -/

/-- The bucket of a piece: its group, its tag or SEQ0, and the shard its chunk lies in. -/
def State.bucketFor (s : State) (p : Pkt) : Option (Nat × Bucket) :=
  s.bucketList.find? fun (_, k) => k.group == p.rGroup &&
    (if s.orderMode then k.seq0 + 16 * p.rChunk + p.rPiece == p.rSeq else k.tag == p.rTag) &&
    (match k.shardOf p.rChunk with
      | some d => d.entry == p.rEntry
      | none => false)

def State.setWindow (s : State) (w : Window) : State :=
  let same (v : Window) : Bool := v.bucket == w.bucket && v.step8 == w.step8
  s.modFabric fun f =>
    let windows := if f.windows.any same then f.windows.map fun v => if same v then w else v else f.windows ++ [w]
    { f with windows }

def Window.setChunk (w : Window) (c : LandChunk) : Window :=
  { w with chunks := if w.chunks.any (·.bchunk == c.bchunk) then w.chunks.map fun d => if d.bchunk == c.bchunk then c else d
                     else w.chunks ++ [c] }

/-- A piece is late (R335, R339, R346). -/
def State.latePiece (s : State) (n : Nat := 1) : State :=
  if n = 0 then s else (s.incStop Reg.RED_ERR_CNT_LATE n).setB Reg.RED_STATUS_LATE

/-- A piece of a chunk; one with no input holds +0 and counts 0. -/
def LandChunk.piece (c : LandChunk) (p : Nat) : LandPiece :=
  Sparse.get ⟨List.replicate 512 (0, 0), 0, 0⟩ c.pieces p
def LandChunk.setPiece (c : LandChunk) (p : Nat) (x : LandPiece) : LandChunk :=
  { c with pieces := Sparse.put ⟨List.replicate 512 (0, 0), 0, 0⟩ c.pieces p x }

/-- Add one input to a landing piece: the first is copied. -/
def LandPiece.add (x : LandPiece) (es : List RElem) (cnt : Nat) : LandPiece :=
  ⟨if x.inputs = 0 then es else addElems x.elems es, x.inputs + 1, x.cnt + cnt⟩

/-- The pieces at which an addition of a guarded copy fails twice: those among `faults` that hold an input already (R329). -/
def LandChunk.failed (c : LandChunk) (faults : List Nat) : List Nat := faults.filter fun p => decide (0 < (c.piece p).inputs)

/-- Take a complete guarded copy: it is added to every piece, and a piece whose addition fails twice is discarded with its
contributions (R329, R338). Its count is kept apart. -/
def LandChunk.take (c : LandChunk) (k : GuardCopy) (faults : List Nat) : LandChunk :=
  let lost := c.failed faults
  let c := k.pieces.foldl (fun c (p, es) =>
    c.setPiece p (if lost.contains p then ⟨List.replicate 512 (0, 0), 0, 0⟩ else (c.piece p).add es 0)) c
  { c with taken := c.taken ++ [k.gid], copies := c.copies.filter (·.gid != k.gid) }

/-- The words of a piece of a landing entry among those of its chunk that decode as uncorrectable (R330). The words of a chunk are
numbered 144 to a piece and 16 pieces to an entry: first those of its sums, then those of the copies held, in the order of the group's
guarded primaries. [DESIGN CHOICE: log entry 8] -/
def badOf (bad : List Nat) (src p : Nat) : List Nat :=
  bad.filterMap fun n => if n / 144 = 16 * src + p then some (n % 144) else none

/-- The sums of some pieces are read, to be added to or to be written: words that decode as uncorrectable mark their elements. With it
how many such words there are; a piece without an input holds none. -/
def LandChunk.readSums (c : LandChunk) (bad : List Nat) (ps : List Nat) : LandChunk × Nat :=
  ps.foldl (fun (c, n) p =>
    let x := c.piece p
    let ws := if x.inputs = 0 then [] else badOf bad 0 p
    if ws = [] then (c, n) else (c.setPiece p { x with elems := spoilElems 0 ws x.elems }, n + ws.length)) (c, 0)

/-- A held copy is read to be added, likewise. -/
def GuardCopy.read (k : GuardCopy) (bad : List Nat) (src : Nat) : GuardCopy × Nat :=
  ({ k with pieces := k.pieces.map fun (p, es) => (p, spoilElems 0 (badOf bad src p) es) },
    (k.pieces.map fun e => (badOf bad src e.1).length).sum)

def GuardCopy.complete (k : GuardCopy) : Bool := decide (16 ≤ k.pieces.length)

/-- The bytes of a landed piece: poisoned elements are poison. -/
def landBytes (es : List RElem) : List DataByte :=
  es.flatMap fun e => if e.1 = poisonCode then List.replicate 4 none else (leBytes 4 e.1).map some

/-- The chunk lands (R339, R346): its sums go to GBUF and its count to the update unit. -/
def State.land (s : State) (k : Bucket) (c : LandChunk) : State :=
  match s.planAt c.entry with
  | none => s
  | some e =>
    let us := (List.range 16).map fun p => (c.piece p).cnt
    let same := us.all (· == us.headD 0)
    let cnt := if same && !c.voided then us.headD 0 + c.taken.length else 0
    let s := if same then s else (s.incStop Reg.RED_LAND_CNT_MIXED).setB Reg.RED_STATUS_MIXED
    let b := Fin.ofNat 4 (s.adderBrim e.tower)
    let s := (List.range 16).foldl (fun s p =>
      (s.writeAwait (.router b) (e.gbuf + 32768 * c.echunk + 2048 * p) (landBytes (c.piece p).elems)).2) s
    let s := s.incWrap Reg.RED_LAND_CNT_LANDED
    let s := if cnt < e.contrib then
        ((s.incStop Reg.RED_LAND_CNT_SHORT).setB Reg.RED_STATUS_SHORT_LAND) else s
    let s := if cnt < e.contrib ∨ cnt = 0 then s.flagStep 0 else s
    let x := s.entry c.entry
    let s := s.setEntry c.entry { x with landed := Sparse.put 0 x.landed c.echunk (cnt + 1) }
    let s := if s.orderMode then (List.range 16).foldl (fun s p =>
        s.passSeq b.val (s.group k.group).chan (k.seq0 + 16 * c.bchunk + p)) s else s
    s.updPhase e.tower

/-- Pieces that are not taken are discarded (R338). [DESIGN CHOICE: log entry 15] -/
def State.dupPieces (s : State) (n : Nat) : State := s.incStop Reg.RED_ERR_CNT_DUP n

/-- The guarded primaries that a group's owner must resolve. -/
def Group.gids (g : Group) : List Nat := (g.guards.map (·.1)).eraseDups

/-- The number by which `badOf` knows the copies of a guarded primary. -/
def Group.copyNo (g : Group) (gid : Nat) : Nat := 1 + g.gids.idxOf gid

/-- Land the chunk if every count is there and every GID resolved (R339): the sums not yet read are read then. `n` words that decode as
uncorrectable were met before. [DEDUCED: log entry 15] -/
def State.tryLand (s : State) (w : Window) (k : Bucket) (g : Group) (c : LandChunk) (b n : Nat) (bad unread : List Nat) : State :=
  let e := s.expected g s.logSelf s.logSelf
  if !c.landed && (List.range 16).all (fun p => (c.piece p).cnt == e) && g.gids.all c.taken.contains then
    let (c, m) := c.readSums bad unread
    let c := { c with landed := true }
    ((s.routerPoison b (n + m)).setWindow (w.setChunk { c with pieces := [] })).land k c
  else (s.routerPoison b n).setWindow (w.setChunk c)

/-- Does a spare discard the pieces of the chunks it owns: has its restore not completed (R346)? -/
def State.restoring (s : State) : Bool := s.rd Reg.RED_RECOVER_STATE == 1 || s.rd Reg.RED_RECOVER_STATE == 5

/-- A piece reaches its owner. `faults` are the pieces at which an addition fails twice (R329), `bad` the words of the chunk's landing
entries that decode as uncorrectable (R330). [DEDUCED: log entry 15] -/
def State.landing (s : State) (b : Nat) (g : Group) (p : Pkt) (faults bad : List Nat) : State :=
  match s.bucketFor p with
  | none => s.latePiece
  | some (i, k) =>
    if s.olderStep p.rStep then s.latePiece
    else
      let w := (s.fabric.windows.find? fun w => w.bucket == i && w.step8 == p.rStep).getD
        { bucket := i, step8 := p.rStep, dl := s.groupDl g }
      let c := (w.chunks.find? (·.bchunk == p.rChunk)).getD { bchunk := p.rChunk, entry := p.rEntry, echunk := p.rEchunk }
      if w.closed ∨ c.landed then (s.setWindow w).latePiece
      else if s.restoring then (s.setWindow (w.setChunk { c with voided := true })).latePiece
      else if p.kind = 0x01 then
        if (c.failed faults).contains p.rPiece then
          (s.setWindow (w.setChunk (c.setPiece p.rPiece ⟨List.replicate 512 (0, 0), 0, 0⟩))).adderFault b
        else
          let (c, n) := c.readSums bad [p.rPiece]
          s.tryLand w k g (c.setPiece p.rPiece ((c.piece p.rPiece).add p.rElems p.rCnt)) b n bad
            ((List.range 16).filter (· != p.rPiece))
      else
        let primary := p.kind == 0x02
        if c.taken.contains p.rGid then (s.setWindow w).dupPieces 1
        else
          let old := (c.copies.find? fun y => y.gid == p.rGid && y.primary == primary).getD ⟨p.rGid, primary, []⟩
          let y := { old with pieces := Sparse.put [] old.pieces p.rPiece p.rElems }
          let c := { c with copies := c.copies.filter (fun z => !(z.gid == p.rGid && z.primary == primary)) ++ [y] }
          if primary && y.complete then
            let drop := ((c.copies.filter fun z => z.gid == p.rGid && !z.primary).map (·.pieces.length)).sum
            let s := (s.incWrap Reg.RED_GUARD_CNT_PRIM_TAKEN).dupPieces drop
            let s := if (c.failed faults).isEmpty then s else s.adderFault b
            let (y, m) := y.read bad (g.copyNo p.rGid)
            let (c, n) := c.readSums bad (List.range 16)
            s.tryLand w k g (c.take y faults) b (n + m) bad []
          else s.setWindow (w.setChunk c)

/-- Landing entries in use at a brim: pieces of chunks that have not landed, those of guarded copies that are held among them
(R330). [DEDUCED: log entry 15] -/
def State.landingUsed (s : State) (b : Nat) : Nat :=
  (s.fabric.windows.map fun w => (w.chunks.map fun c =>
    if !c.landed && s.adderBrim (((s.planAt c.entry).map (·.tower)).getD 0) == b then
      c.pieces.length + (c.copies.map (·.pieces.length)).sum
    else 0).sum).sum

/-- Must a piece for its owner wait for a landing entry? One that adds to an entry in use, or that is discarded, does not.
[DEDUCED: log entry 15] -/
def State.landingFull (s : State) (b : Nat) (p : Pkt) : Bool :=
  let c := (s.fabric.windows.filter (·.step8 == p.rStep)).findSome? fun w => w.chunks.find? fun c =>
    c.entry == p.rEntry && c.echunk == p.rEchunk
  let needs := match c with
    | none => true
    | some c => !c.landed && (if p.kind = 0x01 then decide ((c.piece p.rPiece).inputs = 0) else !c.taken.contains p.rGid)
  decide (256 ≤ s.landingUsed b) && needs && !s.restoring

/-! ### The rows -/

/-- The packet of a kind at the head of a reduction channel of an input, if the combining brim must handle it. -/
def State.redHead (s : State) (i vc kind : Nat) : Option Pkt :=
  match s.inputPkt i vc with
  | some p => if p.kind = kind ∧ s.forCombining i vc p then some p else none
  | none => none

/-- CONTRIB (R324 to R336, R338, R339): the piece at the head of a channel of an input (a link, or 14 + b for the injection
port of brim b). `fault` says that its addition fails twice, `bad` which words of the entry it is added to decode as uncorrectable.
A piece that finds no room waits. [DEDUCED: log entry 15] -/
def execContrib (place : InputRed) (fault : Bool) (bad : List Nat) (s : State) : Result :=
  let ⟨input, chan⟩ := place
  let vc := 8 + chan.val
  .next (match s.redHead input.val vc 0x01 with
  | none => s
  | some p =>
    match s.checkPiece input.val p with
    | some s => s.popInput input.val vc
    | none =>
      let g := s.group p.rGroup
      let b := s.combineBrim g p.rChunk p.rOwner p.rEntry
      let own := p.rOwner == s.logSelf
      let h := s.orderHead b chan.val
      let older := s.isOlder b p
      let waits := !older && ((s.orderMode && decide (h + 63 < p.rSeq)) || (own && s.landingFull b p))
      if waits then s
      else
        let s := s.popInput input.val vc
        if s.brimCut (inputBrim input.val) b then s
        else if own then s.landing b g p (if fault then [p.rPiece] else []) bad
        else s.combine b g p (decide (14 ≤ input.val)) fault bad)

/-- A guarded copy: carried on unmerged, or to the landing engine, where it waits for a free entry (R330, R337). -/
def State.guarded (s : State) (i vc kind : Nat) (faults bad : List Nat) : State :=
  match s.redHead i vc kind with
  | none => s
  | some p =>
    match s.checkPiece i p with
    | some s => s.popInput i vc
    | none =>
      let g := s.group p.rGroup
      let b := s.combineBrim g p.rChunk p.rOwner p.rEntry
      if s.brimCut (inputBrim i) b then s.popInput i vc
      else if p.rOwner = s.logSelf then
        if !s.olderStep p.rStep && s.landingFull b p then s else (s.popInput i vc).landing b g p faults bad
      else (s.popInput i vc).passOn b (decide (14 ≤ i)) p

/-- GPRIM (R329, R330, R337, R338): `adds` says what goes wrong as the copy, once it is complete, is added.
[DEDUCED: log entry 15] -/
def execGprim (place : InputRed) (adds : CopyAdds) (s : State) : Result :=
  .next (s.guarded place.input.val (8 + place.chan.val) 0x02 (adds.faults.map (·.val)) adds.bad)

/-- GBACK (R337, R338). [DEDUCED: log entry 15] -/
def execGback (input : Fin 18) (chan : Fin 8) (s : State) : Result := .next (s.guarded input.val (8 + chan.val) 0x03 [] [])

/-- INNER_DL (R330, R336): the timer of an entry of a brim's store expires; `bad` are the words of it that decode as uncorrectable.
[DESIGN CHOICE: log entry 15] -/
def execInnerDl (entry : StoreId) (bad : List Nat) (s : State) : Result :=
  let ⟨brim, index⟩ := entry
  .next (match (s.brimRed brim.val).store[index]? with
  | some x => s.forwardEntry brim.val x true bad
  | none => s)

/-- Resolve the guarded copies of a chunk at its deadline (R338); `faults` are the pieces at which the addition of a copy that is
taken fails twice (R329), `bad` the words of the chunk that decode as uncorrectable (R330). With them how many such words it met. -/
def State.resolveGuards (s : State) (b : Nat) (g : Group) (c : LandChunk) (faults bad : List Nat) : State × LandChunk × Nat :=
  g.gids.foldl (fun (s, c, n) gid =>
    if c.taken.contains gid then (s, c, n)
    else
      let mine := c.copies.filter (·.gid == gid)
      match mine.find? fun y => !y.primary && y.complete with
      | some y =>
        let drop := ((mine.filter (·.primary)).map (·.pieces.length)).sum
        let s := ((s.incWrap Reg.RED_GUARD_CNT_BACK_TAKEN).setB Reg.RED_STATUS_SUBST).dupPieces drop
        let (y, m) := y.read bad (g.copyNo gid)
        (if (c.failed faults).isEmpty then s else s.adderFault b, c.take y faults, n + m)
      | none =>
        let drop := (mine.map (·.pieces.length)).sum
        (((s.incStop Reg.RED_GUARD_CNT_MISSING).setB Reg.RED_STATUS_MISSING).dupPieces drop,
          { c with copies := c.copies.filter (·.gid != gid) }, n)) (s, c, 0)

/-- LANDING_DEADLINE (R329, R338, R339, R346): every chunk of the bucket that this package owns and that has not landed lands.
`adds` gives chunks of the bucket with pieces of them at which the addition of a guarded copy fails twice, and with words of them that
decode as uncorrectable (R330). [DEDUCED: log entry 15] -/
def execLandingDeadline (window : WindowId) (adds : LandAdds) (s : State) : Result :=
  let ⟨bucket, step8⟩ := window
  .next (match s.fabric.windows.find? fun w => w.bucket == bucket && w.step8 == step8.val && !w.closed,
      s.bucketAt bucket with
  | some w, some k =>
    let g := s.group k.group
    let chunks := (k.map.filter fun d => d.owner == s.logSelf).flatMap fun d =>
      (List.range d.count).map fun j => ({ bchunk := d.first + j, entry := d.entry, echunk := d.echunk + j } : LandChunk)
    let s := s.setWindow { w with closed := true }
    (chunks.foldl (fun (s, met) c0 =>
      let w := (s.fabric.windows.find? fun w => w.bucket == bucket && w.step8 == step8.val).getD w
      let c := (w.chunks.find? (·.bchunk == c0.bchunk)).getD c0
      if c.landed then (s, met)
      else
        let b := s.adderBrim (((s.planAt c.entry).map (·.tower)).getD 0)
        let bad := (adds.bad.filter (·.1 == c.bchunk)).map (·.2)
        let (c, n) := c.readSums bad (List.range 16)
        let (s, c, m) := s.resolveGuards b g c ((adds.faults.filter (·.1 == c.bchunk)).map (·.2.val)) bad
        let c := { c with landed := true }
        (((s.routerPoison b (n + m) met).setWindow (w.setChunk { c with pieces := [] })).land k c, met || n + m != 0)) (s, false)).1
  | _, _ => s)

/-! ### Injection (R314, R321, R326, R337) -/

/-- A code read for injection: poison, or a NaN made canonical. -/
def injectElem (fmt : Nat) (c : Option Nat) : RElem :=
  match c with
  | none => (poisonCode, 15)
  | some v =>
    let w := if fmt = 0 then v else v * 65536
    let w := if bits w 30 23 = 255 ∧ bits w 22 0 ≠ 0 then 0x7FC00000 else w
    (w, residueOf w)

/-- Inject one chunk of a bucket: its sixteen pieces of one kind. -/
def State.injectChunk (s : State) (k : Bucket) (g : Group) (c kind gid : Nat) (es : List RElem) : State :=
  match k.shardOf c with
  | none => s
  | some d =>
    let b := s.combineBrim g c d.owner d.entry
    let order := s.orderMode
    (List.range 16).foldl (fun s p =>
      let ext := redExt (if order then k.seq0 % 4096 else k.tag) (if order then k.seq0 + 16 * c + p else 0) c p d.entry
        (c - d.first + d.echunk) 1 gid d.owner k.group k.efmt s.step8 0
      let data := packPiece k.efmt ((es.drop (512 * p)).take 512)
      s.injectPkt b true false (Pkt.make d.owner s.physSelf (8 + g.chan) kind false (c % 65536) 0 [] ext data)) s

/-- What a bucket's release has done so far: the state, whether it met poison, and whether a die in reset holds it back. -/
structure Release where
  s : State
  met : Bool := false
  held : Bool := false

/-- The chunk of a bucket that this package contributes itself, read and injected (R326, R337); `bad` are the words (address ÷ 16)
that the path spoils. -/
def Release.own (r : Release) (k : Bucket) (g : Group) (c : Nat) (bad : List Nat) : Release :=
  let me := r.s.logSelf
  let w := elemBytes k.efmt
  let n := min 8192 (k.nelem - 8192 * c)
  let d := k.shardOf c
  let b := r.s.combineBrim g c ((d.map (·.owner)).getD 0) ((d.map (·.entry)).getD 0)
  let a := k.src + 8192 * w * c
  if (r.s.rangeHolder (routerOrig b) a (n * w)).isSome then { r with held := true }
  else
    let (_, bs, s) := r.s.memRead (routerOrig b) a (n * w)
    let bs := spoil bad a bs
    let ws := poisonWords a bs
    let s := s.consumePoison (routerOrig b) ws r.met
    let es := (numbersOf w n bs).map (injectElem k.efmt) ++ List.replicate (8192 - n) (0, 0)
    let s := if g.guards.any fun x => x.1 == me then s.injectChunk k g c 0x02 me es else s.injectChunk k g c 0x01 0 es
    { r with s, met := r.met || ws != [] }

/-- The duplicate of a guarded primary's chunk that its backup injects. Where it lies is not stated: its elements are free values.
[DESIGN CHOICE: log entry 15] -/
def Release.backup (r : Release) (k : Bucket) (g : Group) (c primary : Nat) : Release :=
  let w := elemBytes k.efmt
  let n := min 8192 (k.nelem - 8192 * c)
  let (bs, s) := r.s.drawBytes (8192 * w)
  let es := (numbersOf w 8192 (bs.map some)).map (injectElem k.efmt)
  { r with s := s.injectChunk k g c 0x03 primary (es.take n ++ List.replicate (8192 - n) (0, 0)) }

/-- BUCKET_RELEASE (R314, R332, R337): READY has reached READYVAL, and in ORDER mode every bucket of the channel with a lower
SEQ0 has been released. A guarded primary injects GPRIM; its backup injects GBACK beside its own contribution. A die in reset holds
the bucket back (R22, R23). -/
def execBucketRelease (bucket : Nat) (hits : List EccHit) (s : State) : Result :=
  .next (match s.bucketAt bucket with
  | none => s
  | some k =>
    let g := s.group k.group
    let before := s.bucketList.all fun (i, j) => !(s.orderMode && (s.group j.group).chan == g.chan && decide (j.seq0 < k.seq0)) ||
      s.fabric.injected.contains i
    if s.step.isNone ∨ s.fabric.injected.contains bucket ∨ s.obj k.ready < k.readyVal ∨ !before then s
    else
      let prims := (g.guards.filter fun x => x.2 == s.logSelf).map (·.1)
      let bad := s.pathBad hits
      let u := (s.modFabric fun f => { f with injected := f.injected ++ [bucket] }).eccHits hits
      let r := (List.range k.nchunk).foldl (fun (r : Release) c =>
        let r := if g.contains s.logSelf then r.own k g c bad else r
        prims.foldl (fun r pr => Release.backup r k g c pr) r) { s := u }
      if r.held then s else r.s)

/-! ### The switch (R291, R298 to R303, R308) -/

/-- Does the arbiter of a link serve this channel of this input next (R291)? -/
def State.servedNext (s : State) (l i vc : Nat) : Option Offer :=
  match (s.link l).arb.pick (s.offers l) with
  | some o => if o.input = i ∧ o.vc = vc then some o else none
  | none => none

/-- A packet leaves an input for a link, and the link's arbiter moves on. -/
def State.serveOffer (s : State) (l i vc : Nat) (o : Offer) (q : Pkt) : State :=
  let arb := (s.link l).arb.serve o (s.offers l)
  let s := s.popInput i vc
  (s.setLink l { s.link l with arb }).transmit l q

/-- PACKET_FORWARD (R291, R298 to R303, R308, R327, R340, R345): the router takes the packet at the head of a channel of an input: a
link, or 14 + b for the injection port of brim b. It goes on when the arbiter of its link serves it next, and a packet of a delivery
keeps its order. A reduction packet in remapped transit is checked first. `bad` are the words of its payload that decode as
uncorrectable as they leave the buffer (R234, R239). [DEDUCED: log entry 17] -/
def execPacketForward (place : InputVc) (bad : List Nat) (s : State) : Result :=
  let ⟨input, vc⟩ := place
  let i := input.val
  let b := inputBrim i
  .next (match s.headRoute i vc.val with
  | none => s
  | some (p, r, _) =>
    match (if vcClass p.vc = 4 then s.checkPiece i p else none) with
    | some s => s.popInput i vc.val
    | none =>
      match r with
      | .eject =>
        if s.deliveryWaits p none then s else (s.popInput i vc.val).ejectPkt b (p.spoiled bad Pkt.markWords)
      | .drop f => (s.popInput i vc.val).incStop f
      | .leg => (s.popInput i vc.val).legFailed b
      | .send l q =>
        match s.servedNext l i vc.val with
        | none => s
        | some o =>
          if s.brimCut b (linkBrim l) then s.popInput i vc.val
          else (s.serveOffer l i vc.val o (q.spoiled bad Pkt.markWords)).routerPoison b (q.badWords bad).length)

/-! ### The start of a step (R333) -/

/-- Every brim's H of every channel returns to 0 (R332, R333). -/
def State.clearHeads (s : State) : State :=
  [0, 1, 2, 3].foldl (fun s b => s.setBrimRed b { s.brimRed b with passed := [] }) s

/-- Every H returns to 0, entries held for an earlier step are forwarded with TIMED set, and windows of an earlier step end:
their pieces are late from now on. [DEDUCED: log entry 15] -/
def State.resetReduction (s : State) (newStep : Nat) : State :=
  let old (step8 : Nat) : Bool :=
    let d := (newStep + 256 - step8) % 256
    decide (1 ≤ d) && decide (d ≤ 127)
  let s := s.modFabric fun f => { f with windows := f.windows.filter fun w => !old w.step8 }
  ([0, 1, 2, 3].foldl (fun s b =>
    ((s.brimRed b).store.filter fun x => x.key.step8 != newStep % 256).foldl (fun s x => s.forwardEntry b x true) s) s).clearHeads

end Sys2Proof.Machine
end

