-- ==== Sys2Proof/Machine/Recover.lean ====
section
/-! DEFINITION. Deliveries, digests and mirrors as they arrive (R278, R341 to R344), failure notices, takeover and recovery
(R304 to R307, R345 to R347). -/

namespace Sys2Proof.Machine

def Pkt.pEntry (p : Pkt) : Nat := fieldNat p.hdr 32 3
def Pkt.pStep (p : Pkt) : Nat := fieldNat p.hdr 36 4
def Pkt.pOffset (p : Pkt) : Nat := fieldNat p.hdr 40 8
def Pkt.pRegion (p : Pkt) : Nat := fieldNat p.hdr 48 1
def Pkt.pCount (p : Pkt) : Nat := fieldNat p.hdr 52 4

/-! ### Stages of a recovery (R347) -/

/-- Every piece of the owner entries of the part has been restored. [DEDUCED: log entry 14] -/
def State.allRestored (s : State) : Bool :=
  (s.planEntries.filter fun e => e.2.owner).all fun (i, e) => e.regions.all fun (r, _, n) =>
    (regionPieces n).all fun (off, _) => s.fabric.restored.contains (i, r, off)

/-- Every replica entry has its master. -/
def State.allArrived (s : State) : Bool := (s.planEntries.filter fun e => !e.2.owner).all fun e => (s.entry e.1).arrived

/-- The spare goes from restoring to receiving masters, and from there to regenerating copies. [DEDUCED: log entry 14] -/
def State.recoverStage (s : State) : State :=
  let s := if s.rd Reg.RED_RECOVER_STATE = 1 ∧ s.fabric.partApplied ∧ s.allRestored then s.wr Reg.RED_RECOVER_STATE 2 else s
  if s.rd Reg.RED_RECOVER_STATE = 2 ∧ s.allArrived then
    let s := s.planEntries.foldl (fun s (i, _) =>
      s.setEntry i { s.entry i with arrived := false, complete := false, copying := false }) s
    (s.wr Reg.RED_RECOVER_STATE 3).regenAll.recovered
  else s

/-! ### Deliveries (R341) -/

def State.delivery (s : State) (i : Nat) : Option DeliverySt := s.fabric.deliveries.find? (·.entry == i)
def State.setDelivery (s : State) (d : DeliverySt) : State :=
  s.modFabric fun f => { f with deliveries := f.deliveries.filter (fun x => x.entry != d.entry) ++ [d] }

/-- The packet that a row takes next from those that have reached this package. -/
def State.ejectedHead (s : State) (cls kind : Nat) : Option (Nat × Pkt) :=
  s.fabric.ejected.find? fun e => vcClass e.2.vc == cls && e.2.kind == kind

/-- The address and the bytes of a piece of a master, without the padding of its payload (R288, R341). -/
def pieceTarget (e : PlanEntry) (p : Pkt) : Nat × List DataByte :=
  (e.master + p.pOffset, p.bytes.take (min 4096 (2 * e.params - p.pOffset)))

/-- Must a packet of an entry's delivery wait for the part that this spare has taken over and not yet applied (R347, R368)? One that
the running step still awaits under the spare's own part does not. [DEDUCED: log entry 14] -/
def State.partWaits (s : State) (i : Nat) : Bool :=
  s.fabric.takenOver.isSome && !s.fabric.partApplied && (s.step.isNone || (s.planAt i).isNone || (s.entry i).arrived)

/-- Does a die in reset (R22, R23), or a part that is not yet applied, hold a piece of a delivery back? -/
def State.pieceHeld (s : State) (kind : Nat) : Bool :=
  match s.ejectedHead 3 kind with
  | none => false
  | some (b, p) => s.partWaits p.pEntry || match s.planAt p.pEntry with
    | some e => !e.owner && s.storesHeld (routerOrig b) [pieceTarget e p]
    | none => false

/-- A piece of a master is written and counted; RESEND pieces begin a count of their own. -/
def State.takePiece (s : State) (b : Nat) (p : Pkt) (resent : Bool) : State :=
  match s.planAt p.pEntry with
  | none => s
  | some e =>
    if e.owner then s
    else
      let (a, bs) := pieceTarget e p
      let s := s.consumePoison (routerOrig b) (poisonWords a bs)
      let s := (s.memWrite (routerOrig b) a bs).2
      let fresh : DeliverySt := ⟨p.pEntry, p.pStep, 1, resent, false⟩
      match s.delivery p.pEntry with
      | none => s.setDelivery fresh
      | some d =>
        if d.complete ∨ d.step ≠ p.pStep then s.setDelivery fresh
        else if d.resent = resent then s.setDelivery { d with count := d.count + 1 }
        else if resent then s.setDelivery fresh else s

/-- Pass a packet of a delivery on to the children of this node (R340). [DEDUCED: log entry 14] -/
def State.passDelivery (s : State) (b : Nat) (p : Pkt) (echunk : Nat) : State :=
  match s.entryHome p.pEntry with
  | none => s
  | some (gi, owner) =>
    s.sendDown (routerOrig b) (s.group gi) owner p.src echunk p.kind p.poison (p.hdr.drop 32) p.data

/-- DELIVER (R340, R341): the first such packet that has reached this package. [DEDUCED: log entry 14] -/
def execDeliver (s : State) : Result :=
  let (e, u) := s.takeEjected 3 0x41
  .next (if s.pieceHeld 0x41 then s
    else match e with
    | none => u
    | some (b, p) => (u.takePiece b p false).passDelivery b p (p.pOffset / 16384))

/-- RESEND (R341, R347). [DEDUCED: log entry 14] -/
def execResend (s : State) : Result :=
  let (e, u) := s.takeEjected 3 0x43
  .next (if s.pieceHeld 0x43 then s
    else match e with
    | none => u
    | some (b, p) => (u.takePiece b p true).modFabric fun f => { f with restoreT := max f.restoreT p.pStep })

/-- Send DELIVERY_NAK to the owner, and wait for its RESENDs. -/
def State.nak (s : State) (e : PlanEntry) (i dst : Nat) : State :=
  let s := s.modFabric fun f => { f with deliveries := f.deliveries.filter fun x => x.entry != i }
  s.sendOwn (updateOrig e.tower) fun s => s.sendPkt e.tower 0 dst 0x32 false 0 [] [] (leBytes 3 i ++ [0])

/-- A delivery is complete: the copies are due, the digest is taken, and DIGEST goes to the owner (R265, R277, R342). One of a
later sweep, which comes before the running step has ended, is for the next step; one of the same sweep brings the copies up to date
again, and where the step of that sweep has ended it is not the next step's delivery. [DEDUCED: log entry 14] -/
def State.delivered (s : State) (i : Nat) (e : PlanEntry) (step : Nat) : State :=
  let x := s.entry i
  let done := x.complete || x.copying
  let early := done && x.sweepT != step && s.step.isSome
  let old := !x.arrived && x.sweepT == step
  let s := s.setEntry i { x with
    arrived := x.arrived || !old, early := x.early || early, sweepT := step, regen := x.regen || ((done || old) && !early) }
  ((s.takeDigest i e).updPhase e.tower).recoverStage

/-- Must DELIVER_END wait: for pieces of its delivery that stand before it at this package (R340), for a part that is not yet applied
(R347), or for a die in reset that holds the digest back (R22, R23)? -/
def State.endWaits (s : State) : Bool :=
  match s.ejectedHead 3 0x42 with
  | none => false
  | some (_, p) =>
    s.partWaits p.pEntry || (s.fabric.ejected.any fun e => vcClass e.2.vc == 3 && (e.2.kind == 0x41 || e.2.kind == 0x43) && e.2.src == p.src &&
      e.2.pEntry == p.pEntry && e.2.pStep == p.pStep) ||
    (match s.planAt p.pEntry with
      | some e => !e.owner && s.digestHeld e
      | none => false)

/-- DELIVER_END (R340 to R342): the count matches, or the replica sends DELIVERY_NAK. [DEDUCED: log entry 14] -/
def execDeliverEnd (s : State) : Result :=
  let (e, u) := s.takeEjected 3 0x42
  .next (if s.endWaits then s
    else match e with
  | none => u
  | some (b, p) =>
    let s := u
    match s.planAt p.pEntry with
    | none => s
    | some e =>
      let d : DeliverySt := match s.delivery p.pEntry with
        | some d => if d.complete ∨ d.step ≠ p.pStep then ⟨p.pEntry, p.pStep, 0, false, false⟩ else d
        | none => ⟨p.pEntry, p.pStep, 0, false, false⟩
      let s := if d.resent then s else s.passDelivery b p (e.chunks - 1)
      if e.owner then s
      else if d.count = p.pCount then (s.setDelivery { d with complete := true }).delivered p.pEntry e p.pStep
      else s.nak e p.pEntry p.src)

/-- DELIVERY_TIMEOUT (R341): no DELIVER_END within DL of a delivery's first piece. -/
def execDeliveryTimeout (entry : Nat) (s : State) : Result :=
  .next (match s.delivery entry, s.planAt entry, s.entryHome entry with
  | some d, some e, some (_, owner) => if d.complete then s else s.nak e entry owner
  | _, _, _ => s)

/-- DELIVERY_NAK (R341): every piece goes to that replica alone. -/
def execDeliveryNak (s : State) : Result :=
  let (e, s) := s.takeEjected 0 0x32
  .next (match e with
  | none => s
  | some (_, p) =>
    let i := fieldNat p.data 0 3
    match s.planAt i with
    | some e => if e.owner then s.resendEntry i e p.src else s
    | none => s)

/-! ### Digests (R278, R342) -/

/-- DIGEST (R278, R342): a replica's digest of a delivery. One whose sweep the owner has not yet completed waits; one of
another sweep is discarded. [DEDUCED: log entry 13] -/
def execDigest (s : State) : Result :=
  let (e, s') := s.takeEjected 0 0x31
  .next (match e with
  | none => s'
  | some (_, p) =>
    let i := fieldNat p.data 0 3
    let t := fieldNat p.data 4 4
    match s.planAt i with
    | none => s'
    | some e =>
      let x := s.entry i
      if !e.owner ∨ t ≠ x.sweepT then s'
      else if !x.complete then s
      else
        let s := s'
        let valid := fieldNat p.data 3 1 != 0
        if !valid then (s.setB (Reg.UPD_STATUS_DIG_INVALID e.tower)).record .digestInvalid (updSource e.tower) []
        else if !x.digestValid then s
        else
          let s := if s.rd (Reg.UPD_DIG_STAT_LAST_STEP e.tower) = t then s
            else (s.wr (Reg.UPD_DIG_STAT_LAST_STEP e.tower) t).wr (Reg.UPD_DIG_STAT_LAST_BAD e.tower) 0
          if fieldNat p.data 8 8 = x.digest then s
          else
            let s := if x.diverged = [] then s.incStop (Reg.UPD_DIG_STAT_LAST_BAD e.tower) else s
            let s := (s.incStop (Reg.UPD_DIG_STAT_MISMATCHES e.tower)).setB (Reg.UPD_STATUS_DIG_MISMATCH e.tower)
            let s := s.record .replicaDivergence (updSource e.tower) [pv3 i, pv2 p.src]
            s.setEntry i { x with diverged := if x.diverged.contains p.src then x.diverged else x.diverged ++ [p.src] })

/-! ### Mirrors (R343, R344) -/

def State.modMirror (s : State) (f : MirrorSt → MirrorSt) : State := s.modFabric fun x => { x with mirror := f x.mirror }

/-- The slot that a mirror goes into, where a slot begins, and what it holds. -/
def MirrorSt.free (m : MirrorSt) : Nat := match m.committed with
  | some (k, _) => 1 - k
  | none => 0
def MirrorSt.base (m : MirrorSt) (k : Nat) : Nat := if k = 0 then m.base0 else m.base1
def MirrorSt.slot (m : MirrorSt) (k : Nat) : List MirrorPiece := if k = 0 then m.slot0 else m.slot1
def MirrorSt.setSlot (m : MirrorSt) (k : Nat) (v : List MirrorPiece) : MirrorSt :=
  if k = 0 then { m with slot0 := v } else { m with slot1 := v }

/-- What the free slot holds of the mirror that arrives, and the bytes it fills. -/
def MirrorSt.arriving (m : MirrorSt) : List MirrorPiece := if m.received = 0 then [] else m.slot m.free
def MirrorSt.filled (m : MirrorSt) : Nat := (m.arriving.map (·.len)).sum

/-- MIRROR (R238, R239, R343, R344): one piece, written into the slot that is not committed behind those before it. A piece that
the slot has no room for is not taken, so that the mirror is short. A die in reset holds the piece back. [DEDUCED: log entry 14] -/
def execMirror (s : State) : Result :=
  let (e, u) := s.takeEjected 3 0x44
  .next (match e with
  | none => u
  | some (b, p) =>
    let m := s.fabric.mirror
    let a := m.base m.free + m.filled
    let bs := p.bytes
    if m.size < m.filled + bs.length then u
    else if s.storesHeld (routerOrig b) [(a, bs)] then s
    else
      let s := u.consumePoison (routerOrig b) (poisonWords a bs)
      let s := (s.memWrite (routerOrig b) a bs).2
      s.modMirror fun m =>
        { m.setSlot m.free (m.arriving ++ [⟨p.pEntry, p.pRegion, p.pOffset, bs.length, a⟩]) with received := m.received + 1 })

/-- MIRROR_COMMIT (R344): the slot is committed when the count matches, and the target answers; it waits for the pieces that stand
before it at this package. [DEDUCED: log entry 14] -/
def execMirrorCommit (s : State) : Result :=
  let (e, u) := s.takeEjected 3 0x45
  .next (match e with
  | none => u
  | some (b, p) =>
    if s.fabric.ejected.any fun e => vcClass e.2.vc == 3 && e.2.kind == 0x44 && e.2.src == p.src then s
    else
      let ok := s.fabric.mirror.received == p.pCount
      let s := u.modMirror fun m =>
        { m with received := 0, committed := if ok then some (m.free, p.pStep) else m.committed }
      s.sendPkt b 0 p.src 0x33 false 0 [] [] (leBytes 4 p.pStep ++ leBytes 1 (!ok).toNat ++ leBytes 3 0))

/-- MIRROR_ACK (R344): the answer to the mirror with its STEP. The target's slots alternate, so a committed mirror lies in the slot
that did not hold the last one. [DEDUCED: log entry 14] -/
def execMirrorAck (s : State) : Result :=
  let (e, s) := s.takeEjected 0 0x33
  .next (match e with
  | none => s
  | some (_, p) =>
    let t := fieldNat p.data 0 4
    if !s.fabric.mirror.sending.contains t then s
    else
      let s := s.modMirror fun m => { m with sending := m.sending.erase t }
      if fieldNat p.data 4 1 = 0 then
        let slot := if s.rdB Reg.RED_MIRROR_VALID then 1 - s.rd Reg.RED_MIRROR_SLOT else 0
        let s := (s.setB Reg.RED_MIRROR_VALID).wr Reg.RED_MIRROR_TARGET (s.mirrorTargetOf s.logSelf)
        (s.wr Reg.RED_MIRROR_SLOT slot).wr Reg.RED_MIRROR_STEP t
      else s.setB Reg.RED_STATUS_MIRROR_FAIL)

/-- The address and the bytes of a RESTORE piece: its region's own bytes, without the padding of its payload (R288, R347). -/
def restoreTarget (e : PlanEntry) (p : Pkt) : Option (Nat × List DataByte) :=
  (e.regions.find? (·.1 == p.pRegion)).map fun (_, base, n) => (base + p.pOffset, p.bytes.take (n - p.pOffset))

/-- RESTORE (R347, R368): one piece, written into its region of the part taken over; it waits until the part is applied, and while a
die in reset holds it back. [DEDUCED: log entry 14] -/
def execRestore (s : State) : Result :=
  if !s.fabric.partApplied then .next s
  else
    let (e, u) := s.takeEjected 3 0x46
    .next (match e with
    | none => u
    | some (b, p) =>
      match (s.planAt p.pEntry).bind fun e => restoreTarget e p with
      | none => u
      | some (a, bs) =>
        if s.storesHeld (routerOrig b) [(a, bs)] then s
        else
          let s := u.consumePoison (routerOrig b) (poisonWords a bs)
          let s := (s.memWrite (routerOrig b) a bs).2
          let key := (p.pEntry, p.pRegion, p.pOffset)
          let s := s.modFabric fun f => { f with restored := if f.restored.contains key then f.restored else f.restored ++ [key] }
          (s.wr Reg.RED_RECOVER_MIRROR_STEP p.pStep).recoverStage)

/-! ### Failures (R304 to R307) -/

/-- Send a notice on every ACTIVE and STANDBY link but one. [DEDUCED: log entry 16] -/
def State.spreadNotice (s : State) (from_ : Nat) (n : List Byte) : State :=
  (List.range 14).foldl (fun s l => if l ≠ from_ ∧ s.linkUp l then s.sendFrame l 1 false (padBytes 64 n) else s) s

/-- The HB_FAIL entry of a coordinate. [DEDUCED: log entry 16] -/
def State.failEntry (s : State) (c : Nat) : Option Nat :=
  (List.range 32).find? fun n => s.rdB (Reg.HB_FAIL_VALID n) && s.rd (Reg.HB_FAIL_COORD n) == c

/-- A spare's box holds a physical coordinate (R306). -/
def State.inBox (s : State) (k c : Nat) : Bool :=
  let ok (lo hi v : Nat) : Bool := decide (lo ≤ v) && decide (v ≤ hi)
  cplane (s.rd (Reg.HB_SPARE_SPARE k)) == cplane c &&
    ok (s.rd (Reg.HB_SPARE_XLO k)) (s.rd (Reg.HB_SPARE_XHI k)) (cx c) &&
    ok (s.rd (Reg.HB_SPARE_YLO k)) (s.rd (Reg.HB_SPARE_YHI k)) (cy c) &&
    ok (s.rd (Reg.HB_SPARE_ZLO k)) (s.rd (Reg.HB_SPARE_ZHI k)) (cz c)

/-- The valid spare entry of a physical coordinate. -/
def State.spareOf (s : State) (c : Nat) : Option Nat :=
  (List.range 32).find? fun k => s.rdB (Reg.HB_SPARE_VALID k) && s.rd (Reg.HB_SPARE_SPARE k) == c

/-- The package that holds the mirror of the coordinate this spare has taken over fails before the restore is complete: the shards
are lost (R347). [DEDUCED: log entry 16] -/
def State.holderFails (s : State) (c : Nat) : State :=
  match s.fabric.takenOver with
  | none => s
  | some f =>
    let h := s.mirrorTargetOf f
    if s.rd Reg.RED_RECOVER_STATE = 1 ∧ (c = h ∨ c = s.physOf h) then
      (s.wr Reg.RED_RECOVER_STATE 5).record .shardsLost (source 0 0 4) []
    else s

/-- Is a failure known already? -/
def State.failureKnown (s : State) (c : Nat) : Bool := (s.failEntry c).isSome || s.fabric.overflowed.contains c

/-- A failure takes the first free entry of the list; when the list is full it is recorded as an event only, and FAIL_FULL is set.
The manual gives no event of its own for that: the model takes package-fenced, with the failed coordinate.
[DESIGN CHOICE: log entry 16] -/
def State.listFailure (s : State) (c reason : Nat) : State :=
  match (List.range 32).find? fun n => !s.rdB (Reg.HB_FAIL_VALID n) with
  | some n => ((s.setB (Reg.HB_FAIL_VALID n)).wr (Reg.HB_FAIL_COORD n) c).wr (Reg.HB_FAIL_REASON n) reason
  | none =>
    ((s.modFabric fun f => { f with overflowed := f.overflowed ++ [c] }).setB Reg.HB_FAB_STATUS_FAIL_FULL).record
      .packageFenced (source 0 0 4) [pv2 c]

/-- Enter a failure (R307). [DEDUCED: log entry 16] -/
def State.enterFailure (s : State) (c reason : Nat) : State :=
  if s.failureKnown c then s
  else
    let s := (s.incStop Reg.HB_FAB_STATUS_FAILS).incStop Reg.HB_FAB_STATUS_UNSPARED
    let s := (s.listFailure c reason).holderFails c
    match s.spareOf c with
    | none => s
    | some k =>
      let lost := s.rdB (Reg.HB_SPARE_TAKEN k)
      let s := s.setB (Reg.HB_SPARE_LOST k)
      if lost then s.record .logicalPositionLost (source 0 0 4) [] else s

/-- Every urgent unit stops, without completion (R305). [DEDUCED: log entry 16] -/
def State.stopUrgents (s : State) : State :=
  let on := s.urgentRuns.flatMap fun r => r.cores.filterMap fun c => (s.urgents[r.cmd.unit]?).map fun u => (c, u)
  let s := { s with cores := Sparse.mapVals {} (fun _ c => c.discard (· == .U)) s.cores, urgentRuns := [] }
  on.foldl (fun s e =>
    (s.undefineFile e.1 .F (e.2.footF, e.2.lenF) (0, 0)).undefineFile e.1 .B (e.2.footB, e.2.lenB) (0, 0)) s

/-- The package is named in a notice (R305, R307): its links are fenced, every work unit stops, and it enters its own failure.
[DEDUCED: log entry 16] -/
def State.fencePackage (s : State) (reason : Nat) : State :=
  let s := (List.range 14).foldl State.fenceLink s
  ((s.stopStep 4).stopUrgents.record .packageFenced (source 0 0 4) []).enterFailure s.physSelf reason

/-- The mirror holder of a failed coordinate sends its committed slot to the spare (R347). -/
def State.sendRestore (s : State) (failed spare : Nat) : State :=
  let m := s.fabric.mirror
  if s.mirrorTargetOf failed ≠ s.logSelf then s
  else match m.committed with
  | none => s
  | some (k, t) =>
    let (w, s) := s.drawWord
    ((m.slot k).foldl (fun (s, met) q =>
      let (_, bs, s) := (s.await (routerOrig 0) q.place q.len).memReadMet (routerOrig 0) q.place q.len
      let ws := poisonWords q.place bs
      let s := s.consumePoison (routerOrig 0) ws met
      (s.sendBurst (routerOrig 0) 0 spare 0x46 (w % 65536) (bs.any (·.isNone)) (paramExt q.entry 0 t q.offset q.region 0) (bs.map (·.getD 0)),
        met || ws != [])) (s, false)).1

/-- A takeover is applied (R306, R345, R347, R365); of one whose spare no valid entry names, only the failure is entered (R307).
[DEDUCED: log entry 16] -/
def State.applyTakeover (s : State) (failed spare : Nat) : State :=
  match s.spareOf spare with
  | none => s.enterFailure failed 3
  | some k =>
    let s := (s.enterFailure failed 3).setB (Reg.HB_SPARE_TAKEN k)
    let s := match s.failEntry failed with
      | some n => (s.setB (Reg.HB_FAIL_SPARED n)).wr (Reg.HB_FAIL_SPIDX n) k
      | none => s.modFabric fun f => { f with overSpared := f.overSpared ++ [(failed, k)] }
    let s := (s.wr Reg.HB_FAB_STATUS_UNSPARED (s.rd Reg.HB_FAB_STATUS_UNSPARED - 1)).flagStep 1
    if spare = s.physSelf then
      let s := s.modFabric fun f => { f with takenOver := some failed, partApplied := false, restored := [], restoreT := 0 }
      let s := (s.wr Reg.RED_RECOVER_FAILED failed).wr Reg.RED_RECOVER_STATE 1
      if s.hasFailed (s.mirrorTargetOf failed) then
        (s.wr Reg.RED_RECOVER_STATE 5).record .shardsLost (source 0 0 4) []
      else s
    else
      let s := s.sendRestore failed spare
      s.planEntries.foldl (fun s (i, e) =>
        let member := match s.entryHome i with
          | some (gi, _) => (s.group gi).contains failed
          | none => false
        if e.owner && member then s.resendEntry i e spare else s) s

/-- A new notice is held, sent on and acted on (R304 to R307). [DEDUCED: log entry 16] -/
def State.takeNotice (s : State) (link : Nat) (n : List Byte) : State :=
  if s.fabric.notices.contains n then s
  else
    let s := s.modFabric fun f => { f with notices := (f.notices ++ [n]).drop (f.notices.length + 1 - 64) }
    let s := s.spreadNotice link n
    let failed := fieldNat n 0 2 % 16384
    let reason := fieldNat n 4 1
    let me := s.physSelf
    if reason = 3 then
      let s := s.applyTakeover failed (fieldNat n 5 2 % 16384)
      if failed = me then s.fencePackage reason else s
    else if failed = me then s.fencePackage reason
    else
      let s := s.enterFailure failed reason
      match s.spareOf s.physSelf with
      | none => s
      | some k =>
        if s.rdB (Reg.HB_SPARE_TAKEN k) || s.rdB (Reg.HB_SPARE_LOST k) || !s.inBox k failed then s
        else
          let t := noticeBytes failed s.physSelf 3 s.physSelf
          let s := s.modFabric fun f => { f with notices := (f.notices ++ [t]).drop (f.notices.length + 1 - 64) }
          (s.spreadNotice 14 t).applyTakeover failed s.physSelf

/-- NOTICE_FRAME (R285, R304): the notices of SLOT0 wait to be taken, and the frame is acknowledged.
[DEDUCED: log entry 16] -/
def execNoticeFrame (link : Link) (ok : Bool) (corrected : Nat) (frame : List Byte) (s : State) : Result :=
  let l := link.val
  .next (if !s.linkUp l then s.refence l
    else
      let f := padBytes 2570 frame
      let good := ok && crc32 (f.take 2566) == fieldNat f 2566 4
      if good && frameType f != 1 then s
      else
        let (took, s) := s.takeFrame l ok corrected frame
        if !took then s
        else
          let ns := ((List.range 8).map fun i => ((f.drop (6 + 8 * i)).take 8)).filter fun n => fieldNat n 4 1 != 0
          (ns.foldl (fun s n => s.raiseNotice l n) s).sendFrame l 0 false [])

/-- FENCE_FRAME (R305). -/
def execFenceFrame (link : Link) (ok : Bool) (corrected : Nat) (frame : List Byte) (s : State) : Result :=
  let l := link.val
  .next (if !s.linkUp l then s
    else
      let f := padBytes 2570 frame
      let good := ok && crc32 (f.take 2566) == fieldNat f 2566 4
      if good && frameType f != 2 then s
      else
        let (took, s) := s.takeFrame l ok corrected frame
        if took then s.fenceLink l else s)

/-- FAILURE_NOTICE (R304 to R307): the first notice that has arrived. [DEDUCED: log entry 16] -/
def execFailureNotice (s : State) : Result :=
  .next (match s.fabric.noticeIn with
  | [] => s
  | (l, n) :: r => (s.modFabric fun f => { f with noticeIn := r }).takeNotice l n)

/-- DECLARE_NEIGHBOUR_FAILED (R303, R305): directions 0 to 5 are XP, XN, YP, YN, ZP and ZN; both links have not been ACTIVE for
HOLDOFF. The loss of both twin links (6) is no failure, and starts no notice. -/
def execDeclareNeighbourFailed (dir : Fin 7) (s : State) : Result :=
  let d := dir.val / 2
  let neg := dir.val % 2 == 1
  let me := s.physSelf
  let n := s.neighbour me d neg
  .next (if dir.val = 6 || s.linkActive (linkNo d neg 0) || s.linkActive (linkNo d neg 1) || !s.coordsValid || n == me ||
      s.failureKnown n then s
    else s.takeNotice 14 (noticeBytes n me 2 0))

end Sys2Proof.Machine
end

