-- ==== Sys2Proof/Machine/Sha.lean ====
section
/-! DEFINITION. SHAKE256 (R350, R447), as FIPS 202 defines it (PRESUMED: the manual names it and gives no algorithm). -/

namespace Sys2Proof.Machine

/-- The permutation's state: 25 lanes of 64 bits, lane (x, y) at 5 y + x. -/
abbrev Lanes25 := List Nat

def rotl64 (v n : Nat) : Nat := ((v <<< n) ||| (v >>> (64 - n))) % 2 ^ 64

/-- Rotations by lane. -/
def keccakRho : List Nat :=
  [0, 1, 62, 28, 27, 36, 44, 6, 55, 20, 3, 10, 43, 25, 39, 41, 45, 15, 21, 8, 18, 2, 61, 56, 14]

/-- Round constants. -/
def keccakRc : List Nat :=
  [0x0000000000000001, 0x0000000000008082, 0x800000000000808A, 0x8000000080008000, 0x000000000000808B,
   0x0000000080000001, 0x8000000080008081, 0x8000000000008009, 0x000000000000008A, 0x0000000000000088,
   0x0000000080008009, 0x000000008000000A] ++
  [0x000000008000808B, 0x800000000000008B, 0x8000000000008089, 0x8000000000008003, 0x8000000000008002,
   0x8000000000000080, 0x000000000000800A, 0x800000008000000A, 0x8000000080008081, 0x8000000000008080,
   0x0000000080000001, 0x8000000080008008]

/-- One round. [PRESUMED: log entry 31] -/
def keccakRound (a : Lanes25) (rc : Nat) : Lanes25 :=
  let at_ (a : Lanes25) (x y : Nat) : Nat := a.getD (5 * (y % 5) + x % 5) 0
  let c := (List.range 5).map fun x => at_ a x 0 ^^^ at_ a x 1 ^^^ at_ a x 2 ^^^ at_ a x 3 ^^^ at_ a x 4
  let d := (List.range 5).map fun x => c.getD ((x + 4) % 5) 0 ^^^ rotl64 (c.getD ((x + 1) % 5) 0) 1
  let a := (List.range 25).map fun i => a.getD i 0 ^^^ d.getD (i % 5) 0
  -- rho and pi: lane (x, y) goes to (y, 2 x + 3 y)
  let b := (List.range 25).map fun i =>
    let x' := i % 5
    let y' := i / 5
    -- the source of (x', y'): y = x', and x = x' + 3 y' modulo 5
    let y := x'
    let x := (x' + 3 * y') % 5
    rotl64 (at_ a x y) (keccakRho.getD (5 * y + x) 0)
  let e := (List.range 25).map fun i =>
    let x := i % 5
    let y := i / 5
    at_ b x y ^^^ ((2 ^ 64 - 1 - at_ b (x + 1) y) &&& at_ b (x + 2) y)
  match e with
  | h :: r => (h ^^^ rc) :: r
  | [] => []

/-- The permutation of FIPS 202. [PRESUMED: log entry 31] -/
def keccakF (a : Lanes25) : Lanes25 := keccakRc.foldl keccakRound a

/-- The rate of SHAKE256 in bytes. -/
def shakeRate : Nat := 136

/-- Absorb one block. -/
def absorbBlock (a : Lanes25) (bs : List Byte) : Lanes25 :=
  keccakF (a.zipIdx.map fun (v, i) => if i < 17 then v ^^^ fieldNat bs (8 * i) 8 else v)

/-- Absorb a message, block by block; `n` bounds the number of blocks. [PRESUMED: log entry 31] -/
def absorbAll : Nat → Lanes25 → List Byte → Lanes25
  | 0, a, _ => a
  | n + 1, a, bs =>
    if bs.length < shakeRate then
      let last := bs ++ [0x1F] ++ List.replicate (shakeRate - 1 - bs.length) 0
      absorbBlock a (last.zipIdx.map fun (b, i) => if i = shakeRate - 1 then b ^^^ 0x80 else b)
    else absorbAll n (absorbBlock a (bs.take shakeRate)) (bs.drop shakeRate)

/-- SHAKE256 with up to 136 bytes of output. [PRESUMED: log entry 31] -/
def shake256 (bs : List Byte) (n : Nat) : List Byte :=
  ((absorbAll (bs.length / shakeRate + 1) (List.replicate 25 0) bs).flatMap (leBytes 8)).take n

end Sys2Proof.Machine
end

