-- ==== Sys2Proof/Machine/Towers.lean ====
section
/-! DEFINITION. Towers: resets of a die's logic, tower sleep, loss of through domains, the silt channel and the bridges
(R16 to R39, R254, R484, R485). -/

namespace Sys2Proof.Machine

/-! ### Resets of a die's logic -/

/-- SINGLE_HORIZON_LOGIC_RESET (R19, R22). -/
def execSingleHorizonLogicReset (t : Tower) (h : Horizon) (s : State) : Result :=
  let x := s.tower t.val
  .next (if x.horizonReset.contains h.val then s else s.setTower t.val { x with horizonReset := x.horizonReset ++ [h.val] })

/-- HORIZON_RESET_ENDS (R22): the refreshes that fell due are issued, then the held requests are served;
the logic stays in reset while a rail it uses is missing (R498). -/
def execHorizonResetEnds (t : Tower) (h : Horizon) (s : State) : Result :=
  .next (if (s.tower t.val).horizonReset.contains h.val && !s.horizonsUnpowered then s.endHorizonReset t.val h.val else s)

/-- CACHE_DIE_LEAVES_RESET (R23, R498). -/
def execCacheDieLeavesReset (t : Tower) (s : State) : Result :=
  .next (if (s.tower t.val).cacheReset && !s.cacheUnpowered t.val then s.endCacheReset t.val else s)

/-! ### Tower sleep (R25 to R27, R254, R484, R485) -/

/-- May the tower sleep: SLEEP_EN, no image shaped, its crown gated? (R485) -/
def State.maySleep (s : State) (t : Nat) : Bool :=
  s.rdB Reg.RST_LP_SLEEP_EN && s.rd Reg.SHP_STATUS_STATE == 0 && s.crownGated t && (s.tower t).sleep == .awake &&
    !(s.held.any fun r => r.holder == .sleep t)

/-- TOWER_IDLE (R485). -/
def execTowerIdle (t : Tower) (s : State) : Result :=
  .next (if s.maySleep t.val then s.setTower t.val { s.tower t.val with idle := true } else s)

/-- The idle time of every tower begins anew where a condition of R485 does not hold: SLEEP_EN is 0, or an image is shaped. -/
def State.restIdle (s : State) : State :=
  if s.rdB Reg.RST_LP_SLEEP_EN && s.rd Reg.SHP_STATUS_STATE == 0 then s
  else [0, 1, 2, 3].foldl (fun s t =>
    if (s.tower t).idle then s.setTower t { s.tower t with idle := false } else s) s

/-- A tower begins to sleep: its pages are written back, its crown is gated, and it admits no transfer (R25, R254,
R484). -/
def State.beginSleep (s : State) (t : Nat) : State :=
  let s := (s.flushPages t).gateCrown t
  s.setTower t { s.tower t with sleep := .entering, idle := false }

/-- TOWER_SLEEP_ENTRY (R25): an idle tower starts the sequence. [DEDUCED: log entry 20] -/
def execTowerSleepEntry (t : Tower) (s : State) : Result :=
  .next (if (s.tower t.val).idle && s.maySleep t.val then s.beginSleep t.val else s)

/-- DRAIN_END (R25, R480, R484). [DEDUCED: log entry 20] -/
def execDrainEnd (t : Tower) (s : State) : Result :=
  .next (if (s.tower t.val).sleep = .entering then s.drainEnd t.val else s)

/-- SLEEP_ENTRY_ABANDONED (R25): the drain has not finished within 20 µs. [DEDUCED: log entry 20] -/
def execSleepEntryAbandoned (t : Tower) (s : State) : Result :=
  let x := s.tower t.val
  .next (if x.sleep ≠ .entering then s
    else ((s.setTower t.val { x with sleep := .awake }).record .sleepEntryAbandoned (source t.val 0 0) []).serve
      (· == .sleep t.val))

/-- TOWER_SLEEP_EXIT (R26, R484). [DEDUCED: log entry 20] -/
def execTowerSleepExit (t : Tower) (s : State) : Result := .next (s.wake t.val)

/-- LANE_TRAINING_COMPLETE (R26): training has completed on every lane group. -/
def execLaneTrainingComplete (t : Tower) (s : State) : Result := .next (s.trained t.val)

/-- Package standby ends (R484). -/
def State.endStandby (s : State) : State :=
  if !s.standby then s
  else
    let s := [0, 1, 2, 3].foldl State.endSleep { s with standby := false }
    (s.clrB Reg.RST_LP_STANDBY).record .lowPowerExit (source 0 0 2) []

/-- A reset abandons an entry or exit of a low-power state (R486): a tower on its way to sleep is awake, one on its way out sleeps on
until the next access, and package standby that has not been entered is not entered; RST_LP.STANDBY is always-on, and no reset but P
changes it (R481). [DEDUCED: log entry 26] -/
def State.abandonSleep (s : State) : State :=
  let entering := [0, 1, 2, 3].any fun t => (s.tower t).sleep == .entering
  [0, 1, 2, 3].foldl (fun s t =>
    let x := s.tower t
    match x.sleep with
    | .entering => (s.setTower t { x with sleep := .awake }).serve (· == .sleep t)
    | .leaving => if s.sleepHeld t then s else s.setTower t { x with sleep := .asleep }
    | _ => s) { s with standby := s.standby && !entering }

/-! ### Loss of a through domain (R28 to R32) -/

/-- A through domain that carries uplink repeaters stays off: the event, and the package is reported failed to the fabric the first
time (R32). [DEDUCED: log entry 20] -/
def State.isolate (s : State) (t p : Nat) : State :=
  let x := s.tower t
  if p = 0 then s
  else
    let s := (s.setTower t { x with isolated := true }).record .towerIsolated (source t p 1) []
    if x.isolated then s else s.raiseNotice 14 (noticeBytes s.physSelf s.physSelf 1 0)

/-- A write cut off by the loss: its outcome at the receiver of this part (R29). [DEDUCED: log entry 20] -/
def State.cutWrite (s : State) (c : Cut) : State :=
  match c.outcome with
  | .old => s
  | .new => s.writeBytes c.addr (c.data.map some)
  | .poison => s.writeBytes c.addr (List.replicate c.data.length none)

/-- The write's originator gets PATH_LOST (R28). A store that completes so changes nothing of its thread but that the sync
operations ordered after it may go (R369). [DEDUCED: log entry 20] -/
def State.cutDone (s : State) (c : Cut) : State :=
  match c.sink with
  | .thread core th => s.flushThread core.val th
  | .fabric b src tag => s.finishAccess (.fabric b.val src tag) stPathLost []
  | .dma p ch =>
    let h := s.host p.val
    match Sparse.get none h.dma ch.val with
    | some j =>
      let j := { j with started := true, status := if j.status = 0 then stPathLost else j.status }
      s.setHost p.val { h with dma := Sparse.put none h.dma ch.val (some j) }
    | none => s
  | .none => s

/-- THROUGH_DOMAIN_LOST (R27 to R32): the domain at position `p` (a crown has none), with the writes it cut off.
[DEDUCED: log entry 20] -/
def execThroughDomainLost (t : Tower) (p : Fin 7) (cuts : List Cut) (s : State) : Result :=
  let x := s.tower t.val
  let p := p.val
  .next (if x.lost.contains p ∨ (x.sleep = .asleep ∧ p ≠ 0) then s
    else
      let mine := cuts.filter fun c => (s.domains c.orig c.addr).contains (t.val, p)
      let again := x.lostOnce.contains p
      let s := s.setTower t.val { x with
        lost := x.lost ++ [p]
        lostOnce := if again then x.lostOnce else x.lostOnce ++ [p]
        staysOff := if again then x.staysOff ++ [p] else x.staysOff }
      let s := s.record .throughDomainLost (source t.val p 1) []
      let s := mine.foldl State.cutDone (mine.foldl State.cutWrite s)
      let gone := s.held.filter s.heldLost
      let s := { s with held := s.held.filter fun r => !s.heldLost r }
      let s := gone.foldl (fun s r =>
        s.finishAccess r.sink stPathLost (if r.data = [] then List.replicate r.len none else [])) s
      if again then s.isolate t.val p else s)

/-- The HOME_LOST pages of a tower are written back again (R253). -/
def State.writeBackLost (s : State) (t : Nat) : State :=
  (s.homeLostPages t).foldl (fun s pg => s.enqueueMove t ⟨.leave, pg, 0⟩) s

/-- THROUGH_DOMAIN_RESTORE (R31, R32, R253): the one attempt, and whether it succeeds. -/
def execThroughDomainRestore (t : Tower) (p : Fin 7) (ok : Bool) (s : State) : Result :=
  let x := s.tower t.val
  let p := p.val
  .next (if !x.lost.contains p ∨ x.staysOff.contains p then s
    else if ok then
      ((s.setTower t.val { x with lost := x.lost.filter fun q => q != p }).record .throughDomainRestored
        (source t.val p 1) []).writeBackLost t.val
    else (s.setTower t.val { x with staysOff := x.staysOff ++ [p] }).isolate t.val p)

/-! ### The silt channel (R33 to R36) -/

/-- Have all lane groups of a path of a tower failed beyond sparing, `n` of them from number `g` on (R252)? -/
def State.groupsGone (s : State) (t g n : Nat) : Bool :=
  (List.range n).all fun i => decide (5 ≤ (Sparse.get {} (s.tier t).lanes (g + i)).failed.length)

/-- Does no TSV path reach a die of a tower (R34)? The uplink is cut where one of the horizons' through domains is lost or no lane
group of a direction is left; the crown's path crosses the cache die's relay too, and a horizon has its memory channels.
[DEDUCED: log entry 20] -/
def State.siltOnly (s : State) (t p : Nat) : Bool :=
  p != 0 && ((stackDomains t).any s.domainLost || s.groupsGone t 320 96 || s.groupsGone t 416 96 ||
    (p == 7 && s.domainLost (t, 6)) || (decide (p ≤ 5) && s.groupsGone t (64 * (5 - p)) 64))

/-- Does the silt channel of a tower carry every type of frame (R34): at boot, until the tower's lanes have completed training, and in
test mode? [DEDUCED: log entry 20] -/
def State.siltFull (s : State) (t : Nat) : Bool :=
  decide (s.rd Reg.MGT_STATUS_PHASE < 8) || s.boot.siltTest || (s.tower t).untrained

/-- Is the silt channel of a tower in use between the two dies of a frame (R34): for all traffic, or in recovery for a die that no TSV
path reaches? Every hop then acknowledges the frame (R36). [DEDUCED: log entry 20] -/
def State.siltOpen (s : State) (t : Nat) (f : List Byte) : Bool :=
  s.siltFull t || s.siltOnly t (fieldNat f 0 1 % 8) || s.siltOnly t (fieldNat f 1 1 % 8)

/-- Does the silt channel of a tower carry a frame between two dies (R34)? In recovery it carries register access and log records, so
no bulk data and no reserved type. [DEDUCED: log entry 20] -/
def State.siltCarries (s : State) (t : Nat) (f : List Byte) : Bool :=
  let ty := fieldNat f 2 1
  s.siltFull t || (s.siltOpen t f && (ty == 1 || ty == 2 || ty == 3 || ty == 5))

def siltKey (t p : Nat) (d : SiltDir) : Nat := (t * 8 + p) * 2 + (match d with | .up => 0 | .down => 1)
def State.siltSender (s : State) (t p : Nat) (d : SiltDir) : SiltSender := Sparse.get {} s.silt (siltKey t p d)
def State.setSilt (s : State) (t p : Nat) (d : SiltDir) (x : SiltSender) : State :=
  { s with silt := Sparse.put {} s.silt (siltKey t p d) x }

def siltBack : SiltDir → SiltDir
  | .up => .down
  | .down => .up

/-- DEST and SRC bytes (R35). -/
def siltAddr (t p : Nat) : Nat := t * 8 + p

/-- A frame (R35). -/
def siltFrame (dest src ty : Nat) (bs : List Byte) : List Byte :=
  let body := leBytes 1 dest ++ leBytes 1 src ++ leBytes 1 ty ++ leBytes 1 (min 64 bs.length) ++ padBytes 64 bs
  body ++ leBytes 4 (crc32 body)

def siltOk (f : List Byte) : Bool := f.length == 72 && crc32 (f.take 68) == fieldNat f 68 4

/-- The next die in a direction: up is toward the crown. -/
def siltNext (p : Nat) : SiltDir → Nat
  | .up => p + 1
  | .down => p - 1

/-- Send a frame on a link, or queue it behind the one that waits for its acknowledgement (R36). [DEDUCED: log entry 20] -/
def State.siltSend (s : State) (t p : Nat) (d : SiltDir) (f : List Byte) : State :=
  let x := s.siltSender t p d
  match x.waiting with
  | some _ => s.setSilt t p d { x with queue := x.queue ++ [f] }
  | none => (s.setSilt t p d { x with waiting := some f, resends := 0 }).emit (.silt t p d f)

/-- The frame that was waiting is done with, and the next one goes out; so abandoning a transfer drops only the frame that was
waiting, and frames queued behind it still go out. [DESIGN CHOICE: log entry 20] -/
def State.siltDone (s : State) (t p : Nat) (d : SiltDir) : State :=
  let x := s.siltSender t p d
  match x.queue with
  | [] => s.setSilt t p d {}
  | f :: r => (s.setSilt t p d { waiting := some f, resends := 0, queue := r }).emit (.silt t p d f)

/-- A frame goes toward its destination die of the tower: a frame whose DEST names another tower is routed by its position code
within the tower it is in. [DESIGN CHOICE: log entry 20] -/
def State.siltRoute (s : State) (t p : Nat) (f : List Byte) : State :=
  let q := fieldNat f 0 1 % 8
  s.siltSend t p (if p < q then .up else .down) f

/-- A die takes a payload that is for it. [DEDUCED: log entry 20] -/
def State.siltTake (s : State) (t p : Nat) (f : List Byte) : State :=
  { s with siltTaken := s.siltTaken ++ [(siltAddr t p, (f.drop 4).take (fieldNat f 3 1))] }

/-- The acknowledge that a die sends to the neighbour a frame came from (R36). -/
def State.siltAck (s : State) (t p : Nat) (d : SiltDir) : State :=
  s.emit (.silt t p (siltBack d) (siltFrame (siltAddr t (siltNext p (siltBack d))) (siltAddr t p) 0x06 []))

/-- A frame other than an acknowledge is received whole at a die: checked, acknowledged to the neighbour it came from, and
forwarded, or served where it is for this die; one that the channel does not carry is acknowledged and goes no further, and where the
channel is not in use at all nothing happens (R34 to R36). [DEDUCED: log entry 20] -/
def State.siltReceive (s : State) (t p : Nat) (d : SiltDir) (ty : Nat → Bool) (f : List Byte)
    (serve : State → State) : State :=
  if !siltOk f ∨ !ty (fieldNat f 2 1) ∨ !s.siltOpen t f then s
  else if !s.siltCarries t f then s.siltAck t p d
  else
    let s := s.siltAck t p d
    if fieldNat f 0 1 % 32 = siltAddr t p then serve s else s.siltRoute t p f

/-- SILT_REGISTER_READ (R35): the die answers with a read response, whose payload the manual does not lay out. -/
def execSiltRegisterRead (t : Tower) (p : Pos) (dir : SiltDir) (frame : List Byte) (s : State) : Result :=
  .next (s.siltReceive t.val p.val dir (· == 1) frame fun s =>
    let (bs, s) := s.drawBytes 64
    s.siltRoute t.val p.val (siltFrame (fieldNat frame 1 1) (siltAddr t.val p.val) 0x03 bs))

/-- SILT_REGISTER_WRITE (R35). -/
def execSiltRegisterWrite (t : Tower) (p : Pos) (dir : SiltDir) (frame : List Byte) (s : State) : Result :=
  .next (s.siltReceive t.val p.val dir (· == 2) frame fun s => s.siltTake t.val p.val frame)

/-- SILT_READ_RESPONSE (R35). -/
def execSiltReadResponse (t : Tower) (p : Pos) (dir : SiltDir) (frame : List Byte) (s : State) : Result :=
  .next (s.siltReceive t.val p.val dir (· == 3) frame fun s => s.siltTake t.val p.val frame)

/-- SILT_BULK_DATA (R35). -/
def execSiltBulkData (t : Tower) (p : Pos) (dir : SiltDir) (frame : List Byte) (s : State) : Result :=
  .next (s.siltReceive t.val p.val dir (· == 4) frame fun s => s.siltTake t.val p.val frame)

/-- SILT_LOG_RECORD (R35). -/
def execSiltLogRecord (t : Tower) (p : Pos) (dir : SiltDir) (frame : List Byte) (s : State) : Result :=
  .next (s.siltReceive t.val p.val dir (· == 5) frame fun s => s.siltTake t.val p.val frame)

/-- RESERVED_TYPE_FRAME (R36): discarded and acknowledged. -/
def execReservedTypeFrame (t : Tower) (p : Pos) (dir : SiltDir) (frame : List Byte) (s : State) : Result :=
  .next (if !siltOk frame ∨ (1 ≤ fieldNat frame 2 1 ∧ fieldNat frame 2 1 ≤ 6) ∨ !s.siltOpen t.val frame then s
    else s.siltAck t.val p.val dir)

/-- SILT_ACKNOWLEDGE (R36): an acknowledge frame that travels in `dir` ends the wait of the frame sent the other way.
[DEDUCED: log entry 20] -/
def execSiltAcknowledge (t : Tower) (p : Pos) (dir : SiltDir) (frame : List Byte) (s : State) : Result :=
  .next (if !siltOk frame ∨ fieldNat frame 2 1 ≠ 6 ∨ ((s.siltSender t.val p.val (siltBack dir)).waiting).isNone then s
    else s.siltDone t.val p.val (siltBack dir))

/-- SILT_ACK_TIMEOUT (R36): the frame is sent again, up to 8 times; then the transfer is abandoned. -/
def execSiltAckTimeout (t : Tower) (p : Pos) (dir : SiltDir) (s : State) : Result :=
  let x := s.siltSender t.val p.val dir
  .next (match x.waiting with
  | none => s
  | some f =>
    if x.resends < 8 then
      (s.setSilt t.val p.val dir { x with resends := x.resends + 1 }).emit (.silt t.val p.val dir f)
    else (s.record .siltLinkFailure (source t.val p.val 0) []).siltDone t.val p.val dir)

/-! ### Bridges -/

/-- BRIDGE_FAILURE (R39): 0 T0–T1, 1 T2–T3, 2 T0–T2, 3 T1–T3. [DEDUCED: log entry 20] -/
def execBridgeFailure (bridge : Fin 4) (s : State) : Result :=
  .next (if s.bridgesFailed.contains bridge.val then s
    else ({ s with bridgesFailed := s.bridgesFailed ++ [bridge.val] } : State).record .bridgeFailure
      (source (bridgeTowers bridge.val).1 0 1) [])

end Sys2Proof.Machine
end

