-- ==== Sys2Proof/Machine/Image.lean ====
section
/-! DEFINITION. Structure images: their layout (R350, R351, R360, R394), what step 4 of shaping puts in force (R353), and the
image checks (R352) with the rules of the chapters they name. -/

namespace Sys2Proof.Machine

/-! ### Layout (R350, R351) -/

/-- An entry of a section table. -/
structure Sect where
  ty : Nat
  count : Nat
  off : Nat
  /-- its reserved bytes are zero -/
  clean : Bool
deriving DecidableEq, Repr

/-- Bytes of a record of each section type. -/
def recLen (ty : Nat) : Nat :=
  [0, 4, 64, 64, 80, 8, 64, 16, 32, 48, 128, 8, 16, 8, 16, 24].getD ty 0

def sectTable (b : List Byte) (off n : Nat) : List Sect :=
  (List.range n).map fun i =>
    let o := off + 16 * i
    ⟨fieldNat b o 2, fieldNat b (o + 4) 4, fieldNat b (o + 8) 8, fieldNat b (o + 2) 2 == 0⟩

/-- The part of a logical coordinate: its index in the part table. -/
def partOf (b : List Byte) (coord : Nat) : Option Nat :=
  (List.range (min 16384 (fieldNat b 12 4))).find? fun i => fieldNat b (fieldNat b 48 8 + 16 * i) 2 == coord

def partTable (b : List Byte) (i : Nat) : List Sect :=
  let o := fieldNat b 48 8 + 16 * i
  sectTable b (fieldNat b (o + 8) 8) (min 4096 (fieldNat b (o + 4) 4))

/-- The section table of the common part. -/
def commonTable (b : List Byte) : List Sect := sectTable b (fieldNat b 40 8) (min 4096 (fieldNat b 10 2))

/-- The sections a package applies: the common part with its own. -/
def sectsOf (b : List Byte) (coord : Nat) : List Sect :=
  commonTable b ++
    (match partOf b coord with
      | some i => partTable b i
      | none => [])

/-- The records of a section. -/
def Sect.records (b : List Byte) (x : Sect) : List (List Byte) :=
  (List.range x.count).map fun i => padBytes (recLen x.ty) (b.drop (x.off + recLen x.ty * i))

def recordsOf (b : List Byte) (ss : List Sect) (ty : Nat) : List (List Byte) :=
  match ss.find? (·.ty == ty) with
  | some x => x.records b
  | none => []

/-- A work unit descriptor (R360). -/
def unitOf (r : List Byte) : UnitDesc :=
  let cond (v : Nat) : ReadyCond := (condOf v).getD ⟨0x1FFFF, 0, false⟩
  { core := fieldNat r 0 2, thread := fieldNat r 2 1, kind := fieldNat r 3 1, phase := fieldNat r 4 2, mb := fieldNat r 6 2
    slotEnd := bit (fieldNat r 8 1) 0, entry := fieldNat r 12 4, wait0 := cond (fieldNat r 16 8), wait1 := cond (fieldNat r 24 8)
    signal := fieldNat r 32 4 % 2 ^ 17, footF := fieldNat r 36 2, lenF := fieldNat r 38 2, footB := fieldNat r 40 2
    lenB := fieldNat r 42 2, mbsz := fieldNat r 44 4 }

def urgentOf (r : List Byte) : UrgentDesc :=
  { core := fieldNat r 0 2, count := fieldNat r 6 2, kind := fieldNat r 3 1, entry := fieldNat r 12 4, signal := fieldNat r 32 4 % 2 ^ 17
    footF := fieldNat r 36 2, lenF := fieldNat r 38 2, footB := fieldNat r 40 2, lenB := fieldNat r 42 2 }

def regionRec (r : List Byte) : Region :=
  ⟨fieldNat r 0 4, fieldNat r 4 4, fieldNat r 8 1, fieldNat r 10 2, fieldNat r 12 2⟩

def barrierRec (r : List Byte) : Barrier := ⟨fieldNat r 0 4, fieldNat r 4 4, fieldNat r 8 2, fieldNat r 10 1⟩

def phaseRecord (r : List Byte) : PhaseRec :=
  ⟨fieldNat r 0 2, bit (fieldNat r 2 1) 0, fieldNat r 3 1, (List.range 4).map fun i => fieldNat r (4 + i) 1⟩

/-- The words of a chain record: core, chain, header, stages. -/
def chainRec (r : List Byte) : Nat × Nat × Nat × List Nat :=
  (fieldNat r 0 2, fieldNat r 2 1, fieldNat r 8 8, (List.range 8).map fun i => fieldNat r (16 + 8 * i) 8)

/-! ### What step 4 puts in force (R353, R229, R311) -/

/-- LOCAL and ADAPT of a TIER record. -/
def State.putTier (s : State) (r : List Byte) : State :=
  let adapt := fieldNat r 4 4 % 2 ^ 20
  let local_ := fieldNat r 0 4 % 2 ^ 20 ||| (if s.bridgesFailed = [] then 0 else adapt)
  let s := (s.wr Reg.TIER_LOCAL_ADAPT adapt).wr Reg.TIER_LOCAL_LOCAL local_
  [0, 1, 2, 3].foldl (fun s t =>
    let f (k : Nat) : Nat := fieldNat r (8 + 12 * t + 2 * k) 2
    ((((((s.wr (Reg.TIER_CFG_POOL_MIB t) (f 0)).wr (Reg.TIER_QUOTA_PIN t) (f 1)).wr (Reg.TIER_QUOTA_PHASE t) (f 2)).wr
      (Reg.TIER_QUOTA_STASH t) (f 3)).wr (Reg.TIER_QUOTA_GRADBUF t) (f 4)).wr (Reg.TIER_QUOTA_STATE t) (f 5))) s

/-- A chain descriptor of the image. -/
def State.putChain (s : State) (r : List Byte) : State :=
  let (c, d, h, st) := chainRec r
  let n := crownOf c
  let l := localOf c
  let s := st.zipIdx.foldl (fun s (v, i) => s.wr (Reg.CRN_VEC_STG_ENTRY n l d i) v) s
  let s := ((s.wr (Reg.CRN_VEC_HDR_NST n l d) (bits h 62 60)).wr (Reg.CRN_VEC_HDR_DREG n l d) (bits h 59 54)).wr
    (Reg.CRN_VEC_HDR_DSREG n l d) (bits h 53 48)
  let s := ((s.wr (Reg.CRN_VEC_HDR_SSREG n l d) (bits h 47 42)).wr (Reg.CRN_VEC_HDR_IXREG n l d) (bits h 41 36)).wr
    (Reg.CRN_VEC_HDR_SMASK n l d) (bits h 35 35)
  (s.wr (Reg.CRN_VEC_HDR_MXSREG n l d) (bits h 34 29)).wr (Reg.CRN_VEC_HDR_VALID n l d) (bits h 63 63)

/-- Spares go into the entries that no spare still TAKEN or LOST holds, in order (R306, R312). [DEDUCED: log entry 21] -/
def State.putSpares (s : State) (rs : List (List Byte)) : State :=
  let free := (List.range 32).filter fun k => !s.rdB (Reg.HB_SPARE_TAKEN k) && !s.rdB (Reg.HB_SPARE_LOST k)
  (rs.zip free).foldl (fun s (r, k) =>
    let v := fieldNat r 0 8
    let s := ((s.setB (Reg.HB_SPARE_VALID k)).wr (Reg.HB_SPARE_SPARE k) (bits v 13 0)).wr (Reg.HB_SPARE_XLO k) (bits v 25 22)
    let s := ((s.wr (Reg.HB_SPARE_XHI k) (bits v 29 26)).wr (Reg.HB_SPARE_YLO k) (bits v 33 30)).wr (Reg.HB_SPARE_YHI k)
      (bits v 37 34)
    (s.wr (Reg.HB_SPARE_ZLO k) (bits v 42 38)).wr (Reg.HB_SPARE_ZHI k) (bits v 47 43)) s

/-- CRN_ACC_SAVE of a core. -/
def State.putSave (s : State) (c : Nat) (r : List Byte) : State :=
  let v := fieldNat r 0 8
  ((s.wr (Reg.CRN_ACC_SAVE_BASE (crownOf c) (localOf c)) (bits v 7 0)).wr (Reg.CRN_ACC_SAVE_F_KIB (crownOf c) (localOf c))
    (bits v 15 8)).wr (Reg.CRN_ACC_SAVE_B_KIB (crownOf c) (localOf c)) (bits v 25 16)

/-- What one package puts in force of its sections, but the spares: registers, tables and the state they replace. -/
def State.putPart (s : State) (b : List Byte) (ss : List Sect) : State :=
  let recs (ty : Nat) : List (List Byte) := recordsOf b ss ty
  let roles := (recs 1).zipIdx.filterMap fun (r, c) => if fieldNat r 0 1 = 0 then none else some (c, fieldNat r 0 1)
  let s := (recs 6).foldl State.putTier s
  let s := (recs 1).zipIdx.foldl (fun s (r, c) =>
    if isFlex c then s.wr (Reg.CRN_FLEX_CFG_EN (crownOf c) (localOf c)) (bits (fieldNat r 0 4) 8 8) else s) s
  let s := (recs 4).foldl State.putChain s
  let s := (recs 5).zipIdx.foldl (fun s (r, c) => s.putSave c r) s
  let s := s.wr Reg.RED_CFG_MODE (fieldNat b 36 1)
  let s := match recs 10 with
    | r :: _ => s.wr Reg.UPD_CFG_SWEEP_AT (fieldNat r 0 2)
    | [] => s
  let phases := (recs 14).map phaseRecord
  let s := ((s.wr Reg.SHP_SEED_SEED (fieldNat b 24 8)).wr Reg.PCAP_LEARN_NPHASE phases.length).wr Reg.PCAP_LEARN_LEARNED 0
  let s := s.modPower fun p => { p with phases, learned := [], current := none, run := none }
  let s := s.modFabric fun f => { f with
    groups := recs 8, buckets := recs 9, plan := (recs 10).drop 1, guards := [], shardMaps := [], copies := [], windows := [], deliveries := [], injected := [] }
  let s := [0, 1, 2, 3].foldl (fun s t => s.clearDirectory t) s
  { s with
    units := (recs 2).map unitOf
    urgents := (recs 3).map urgentOf
    barriers := (recs 12).map barrierRec
    syncInit := (recs 13).map fun r => (fieldNat r 0 4 % 2 ^ 17, fieldNat r 4 4)
    regions := (recs 7).map regionRec
    roles
    entries := [] }

/-- Everything of step 4 but power and gating. -/
def State.putImage (s : State) (b : List Byte) (ss : List Sect) : State :=
  { (s.putPart b ss).putSpares (recordsOf b ss 11) with sync := [], barrierGens := [] }

/-! ### Memory contents of the image -/

/-- Copy the DATA records in order: the index of the first whose transfer fails, if any. -/
def State.copyData (s : State) (data : List DataByte) (rs : List (List Byte)) : Option Nat × State :=
  rs.zipIdx.foldl (fun (x : Option Nat × State) (r, i) =>
    let n := fieldNat r 8 8
    if x.1.isSome || n == 0 then x
    else
      let (st, s) := x.2.writeAwait .mgmt (fieldNat r 0 8) ((data.drop (fieldNat r 16 8)).take n)
      (if st = 0 then none else some i, s)) (none, s)

/-- A table of `n` records of `w` bytes in device memory, as it is read once for the image: a word that does not come is a free value.
[DEDUCED: log entry 21; DESIGN CHOICE: log entry 12] -/
def State.readTable {α : Type} (s : State) (a w n : Nat) (of : List Byte → α) : List α × State :=
  if n = 0 then ([], s)
  else
    let (_, _, bs, s) := s.readAwait .mgmt a (w * n)
    ((List.range n).map fun i => of ((bs.drop (w * i)).take w), s)

/-- The tables of a list of records: for each its address and its number of entries. -/
def State.readAll {α : Type} (s : State) (rs : List (List Byte)) (w : Nat) (at_ : List Byte → Nat × Nat) (of : List Byte → α) :
    List (List α) × State :=
  rs.foldl (fun (l, s) r =>
    let (a, n) := at_ r
    let (t, s) := State.readTable s a w n of
    (l ++ [t], s)) ([], s)

/-- The guard lists, the shard maps and the copy descriptors that the image's records point to (R273, R313, R315) are read once, as it
is shaped or as a spare applies a part: R356 keeps them unchanged in memory until the image is unshaped.
[DEDUCED: log entry 21] -/
def State.readTables (s : State) : State :=
  let (guards, s) := s.readAll s.fabric.groups 4 (fun r => (fieldNat r 16 8, min 64 (fieldNat r 10 2))) guardOf
  let (shardMaps, s) := s.readAll s.fabric.buckets 16 (fun r => (fieldNat r 24 8, min 65536 (fieldNat r 20 4))) shardRec
  let (copies, s) := s.readAll s.fabric.plan 64 (fun r => (fieldNat r 56 8, min 8 (fieldNat r 103 1))) copyDescOf
  s.modFabric fun f => { f with guards, shardMaps, copies }

/-! ### The checks (R352) -/

/-- A failed check: its code, section type and record index. -/
abbrev Failed := Nat × Nat × Nat

def failIf (bad : Bool) (f : Failed) : Option Failed := if bad then some f else none

/-- The first failure of a list. -/
def firstFail (l : List (Option Failed)) : Option Failed := l.findSome? id

def zeroAt (r : List Byte) (o n : Nat) : Bool := ((r.drop o).take n).all (· == 0)

/-- Reserved bits of a stage word (R179, R184, R186). -/
def stageClean (k : Nat) : Bool :=
  match stKind k with
  | 3 | 4 => bits k 34 1 == 0
  | 6 => bits k 34 32 == 0
  | 7 => bits k 34 8 == 0
  | 9 => bits k 34 7 == 0
  | 13 => bits k 4 0 == 0 && bits k 30 27 == 0
  | 14 => bits k 4 0 == 0
  | _ => bits k 34 0 == 0

/-- The reserved fields of a record are zero. -/
def recordClean (ty i : Nat) (r : List Byte) : Bool :=
  match ty with
  | 1 => decide (fieldNat r 0 4 < 512)
  | 2 => decide (fieldNat r 8 1 < 2) && zeroAt r 9 3 && zeroAt r 48 16 && decide (fieldNat r 32 4 < 2 ^ 17) &&
      bits (fieldNat r 16 8) 44 32 == 0 && bits (fieldNat r 24 8) 44 32 == 0
  | 3 => zeroAt r 2 1 && zeroAt r 4 2 && zeroAt r 8 4 && zeroAt r 16 16 && zeroAt r 44 20 && decide (fieldNat r 32 4 < 2 ^ 17)
  | 4 =>
    let (_, _, h, st) := chainRec r
    zeroAt r 3 5 && bits h 28 0 == 0 && (st.take (bits h 62 60 + 1)).all stageClean
  | 5 => decide (fieldNat r 0 8 < 2 ^ 26)
  | 6 => decide (fieldNat r 0 4 < 2 ^ 20) && decide (fieldNat r 4 4 < 2 ^ 20) && zeroAt r 56 8
  | 7 => zeroAt r 9 1 && zeroAt r 14 2
  | 8 => decide (fieldNat r 6 1 < 4) && decide (fieldNat r 7 1 < 8) && zeroAt r 12 4 && zeroAt r 24 8
  | 9 => decide (fieldNat r 0 1 < 64) && decide (fieldNat r 2 2 < 4096) && decide (fieldNat r 12 4 < 2 ^ 17)
  | 10 => if i = 0 then zeroAt r 2 126
      else decide (fieldNat r 99 1 < 32) && decide (fieldNat r 100 1 < 32) && decide (fieldNat r 110 1 < 8) && zeroAt r 111 1 &&
        zeroAt r 117 3 && zeroAt r 124 4 && decide (fieldNat r 120 4 < 2 ^ 17)
  | 11 => bits (fieldNat r 0 8) 21 14 == 0 && bits (fieldNat r 0 8) 63 48 == 0
  | 12 => zeroAt r 11 5
  | 14 => decide (fieldNat r 2 1 < 2) && zeroAt r 8 8
  | _ => true

/-- Does a section lie within the image? -/
def Sect.within (len : Nat) (x : Sect) : Bool := decide (x.off + x.count * recLen x.ty ≤ len)

/-- Check 4 of the sections `ss`, which stand beside the sections `with_` of the same package. -/
def sectChecks (b : List Byte) (with_ ss : List Sect) : List (Option Failed) :=
  let len := b.length
  ss.zipIdx.map (fun (x, i) =>
    failIf (decide (x.ty < 1) || decide (15 < x.ty) || !x.clean || !x.within len || (with_ ++ ss.take i).any (·.ty == x.ty))
      (4, x.ty % 256, 0)) ++
  ss.flatMap fun x => (x.records b).zipIdx.map fun (r, i) =>
    failIf (!recordClean x.ty i r || (x.ty == 15 && decide (len < fieldNat r 16 8 + fieldNat r 8 8))) (4, x.ty, i)

/-- Check 4: the header, the tables, the common part and every package part. [DEDUCED: log entry 21] -/
def check4 (b : List Byte) : Option Failed :=
  let len := b.length
  let np := fieldNat b 12 4
  let ns := fieldNat b 10 2
  firstFail
    ([failIf (decide (ns < 1) || decide (4096 < ns) || decide (np < 1) || decide (16384 < np)) (4, 0, 0),
      failIf (!(zeroAt b 37 3 && zeroAt b 56 8 && zeroAt b 128 128)) (4, 0, 0),
      failIf (decide (len < fieldNat b 40 8 + 16 * ns) || decide (len < fieldNat b 48 8 + 16 * np)) (4, 0, 0)] ++
    (List.range (min 16384 np)).map (fun i =>
      let o := fieldNat b 48 8 + 16 * i
      failIf (fieldNat b (o + 2) 2 != 0 || decide (len < fieldNat b (o + 8) 8 + 16 * fieldNat b (o + 4) 4)) (4, 0, i)) ++
    sectChecks b [] (commonTable b) ++
    (List.range (min 16384 np)).flatMap (fun i => sectChecks b (commonTable b) (partTable b i)))

/-- The class of a conversion control field (R65). -/
def ctlClass (c : Nat) : Nat := bits c 5 3

/-- A stash conversion, in a QUANT or a TAP stage, has one of the formats of R213 (R214, R217). -/
def stashOk (k : Nat) : Bool :=
  (stKind k != 13 && stKind k != 14) || ctlClass (stCtl k) != 3 || stFmt k == 0x01 || stFmt k == 0x03 || stFmt k == 0x04

/-- A stage names no format code that the table does not allow there and no reserved value of a conversion control field (R43, R65),
whether or not its chain is VALID: scales alone and accumulators are no elements that a stage reads or stores. -/
def stageCodes (k : Nat) : Bool :=
  if 13 ≤ stKind k then decide (stFmt k ≤ 0x11) && ctlValid (stCtl k) else decide (stVfmt k ≤ 0x11)

/-- A copy descriptor obeys R273. -/
def CopyDesc.ok (d : CopyDesc) : Bool :=
  let fmtOk := match d.kind with
    | 0 => decide (1 ≤ d.fmt) && decide (d.fmt ≤ 4)
    | 1 => decide (0x0C ≤ d.fmt) && decide (d.fmt ≤ 0x11)
    | 2 => d.fmt == 0x08 || d.fmt == 0x09
    | _ => false
  fmtOk && d.clean && ctlValid d.ctl && ctlClass d.ctl == 1 && decide (d.ocnt ≤ 256)

/-- The STATE pages of an entry. -/
def State.statePages (s : State) (e : PlanEntry) : List Nat :=
  ((e.regions.flatMap fun (_, base, n) => pagesOf (base, n)).eraseDups).filter fun pg => match s.regionOf pg with
    | some r => r.cls == 4
    | none => false

def mxMoment (f : Nat) : Bool := f == 0x0C || f == 0x0D || f == 0x11

/-- Plan entry `i` obeys R257, R258 and R273. -/
def State.planOk (s : State) (i : Nat) (r : List Byte) : Bool :=
  let e := planOf r
  -- a format code of a moment is one of stored elements though the rule uses no such moment (R43)
  let codes := decide (e.m1fmt ≤ 0x11) && decide (e.m2fmt ≤ 0x11)
  let dims := decide (1 ≤ e.nrow) && decide (e.nrow ≤ 2 ^ 24) && decide (1 ≤ e.ncol) && decide (e.ncol ≤ 2 ^ 24) &&
    decide (e.ncopy ≤ 8) && (s.fabric.copies.getD i []).all CopyDesc.ok
  if e.owner then
    dims && codes && decide (e.rule ≤ 7) && e.short != 3 && decide (1 ≤ e.contrib) && decide (e.contrib ≤ 16384) &&
      (!e.hasM1 || mxMoment e.m1fmt) && (!e.hasM2 || mxMoment e.m2fmt) &&
      ctlValid e.ctlw && ctlClass e.ctlw == 0 && ctlValid e.ctlm && ctlClass e.ctlm == 6 &&
      (!e.factored || (decide (0 < e.eps) && decide (e.eps ≤ 0x7F800000))) &&
      (s.statePages e).all (fun pg => (s.pageHome pg).1 == e.tower) &&
      (!e.lamb || decide ((s.statePages e).length ≤ s.quotaFrames e.tower 4))
  else
    dims && zeroAt r 8 48 && zeroAt r 72 31 && zeroAt r 104 6 && zeroAt r 112 5

/-- The rules of a record's own chapter (check 5), with the image's tables in force in `s`. -/
def State.recordOk (s : State) (all : List (List Byte)) (ty i : Nat) (r : List Byte) : Bool :=
  match ty with
  | 1 => decide (i < 576) && decide (fieldNat r 0 1 ≤ 2) && (isFlex i || bits (fieldNat r 0 4) 8 8 == 0)
  | 2 =>
    let u := unitOf r
    decide (u.core < 576) && decide (u.thread ≤ 1) && decide (u.kind ≤ 4) && decide (u.phase ≤ 65534) &&
      (decide (u.mb ≤ 1023) || u.mb == 0xFFFF) && (condOf (fieldNat r 16 8)).isSome && (condOf (fieldNat r 24 8)).isSome &&
      Sparse.get 0 s.roles u.core != 0 &&
      (isFlex u.core || ((u.kind != 0 || u.thread == 0) && ((u.kind != 1 && u.kind != 2) || u.thread == 1))) &&
      (u.mb == 0xFFFF || (decide (1 ≤ u.mbsz) && decide (u.mbsz ≤ 256) &&
        s.units.all fun v => v.mb != u.mb || v.mbsz == u.mbsz)) &&
      decide (u.footF + u.lenF ≤ 192) && decide (u.footB + u.lenB ≤ 384)
  | 3 =>
    let u := urgentOf r
    decide (i < 64) && decide (1 ≤ u.count) && decide (u.core + u.count ≤ 576) && decide (fieldNat r 3 1 ≤ 4) &&
      decide (u.footF + u.lenF ≤ 192) && decide (u.footB + u.lenB ≤ 384)
  | 4 =>
    let (c, d, h, st) := chainRec r
    let st := st.take (bits h 62 60 + 1)
    decide (c < 576) && decide (d < 16) && st.all stageCodes && (!bit h 63 || (chainRules st (bit h 35) && st.all stashOk))
  | 5 =>
    let v := fieldNat r 0 8
    decide (i < 576) && decide (bits v 15 8 ≤ 192) && decide (bits v 25 16 ≤ 384)
  | 6 => i == 0 && [0, 1, 2, 3].all fun t => decide (fieldNat r (8 + 12 * t) 2 ≤ 768) &&
      (List.range 5).all fun k => decide (fieldNat r (10 + 12 * t + 2 * k) 2 < 1024)
  | 7 =>
    let g := regionRec r
    decide (i < 1024) && decide (1 ≤ g.count) && decide (g.page + g.count ≤ 1310720) && decide (g.cls ≤ 4)
  | 8 =>
    let g := s.group i
    decide (i < 64) && g.planes != 0 && decide (fieldNat r 10 2 ≤ 64) &&
      [0, 1, 2].all fun d => decide (g.lo.getD d 0 ≤ g.hi.getD d 0) && decide (g.hi.getD d 0 < s.dimSize d)
  | 9 =>
    let k := bucketOf r []
    decide (k.group < s.fabric.groups.length) && decide (k.efmt ≤ 1) && decide (1 ≤ k.nchunk) && decide (k.nchunk < 2 ^ 24) &&
      decide (1 ≤ k.nshard) && decide (k.nshard ≤ 65536) && k.src % 16 == 0
  | 10 => i == 0 || s.planOk (i - 1) r
  | 11 =>
    let v := fieldNat r 0 8
    decide (i < 32) && decide (bits v 25 22 ≤ bits v 29 26) && decide (bits v 33 30 ≤ bits v 37 34) &&
      decide (bits v 42 38 ≤ bits v 47 43)
  | 12 =>
    let x := barrierRec r
    decide (x.arrival < 2 ^ 17) && decide (x.release < 2 ^ 17) && decide (1 ≤ x.members) && decide (x.members ≤ 576) &&
      (x.group == 0xFF || decide (x.group < s.fabric.groups.length))
  | 13 => decide (fieldNat r 0 4 < 2 ^ 17)
  | 14 =>
    let x := phaseRecord r
    decide (i < 256) && decide (x.maxOp ≤ 7) && x.shares.all (decide <| 1 ≤ ·) &&
      (i == 0 || decide (fieldNat (all.getD (i - 1) []) 0 2 < x.marker))
  | _ => true

/-- Check 5. [DEDUCED: log entry 21] -/
def State.check5 (s : State) (b : List Byte) (ss : List Sect) : Option Failed :=
  firstFail (
    failIf (decide (fieldNat b 36 1 < 1) || decide (2 < fieldNat b 36 1)) (5, 0, 0) ::
    ss.flatMap (fun x =>
      let rs := x.records b
      rs.zipIdx.map (fun (r, i) => failIf (!s.recordOk rs x.ty i r) (5, x.ty, i)) ++
        [failIf ((x.ty == 1 || x.ty == 5) && x.count != 576) (5, x.ty, x.count)]))

/-- The address regions of R223, numbered; reserved ones have none. -/
def regionNo (a : Nat) : Option Nat :=
  match placeOf 0 a with
  | .deep .. => some 0
  | .near t _ => some (1 + t)
  | .sram c _ => some (5 + c)
  | .reg _ => some 581
  | .reserved => none

def oneRegion (a n : Nat) : Bool := (regionNo a).isSome && regionNo a == regionNo (a + n - 1)

/-- Does a footprint of a core fit what CRN_ACC_SAVE reserves? (R141) -/
def State.fitsSave (s : State) (c lenF lenB : Nat) : Bool :=
  decide (lenF ≤ s.rd (Reg.CRN_ACC_SAVE_F_KIB (crownOf c) (localOf c))) &&
    decide (lenB ≤ s.rd (Reg.CRN_ACC_SAVE_B_KIB (crownOf c) (localOf c)))

/-- Check 6. [DEDUCED: log entry 21] -/
def State.check6 (s : State) (b : List Byte) (ss : List Sect) : Option Failed :=
  let pins (t : Nat) : Nat := ((s.regions.filter (·.cls == 0)).map fun r =>
    ((List.range r.count).filter fun i => (s.pageHome (r.page + i)).1 == t).length).sum
  firstFail
    (s.units.zipIdx.map (fun (u, i) => failIf (!s.fitsSave u.core u.lenF u.lenB) (6, 2, i)) ++
    s.urgents.zipIdx.map (fun (u, i) => failIf (decide (48 < u.lenF) || decide (48 < u.lenB) ||
      (List.range u.count).any fun k => !s.fitsSave (u.core + k) u.lenF u.lenB) (6, 3, i)) ++
    (List.range (recordsOf b ss 5).length).map (fun c =>
      let n := crownOf c
      let l := localOf c
      failIf (decide (2 ^ 20 < s.rd (Reg.CRN_ACC_SAVE_BASE n l) * 4096 + 256 +
        (s.rd (Reg.CRN_ACC_SAVE_F_KIB n l) + s.rd (Reg.CRN_ACC_SAVE_B_KIB n l)) * 1024)) (6, 5, c)) ++
    s.regions.zipIdx.map (fun (r, i) => failIf ((s.regions.take i).any fun q =>
      decide (q.page < r.page + r.count) && decide (r.page < q.page + q.count)) (6, 7, i)) ++
    [0, 1, 2, 3].map (fun t => failIf (decide (s.quotaFrames t 0 < pins t)) (6, 7, 0)) ++
    [0, 1, 2, 3].map (fun t => failIf (decide (s.poolFrames t < ((List.range 5).map (s.quotaFrames t)).sum)) (6, 6, 0)) ++
    (recordsOf b ss 15).zipIdx.map (fun (r, i) =>
      failIf (fieldNat r 8 8 != 0 && !oneRegion (fieldNat r 0 8) (fieldNat r 8 8)) (6, 15, i)))

/-- Where a chain of ranges (start, length) that follow one another without a gap ends. -/
def chainEnd (rs : List (Nat × Nat)) : Nat → Nat → Nat
  | 0, p => p
  | fuel + 1, p => match rs.find? fun r => r.1 == p && decide (0 < r.2) with
    | some r => chainEnd rs fuel (p + r.2)
    | none => p

/-- Do ranges cover 0 to n − 1 each exactly once? -/
def covers (rs : List (Nat × Nat)) (n : Nat) : Bool := chainEnd rs rs.length 0 == n && (rs.map (·.2)).sum == n

/-- Check 7 (R316). [DEDUCED: log entry 21] -/
def State.check7 (s : State) (b : List Byte) : Option Failed :=
  let mode := fieldNat b 36 1
  let machine := s.dimSize 0 * s.dimSize 1 * s.dimSize 2 * (if s.rdB Reg.HB_PLANE_TWIN then 2 else 1)
  let bs := s.bucketList
  let group (k : Bucket) : Group := s.group k.group
  let chanRanges (v : Nat) : List (Nat × Nat) :=
    (bs.filter fun e => (group e.2).chan == v).map fun e => (e.2.seq0, 16 * e.2.nchunk)
  firstFail
    ([failIf (mode == 1 && decide (512 < machine)) (7, 0, 0),
      failIf (mode == 1 && decide (4096 < bs.length)) (7, 9, 4096)] ++
    bs.map (fun (i, k) => failIf (mode == 1 && (bs.take i).any fun e => e.2.tag == k.tag) (7, 9, i)) ++
    (List.range 8).map (fun v => failIf (mode == 2 && !covers (chanRanges v) ((chanRanges v).map (·.2)).sum) (7, 9, 0)) ++
    bs.map (fun (i, k) =>
      failIf (k.nchunk != (k.nelem + 8191) / 8192 || !oneRegion k.src (k.nelem * (if k.efmt = 0 then 4 else 2))) (7, 9, i)) ++
    bs.map (fun (i, k) => failIf (!covers (k.map.map fun d => (d.first, d.count)) k.nchunk) (7, 9, i)) ++
    bs.map (fun (i, k) => failIf (k.map.any fun d => (bs.take i).any fun e =>
      e.2.group != k.group && e.2.map.any fun x => x.entry == d.entry) (7, 9, i)) ++
    bs.map (fun (i, k) => failIf (k.map.any fun d => match s.planAt d.entry with
      | some e => e.owner && e.contrib != (group k).members.length
      | none => false) (7, 9, i)) ++
    s.fabric.groups.zipIdx.map (fun (_, i) =>
      let gs := (s.group i).guards
      failIf (gs.any (fun g => decide (4 < (gs.filter fun x => x.2 == g.2).length)) ||
        gs.any fun g => decide (1 < (gs.filter fun x => x.1 == g.1).length)) (7, 8, i)))

/-- The box of a spare record, as ranges. -/
def spareBox (r : List Byte) : List (Nat × Nat) :=
  let v := fieldNat r 0 8
  [(bits v 25 22, bits v 29 26), (bits v 33 30, bits v 37 34), (bits v 42 38, bits v 47 43), (bits v 13 13, bits v 13 13)]

/-- Check 8 (R306, R312). [DEDUCED: log entry 21] -/
def State.check8 (s : State) (rs : List (List Byte)) : Option Failed :=
  firstFail (rs.zipIdx.map fun (r, i) =>
    failIf ((rs.take i).any (fun q => (List.zip (spareBox q) (spareBox r)).all fun (x, y) =>
        decide (x.1 ≤ y.2) && decide (y.1 ≤ x.2)) ||
      (List.range 32).any (fun k => s.rdB (Reg.HB_SPARE_TAKEN k) &&
        s.rd (Reg.HB_SPARE_SPARE k) == bits (fieldNat r 0 8) 13 0)) (8, 11, i))

/-- The coordinates in the boxes of the spare records that name this package, each with the record's index (check 3). -/
def State.ownBoxes (s : State) (rs : List (List Byte)) : List (Nat × Nat) :=
  (rs.zipIdx.filter fun e => bits (fieldNat e.1 0 8) 13 0 == s.physSelf).flatMap fun (r, i) =>
    let box := spareBox r
    let side (d : Nat) : List Nat :=
      let x := box.getD d (0, 0)
      (List.range (x.2 + 1 - x.1)).map (x.1 + ·)
    (side 2).flatMap fun z => (side 1).flatMap fun y => (side 0).map fun x => (mkCoord x y z (box.getD 3 (0, 0)).1, i)

/-- Checks 2 and 3. [DEDUCED: log entry 21] -/
def State.check23 (s : State) (b : List Byte) (ss : List Sect) : Option Failed :=
  firstFail
    ([failIf (fieldNat b 0 4 != 0x494E5251 || fieldNat b 4 2 != 1 || fieldNat b 6 2 != 0xD032 ||
        !bit (fieldNat b 8 2) Config.stepping.toNat || fieldNat b 16 8 != s.rd Reg.SHP_LEN_LEN) (2, 0, 0),
      failIf (fieldNat b 32 1 != s.dimSize 0 || fieldNat b 33 1 != s.dimSize 1 || fieldNat b 34 1 != s.dimSize 2 ||
        fieldNat b 35 1 != s.rd Reg.HB_PLANE_TWIN || (partOf b s.logSelf).isNone) (3, 0, 0)] ++
    (s.ownBoxes (recordsOf b ss 11)).map fun (c, i) => failIf (partOf b c).isNone (3, 11, i))

/-- Check 11, before power-up: the crowns that hold a core of role 1 or 2 are usable. [DEDUCED: log entry 21] -/
def State.check11 (s : State) (roles : List (Nat × Nat)) : Option Failed :=
  firstFail (roles.map fun (c, _) => failIf (!bit (s.rd Reg.DEV_CAP_CROWN_OK) (crownOf c)) (11, 1, c))

/-- Checks 2 to 8 and 11: `s` before shaping, `bytes` as the image is read, `data` with its poison.
[DEDUCED: log entry 21] -/
def State.imageChecks (s : State) (bytes : List Byte) (data : List DataByte) : Option Failed :=
  let ss := sectsOf bytes s.logSelf
  let t := s.putImage bytes ss
  let u := (t.copyData data (recordsOf bytes ss 15)).2.readTables
  firstFail [s.check23 bytes ss, check4 bytes, u.check5 bytes ss, t.check6 bytes ss, u.check7 bytes,
    s.check8 (recordsOf bytes ss 11), s.check11 t.roles]

end Sys2Proof.Machine
end

