-- ==== Sys2Proof/Machine/Shaping.lean ====
section
/-! DEFINITION. Shaping, unshaping and aborting (R352 to R356, R380, R381), with the fields that shaping sets and what returns
them (R354, R355, R483). -/

namespace Sys2Proof.Machine

/-- A stored field, by its key, that step 4 of R353 writes. -/
def State.imageField (s : State) (key : Nat) : Bool :=
  let off := key / 64
  let lo := key % 64
  match familyAt off with
  | some f =>
    f.name == "CRN_VEC_STG" || f.name == "CRN_VEC_HDR" || f.name == "CRN_ACC_SAVE" || f.name == "CRN_FLEX_CFG" ||
      f.name == "TIER_LOCAL" || f.name == "TIER_QUOTA" || (f.name == "TIER_CFG" && lo == 6) ||
      (f.name == "RED_CFG" && lo == 32) || (f.name == "UPD_CFG" && lo == 16) || f.name == "SHP_SEED" ||
      (f.name == "PCAP_LEARN" && lo < 48) ||
      (f.name == "HB_SPARE" &&
        let k := (off - 0x20F100) / 8
        !s.rdB (Reg.HB_SPARE_TAKEN k) && !s.rdB (Reg.HB_SPARE_LOST k))
  | none => false

/-- The page whose deep-tier storage a page has, once TIER_LOCAL reads as after reset (R226, R228). -/
def State.unplaced (s : State) (pg : Nat) : Nat :=
  let (t, ta) := s.pageHome pg
  deepAddress 0 t ta / 65536

/-- The HOME_LOST pages keep their frames (R253) and their write-backs, under the addresses that their storage has once no image is
shaped; every other page is ABSENT. [DEDUCED: log entry 7] -/
def State.keepLost (s : State) : State :=
  let lost := s.pages.filter fun e => e.2.state == .homeLost
  let pages := lost.foldl (fun m e => Sparse.put {} m (s.unplaced e.1) e.2) []
  let s' := [0, 1, 2, 3].foldl (fun u t =>
    let x := u.tier t
    u.setTier t { x with queue := (x.queue.filter fun m => lost.any (·.1 == m.page)).map fun m => { m with page := s.unplaced m.page } }) s
  { s' with pages }

/-- Every descriptor of step 4 returns to its reset value (R354, R355). A HOME_LOST page keeps its frame (R253), and no mirror
slot stays reserved (R343). -/
def State.dropImage (s : State) : State :=
  let s := s.keepLost
  let s := { s with flds := s.flds.filter fun e => !s.imageField e.1 }
  let s := s.modPower fun p => { p with phases := [], learned := [], current := none, run := none }
  let s := s.modFabric fun f => { f with
    groups := [], buckets := [], plan := [], guards := [], shardMaps := [], copies := [], windows := [], deliveries := [], injected := [], mirror := {} }
  { s with units := [], urgents := [], barriers := [], syncInit := [], regions := [], roles := []
           entries := [], barrierGens := [], imageBase := 0 }

/-- The image as the SHAKE256 engine reads it, over the LEN bytes of its header, at most 16 GiB (R350, R352): bytes, where those
that did not come are free, and the bytes with their poison. [DESIGN CHOICE: log entry 21] -/
def State.readImage (s : State) : List Byte × List DataByte × State :=
  let a := s.rd Reg.SHP_IMAGE_ADDR * 4096
  let (_, hd, h, s) := s.readAwait .mgmt a 256
  let n := min (fieldNat h 16 8) (2 ^ 34)
  if n ≤ 256 then (h.take n, hd.take n, s)
  else
    let (_, td, t, s) := s.readAwait .mgmt (a + 256) (n - 256)
    (h ++ t, hd ++ td, s)

/-- The digest of an image, its DIGEST field taken as zero (R350). [PRESUMED: log entry 31] -/
def imageDigest (b : List Byte) : List Byte := shake256 (setField b 64 (List.replicate 64 0)) 64

/-- Shaping ends with a code (R352). [DEDUCED: log entry 21] -/
def State.shapeFails (s : State) (f : Failed) : State :=
  ((((s.setB Reg.SHP_STATUS_SHAPE_ERR).wr Reg.SHP_STATUS_ERR f.1).wr Reg.SHP_STATUS_ERR_SECT f.2.1).wr
    Reg.SHP_STATUS_ERR_REC f.2.2).wr Reg.SHP_STATUS_STATE 0

/-- Failures no longer in force are forgotten when every FENCED link was retrained beforehand, and with them the spares that only they
kept listed: VALID is what the image that is now shaped lists (R306, R312).
[DEDUCED: log entry 21] -/
def State.forgetFailures (s : State) : State :=
  let s := (List.range 32).foldl (fun s k =>
    let s := ((s.clrB (Reg.HB_SPARE_TAKEN k)).clrB (Reg.HB_SPARE_LOST k)).clrB (Reg.HB_SPARE_VALID k)
    let s := ((s.clrB (Reg.HB_FAIL_VALID k)).clrB (Reg.HB_FAIL_SPARED k)).wr (Reg.HB_FAIL_SPIDX k) 63
    (s.wr (Reg.HB_FAIL_REASON k) 0).wr (Reg.HB_FAIL_COORD k) 0) s
  (s.wr Reg.HB_FAB_STATUS_UNSPARED 0).modFabric fun f => { f with takenOver := none, partApplied := false, overflowed := [], overSpared := [] }

/-- What R312 forgets is as in another state: no image was shaped. -/
def State.keepFailures (s old : State) : State :=
  let fields := (List.range 32).flatMap (fun k =>
    [Reg.HB_SPARE_VALID k, Reg.HB_SPARE_TAKEN k, Reg.HB_SPARE_LOST k, Reg.HB_SPARE_SPARE k, Reg.HB_SPARE_XLO k,
     Reg.HB_SPARE_XHI k, Reg.HB_SPARE_YLO k, Reg.HB_SPARE_YHI k, Reg.HB_SPARE_ZLO k, Reg.HB_SPARE_ZHI k,
     Reg.HB_FAIL_VALID k, Reg.HB_FAIL_SPARED k, Reg.HB_FAIL_SPIDX k, Reg.HB_FAIL_REASON k, Reg.HB_FAIL_COORD k]) ++
    [Reg.HB_FAB_STATUS_UNSPARED]
  (fields.foldl (fun s f => s.wr f (old.rd f)) s).modFabric fun f => { f with
    takenOver := old.fabric.takenOver, partApplied := old.fabric.partApplied, overflowed := old.fabric.overflowed
    overSpared := old.fabric.overSpared }

/-- Stage one PIN page (R241), and whether its transfer completed with status OK (R30, R252). -/
def State.pinPage (s : State) (pg : Nat) : Bool × State :=
  let (t, ta) := s.pageHome pg
  match s.freeFrame t 0 with
  | none => (true, s)
  | some f =>
    let s := s.awaitMove t ta
    if s.movePathLost t ta then (false, s.errAddr t 3 (pg * 65536))
    else
      let u := ((s.setFrame t f .used).movePage pg t ta f true).becomeResident pg t f false
      ((s.failedBlocks t ta).isEmpty, u.incWrap (Reg.TIER_PAGE_CNT_STAGED t))

/-- Step 6: stage every PIN region: the index of the first region a transfer of which fails, if any. -/
def State.pinAll (s : State) : Option Nat × State :=
  (s.regions.zipIdx.filter (·.1.cls == 0)).foldl (fun x (r, i) =>
    (List.range r.count).foldl (fun (x : Option Nat × State) k =>
      if x.1.isSome then x
      else
        let (ok, s) := x.2.pinPage (r.page + k)
        (if ok then none else some i, s)) x) (none, s)

/-- The content of the HOME_LOST pages is lost when the next image is shaped (R253). -/
def State.loseHomes (s : State) : State :=
  [0, 1, 2, 3].foldl (fun s t =>
    (s.homeLostPages t).foldl (fun s pg => s.record .pageHomeLost (source t 6 0) [pv3 pg]) s) s

/-- The coordinate that mirrors to one (R343): its twin, or the one at logical x - 1. [DEDUCED: log entry 14] -/
def State.mirrorSourceOf (s : State) (c : Nat) : Nat :=
  if s.rdB Reg.HB_PLANE_TWIN then mkCoord (cx c) (cy c) (cz c) (1 - cplane c)
  else setDim c 0 (if s.dimSize 0 = 0 then cx c else (cx c + s.dimSize 0 - 1) % s.dimSize 0)

/-- The bytes of a coordinate's mirror, in whole words: the state of the owner entries of its part of the image (R343, R344).
[DEDUCED: log entry 14] -/
def mirrorBytes (bytes : List Byte) (c : Nat) : Nat :=
  let own := (((recordsOf bytes (sectsOf bytes c) 10).drop 1).map planOf).filter (·.owner)
  ((own.map fun e => (e.regions.map (·.2.2)).sum).sum + 15) / 16 * 16

/-- Two mirror slots are reserved in the deep tier, as large as the image says the mirror of the package that mirrors here is (R343).
Where in the deep tier they lie is stated nowhere, but that they lie in it, and apart. [DESIGN CHOICE: log entry 14] -/
def State.reserveSlots (s : State) (bytes : List Byte) : State :=
  let size := mirrorBytes bytes (s.mirrorSourceOf s.logSelf)
  let (a, s) := s.drawWord
  let (b, s) := s.drawWord
  let place (w lo hi : Nat) : Nat := lo + w % ((hi - lo) / 16 + 1) * 16
  let base0 := place a 0 (0x1400000000 - 2 * size)
  let base1 := place b (base0 + size) (0x1400000000 - size)
  s.modFabric fun f => { f with mirror := { base0, base1, size } }

/-- Cores of a role other than 0 are powered up, and the others gated (R353, R359). -/
def State.powerRoles (s : State) : State :=
  (List.range 576).foldl (fun s c =>
    if Sparse.get 0 s.roles c ≠ 0 then s.powerCore c else if (s.core c).gated then s else s.gateCore c) s

/-- Every crown gated. -/
def State.gateAll (s : State) : State := [0, 1, 2, 3].foldl State.gateCrown s

/-- A transfer of steps 5 or 6 failed: the descriptors of step 4 return to their reset values, and memory that DATA records have
written, local SRAM too, keeps it (R354). The crowns powered up for it stay powered up. [DEDUCED: log entry 21] -/
def State.shapeStops (s : State) (f : Failed) : State := s.dropImage.shapeFails f

/-- Steps 3 to 7 of R353, for an image that has passed its checks. `bad` are the crowns whose microcode fails the check of
R452 as they power up. [DEDUCED: log entry 21] -/
def State.shapeOn (s : State) (bytes : List Byte) (data : List DataByte) (bad : List Tower) : State :=
  let ss := sectsOf bytes s.logSelf
  let t := s.loseHomes.putImage bytes ss
  match (t.roles.zipIdx.filter fun e => bad.any fun n => n.val == crownOf e.1.1) with
  | (c, _) :: _ =>
    let n := crownOf c.1
    let s := s.wr Reg.DEV_CAP_CROWN_OK (s.rd Reg.DEV_CAP_CROWN_OK &&& (15 - 2 ^ n))
    (s.record .microcodeLoad (source n 7 6) []).shapeFails (11, 1, c.1)
  | [] =>
    let t := { t.powerRoles with imageBase := s.rd Reg.SHP_IMAGE_ADDR * 4096 }
    match t.copyData data (recordsOf bytes ss 15) with
    | (some i, u) => u.shapeStops (9, 15, i)
    | (none, u) => match u.pinAll with
      | (some i, u) => u.shapeStops (9, 7, i)
      | (none, u) =>
        let u := (List.range 14).foldl (fun u l => if u.linkState l = 7 then u.freshLink l 8 else u) (u.readTables.reserveSlots bytes)
        let u := (((u.wr Reg.SHP_STATUS_STATE 3).wr Reg.SHP_STATUS_ERR 0).wr Reg.SHP_STEP_STEPS 0).restIdle
        u.record .imageShaped (source 0 0 0) ((List.range 8).map fun i => pv1 (fieldNat (imageDigest bytes) i 1))

/-- SHAPE (R352, R353, R380, R484): a write of SHP_CTL.SHAPE, and whether RETRAIN was written to every FENCED link of the
plane beforehand (R312). [DEDUCED: log entry 21] -/
def execShape (acc : RegAccess) (bad : List Tower) (retrained : Bool) (s : State) : Result :=
  let s := s.portTurn acc.port.val
  .next (if s.accessBits acc Reg.SHP_CTL_SHAPE = 0 then s
    else
    -- a write of SHAPE ends package standby, and tower sleep
    let s := [0, 1, 2, 3].foldl State.endSleep s.endStandby
    if !s.holds acc.port ∨ s.rd Reg.MGT_STATUS_MODE = 2 then s.rejectWrite acc.port 0x60000
    else if s.rd Reg.SHP_STATUS_STATE ≠ 0 then
      ((s.setB Reg.SHP_STATUS_SHAPE_ERR).wr Reg.SHP_STATUS_ERR 10).wr Reg.SHP_STATUS_ERR_SECT 0 |>.wr Reg.SHP_STATUS_ERR_REC 0
    else
      -- shaping waits for the towers that leave sleep
      let s := [0, 1, 2, 3].foldl State.trained s
      let (bytes, data, s) := s.readImage
      let digest := imageDigest bytes
      let s := (List.range 8).foldl (fun s k => s.wr (Reg.SHP_DIGEST_DIGEST k) (fieldNat digest (8 * k) 8)) s
      if (bytes.drop 64).take 64 ≠ digest then s.shapeFails (1, 0, 0)
      else
        let t := if retrained then s.forgetFailures else s
        match t.imageChecks bytes data with
        | some f => s.shapeFails f
        | none =>
          let u := t.shapeOn bytes data bad
          -- failures are forgotten only where an image is shaped (R312)
          if u.rd Reg.SHP_STATUS_STATE = 3 then u else u.keepFailures s)

/-- UNSHAPE (R355, R380). [DEDUCED: log entries 21 and 22] -/
def State.unshape (s : State) : State :=
  let s := [0, 1, 2, 3].foldl State.flushPages s
  let s := { s with urgentRuns := [], urgentHeld := [] }
  s.dropImage.gateAll.wr Reg.SHP_STATUS_STATE 0

/-- UNSHAPE (R380): from the holder's port, in STATE 3 with no step running. [DEDUCED: log entry 21] -/
def execUnshape (acc : RegAccess) (s : State) : Result :=
  let s := s.portTurn acc.port.val
  .next (if s.accessBits acc Reg.SHP_CTL_UNSHAPE = 0 then s
    else if !s.holds acc.port ∨ s.rd Reg.SHP_STATUS_STATE ≠ 3 ∨ s.step.isSome then s.rejectWrite acc.port 0x60000
    else s.unshape)

/-- ABORT (R366, R380). [DEDUCED: log entry 21] -/
def execAbort (acc : RegAccess) (s : State) : Result :=
  let s := s.portTurn acc.port.val
  .next (if s.accessBits acc Reg.SHP_CTL_ABORT = 0 then s
    else if !s.holds acc.port ∨ s.step.isNone then s.rejectWrite acc.port 0x60000
    else s.stopStep 2)

/-- A write of SHP_IMAGE or SHP_LEN (R381). -/
def State.shapeWrite (s : State) (off : Nat) (acc : RegAccess) : State :=
  let s := s.portTurn acc.port.val
  if !s.bar0Open off then s
  else if s.rd Reg.SHP_STATUS_STATE ≠ 0 then s.rejectWrite acc.port off else s.writeReg off acc fun _ => true

/-- SHP_IMAGE_WRITE (R381). -/
def execShpImageWrite (acc : RegAccess) (s : State) : Result := .next (s.shapeWrite 0x60008 acc)

/-- SHP_LEN_WRITE (R381). -/
def execShpLenWrite (acc : RegAccess) (s : State) : Result := .next (s.shapeWrite 0x60010 acc)

end Sys2Proof.Machine
end

