-- ==== Sys2Proof/Machine/Dispatcher.lean ====
section
/-! DEFINITION. The dispatcher: steps (R361 to R368), phase markers (R363) and urgent commands (R376 to R378). -/

namespace Sys2Proof.Machine

/-- The dispatcher works: not in package standby (R484). -/
def State.dispatching (s : State) : Bool := !s.standby

/-! ### Steps -/

/-- Does a step command name the shaped image? (R361, R365) [DEDUCED: log entry 22] -/
def State.imageMatches (s : State) (c : StepCmd) : Bool :=
  s.rd Reg.SHP_STATUS_STATE == 3 && s.rd (Reg.SHP_DIGEST_DIGEST 0) == c.image

/-- A step start on a replica entry: one whose delivery for this step has not come yet waits for it (R265, R341). -/
def EntrySt.atStart (x : EntrySt) : EntrySt := if x.arrived then x else { x with sweepT := 0 }

/-- The start of a step (R333, R362, R364): sync objects of SYNCINIT, STASH and GRADBUF pages, unit lists, sample slots.
[DEDUCED: log entry 22] -/
def State.startStep (s : State) (c : StepCmd) : State :=
  let s := s.syncInit.foldl (fun s (o, v) => s.setObjFrom .mgmt o v) s
  let s := s.emptyPages [2, 3]
  let s := s.planEntries.foldl (fun s (i, e) => if e.owner then s else s.setEntry i (s.entry i).atStart) s
  let s := (s.modFabric fun f => { f with injected := [] }).resetReduction c.step
  ({ s with step := some { cmd := c } } : State).grantSlots

/-- STEP_START (R362, R365): the next step command of the step queue, once the previous step has completed. A command
that does not name the shaped image runs no unit. [DEDUCED: log entry 22] -/
def execStepStart (s : State) : Result :=
  .next (match s.step, s.stepQueue with
  | none, c :: rest =>
    if !s.dispatching then s
    else
      let s := { s with stepQueue := rest }
      let s := (s.wr Reg.SHP_STEP_STEP c.step).wr Reg.SHP_STEP_MARK 0xFFFF
      if s.imageMatches c then s.startStep c else { s with step := some { cmd := c, failed := 3 } }
  | _, _ => s)

/-- Signal one phase marker (R240, R260, R363, R395). -/
def State.signalMarker (s : State) (m : Nat) : State :=
  match s.step with
  | none => s
  | some r =>
    let s := ({ s with step := some { r with mark := some m } } : State).wr Reg.SHP_STEP_MARK m
    let s := (s.markerPages m).markerPhase m
    if m = s.rd Reg.UPD_CFG_SWEEP_AT then
      ({ s with step := s.step.map fun r => { r with sweep := true } } : State).startSweep r.cmd.step r.cmd.lrf
    else s

/-- Signal, in ascending order, every marker up to a unit's PHASE that has not been signalled in this step. -/
def State.signalMarkers (s : State) (r : StepRun) (phase : Nat) : State :=
  let from_ := match r.mark with
    | some m => m + 1
    | none => 0
  (List.range (phase + 1 - from_)).foldl (fun s i => s.signalMarker (from_ + i)) s

/-- The unit a thread would run next, with its place in the UNIT section. -/
def State.nextUnitAt (s : State) (r : StepRun) (c th : Nat) : Option (UnitDesc × Nat) :=
  (s.units.zipIdx.filter fun u => u.1.core == c && u.1.thread == th)[Sparse.get 0 r.next (2 * c + th)]?

/-- Registers of a thread at dispatch: s1 to s4 ARG0 to ARG3, s5 STEP, s6 MB (R362). -/
def StepRun.regs (r : StepRun) (u : UnitDesc) : List (Nat × Nat) :=
  ((r.cmd.args.take 4 ++ List.replicate (4 - r.cmd.args.length) 0) ++ [r.cmd.step, u.mb]).zipIdx.foldl
    (fun m (v, i) => Sparse.put 0 m (i + 1) (v % 2 ^ 64)) []

/-- UNIT_DISPATCH (R362 to R364): thread F or B of a core takes the next unit of its list. A marker-only unit completes at
once. [DEDUCED: log entry 22] -/
def execUnitDispatch (core : Core) (thread : Fin 2) (s : State) : Result :=
  let c := core.val
  let th : Thr := if thread.val = 0 then .F else .B
  .next (match s.step with
  | none => s
  | some r =>
    match s.nextUnitAt r c thread.val with
    | none => s
    | some (u, i) =>
      if s.power.stopped || !s.dispatching || r.failed != 0 || (s.thr c th).running ||
          !s.condHolds u.wait0 || !s.optCondHolds u.wait1 || !(u.mb == 0xFFFF || r.mbHeld.contains u.mb) then s
      else
        let key := 2 * c + thread.val
        let s := { s with step := some { r with next := Sparse.put 0 r.next key (Sparse.get 0 r.next key + 1) } }
        let s := s.signalMarkers r u.phase
        if u.kind = 4 then s.completeUnit u
        else s.setThr c th { running := true, suspended := (s.thr c th).suspended, pc := u.entry, regs := r.regs u, unit := i })

/-- Does an engine of a core still work on a command of threads F or B, a DRAIN that a preemption has set aside among them? -/
def CoreSt.storing (c : CoreSt) : Bool :=
  (c.vop.any fun v => v.thread != .U) || [c.arrF, c.arrB].any fun a =>
    (a.drain.any fun d => d.thread != .U) || (a.saved.any fun v => v.drain.any fun d => d.thread != .U)

/-- Every thread's unit list has been dispatched, or the step has failed; no unit of it runs, and the engines have made the stores
that a stopped unit left them (R365, R369). [DEDUCED: log entry 22] -/
def State.unitsDone (s : State) (r : StepRun) : Bool :=
  (r.failed != 0 || s.units.all fun u => (s.nextUnitAt r u.core u.thread).isNone) &&
    s.cores.all fun e => !e.2.thrF.running && !e.2.thrB.running && !e.2.storing

/-- Every entry of the step's sweep is complete (R265). -/
def State.sweepDone (s : State) (r : StepRun) : Bool := !r.sweep || s.planEntries.all fun e => (s.entry e.1).complete

/-- What a step leaves of the plan entries: an owner's chunks that no sweep has taken are dropped; a replica waits for the
next delivery. [DEDUCED: log entry 14] -/
def State.closeEntries (s : State) (r : StepRun) : State :=
  s.planEntries.foldl (fun s (i, e) =>
    let x := s.entry i
    if e.owner then (if r.sweep then s else s.setEntry i { x with landed := [], measured := [] })
    else s.setEntry i { x with arrived := x.early, early := false, complete := false }) s

/-- STEP_COMPLETE (R365): DONE gains 1, the completion is posted, and the mirror of R344 is sent after a sweep.
[DEDUCED: log entry 22] -/
def execStepComplete (s : State) : Result :=
  .next (match s.step with
  | none => s
  | some r =>
    if !s.unitsDone r || !s.sweepDone r || !s.dispatching then s
    else
      let s := ([0, 1, 2, 3].foldl State.updPhase (s.closeEntries r)).noPhase
      let s := ({ s with step := none } : State).signal .mgmt r.cmd.done
      let s := s.incWrap Reg.SHP_STEP_STEPS
      let s := s.postEntry r.cmd.ticket r.failed r.flags 1 r.cmd.step
      if r.sweep then s.sendMirror else s)

/-- STEP_WATCHDOG (R367): nothing of the running step has progressed for STEP_WDOG ms. [DEDUCED: log entry 22] -/
def execStepWatchdog (s : State) : Result := .next (s.stopStep 5)

/-! ### A spare (R347, R356, R368) -/

/-- SPARE_APPLIES_PART (R347, R356, R368): the spare reads the part of the coordinate it has taken over from the image in
device memory and applies it; it waits for a step that still runs. `mirrored` says whether the mirror holder has a
committed slot. [DEDUCED: log entry 22] -/
def execSpareAppliesPart (mirrored : Bool) (s : State) : Result :=
  .next (if s.fabric.takenOver.isNone || s.fabric.partApplied || s.rd Reg.SHP_STATUS_STATE != 3 || s.step.isSome then s
    else
      let (_, data, bytes, s) := s.readAwait .mgmt s.imageBase (s.rd Reg.SHP_LEN_LEN)
      let ss := sectsOf bytes s.logSelf
      let s := (s.putPart bytes ss).powerRoles
      let s := (s.copyData data (recordsOf bytes ss 15)).2.readTables.pinAll.2
      let s := s.modFabric fun f => { f with partApplied := true }
      if mirrored || s.rd Reg.RED_RECOVER_STATE ≠ 1 then s.recoverStage
      else (s.wr Reg.RED_RECOVER_STATE 5).record .shardsLost (source 0 0 4) [])

/-! ### Urgent commands -/

/-- The cores of an urgent unit (R360). -/
def UrgentDesc.cores (u : UrgentDesc) : List Nat := (List.range u.count).map (u.core + ·)

/-- A core is running thread U, or an array of it holds a save record (R378). -/
def State.urgentBusy (s : State) (c : Nat) : Bool :=
  let x := s.core c
  x.thrU.running || x.arrF.saved.any (·.record) || x.arrB.saved.any (·.record)

/-- An array that an earlier urgent unit took and that has not been given back: the next unit too starts with every slot of it
invalid (R137). One that has still to be preempted loses them as its accumulators are saved. -/
def State.clearSlots (s : State) (c : Nat) (a : Arr) : State :=
  if (s.arr c a).saved.isSome && !(s.arr c a).preempting then
    (List.range 16).foldl (fun s sl => s.setSlot c a sl ⟨false, 0, 0, 0⟩) s
  else s

/-- Thread U of a core starts: threads F and B are suspended, and it has the array command queues (R376, R377). -/
def State.startThreadU (s : State) (cmd : UrgentCmd) (entry c : Nat) : State :=
  let s := (s.clearSlots c .F).clearSlots c .B
  let x := s.core c
  let regs := (cmd.args.take 6).zipIdx.foldl (fun m (v, i) => Sparse.put 0 m (i + 1) (v % 2 ^ 64)) []
  s.setCore c { x with
    urgent := true
    thrF := { x.thrF with suspended := true }
    thrB := { x.thrB with suspended := true }
    thrU := { running := true, pc := entry, regs, unit := cmd.unit } }

/-- The dispatcher carries an urgent command out, with LSTEP_N ahead of more than one wave (R113, R376, R377). A unit of KIND 4 has
no code and completes at once (R360). [DEDUCED: log entry 22] -/
def State.startUrgent (s : State) (cmd : UrgentCmd) (u : UrgentDesc) : State :=
  if u.kind = 4 then s.urgentDone cmd .mgmt false
  else
    let s := s.leadStep u.cores true
    let s := u.cores.foldl (fun s c => s.startThreadU cmd u.entry c) s
    { s with urgentRuns := s.urgentRuns ++ [{ cmd, cores := u.cores }] }

/-- An urgent command is discarded, counted, recorded and completed with 0xFD (R376, R432). -/
def State.urgentRejected (s : State) (cmd : UrgentCmd) : State :=
  ((s.incStop Reg.SHP_URG_URG_REJECT).record .rejectedUrgent (source 0 0 0) []).postEntry cmd.ticket 0xFD 0 2 cmd.unit

/-- An urgent command reaches the dispatcher: it is discarded, held or started (R376, R378). [DEDUCED: log entry 22] -/
def State.urgentIn (s : State) (cmd : UrgentCmd) : State :=
  match s.urgents[cmd.unit]? with
  | some u =>
    if u.cores.any fun c => Sparse.get 0 s.roles c != 2 then s.urgentRejected cmd
    else if u.cores.any s.urgentBusy then
      ({ s with urgentHeld := s.urgentHeld ++ [cmd] } : State).incStop Reg.SHP_URG_URG_HELD
    else s.startUrgent cmd u
  | none => s.urgentRejected cmd

/-- HELD_URGENT_START (R378): the command held longest, once its cores are free. [DEDUCED: log entry 22] -/
def execHeldUrgentStart (s : State) : Result :=
  .next (match s.urgentHeld with
  | [] => s
  | cmd :: rest =>
    match s.urgents[cmd.unit]? with
    | some u =>
      if u.cores.any s.urgentBusy || !s.dispatching then s else ({ s with urgentHeld := rest } : State).startUrgent cmd u
    | none => { s with urgentHeld := rest })

end Sys2Proof.Machine
end

