-- ==== Sys2Proof/Machine/Drain.lean ====
section
/-! DEFINITION. The drain engine (R132 to R136, R142, R152, R164), preemption at the array, and the save engine (R137 to
R142, R148, R512). -/

namespace Sys2Proof.Machine

/-! ### DRAIN -/

/-- The checks a DRAIN meets at the head of its queue (R132): the tile's mode, and the epilogue fields when there is one. -/
def epilogueOk (mode epi ebc efmt : Nat) : Bool :=
  if epi = 0 then true
  else if epi = 3 ∨ ebc = 3 ∨ (Fmt.ofCode efmt).isNone then false
  else if modeExt mode then false
  else if modeInt mode then epi == 1 && efmt == 0x0B
  else decide (efmt ≤ 4)

/-- One row's epilogue operands (R132): a full tile, one value per column, or one per row. -/
def epilogueRow (c : Core) (d : DrainSt) (ebc : Nat) (f : Fmt) (m : Nat) (r : Reader) : List (Option Nat) × Reader :=
  match ebc with
  | 0 => r.elems c d.thread (d.sampled.ebase + m * d.sampled.estride) 0 f.width 64
  | 1 => r.elems c d.thread d.sampled.ebase 0 f.width 64
  | _ =>
    let (x, r) := r.elems c d.thread (d.sampled.ebase + m * f.width / 8) 0 f.width 1
    (List.replicate 64 (x.headD none), r)

/-- The value handed on for an accumulator, and whether an integer saturated (R135, R136). -/
def handOn (mode epi : Nat) (v : Nat) (e : Num) : LV × Bool :=
  let x := accValue mode v
  if modeInt mode then
    if epi = 0 then (.i x.toInt, false)
    else
      let (c, sat) := satAcc40 (x.toInt + e.toInt)
      (.i (signed 40 c), sat)
  else
    (.f (match epi with
      | 0 => x
      | 1 => roundOdd48 (x.add e)
      | _ => roundOdd48 (x.mul e)), false)

/-- The lanes of one tile row as the chain receives them, and the saturations. A poisoned accumulator gives a poisoned lane, whose
index is stored as poison where the tile has indices (R117, R239). -/
def drainLanes (a : ArraySt) (d : DrainSt) (epi : Nat) (f : Fmt) (ops : List (Option Nat)) (m : Nat) : List Lane × Nat :=
  let b := if d.mode ≤ 1 then 5 else 8
  let ls := (List.range 64).map fun n =>
    let acc := a.accGet (d.tileBase * 1024 + (64 * m + n) * b) b
    let op := if epi = 0 then some (Num.fin false 0 0) else (ops.getD n none).map (decodeElem f)
    match acc, op with
    | some v, some e =>
      let (x, sat) := handOn d.mode epi v e
      (({ val := x, idx := if modeExt d.mode then some (accHigh v) else none } : Lane), sat.toNat)
    | _, _ => (({ val := if modeInt d.mode then .i 0 else .f (.fin false 0 0), poison := true,
                    idx := if modeExt d.mode then some 0 else none } : Lane), 0)
  (ls.map (·.1), (ls.map (·.2)).sum)

/-- Read rows `lo` to `hi - 1` of a DRAIN out of the file, apply the epilogue, run the chain on them and store what it gives (R133
to R136): the state, and whether the DRAIN has met poison; none while a die in reset holds a read or a store back (R22, R23). `bad`
are words that the path spoils. [DEDUCED: log entry 11] -/
def State.drainRows (s : State) (c : Core) (arr : Arr) (d : DrainSt) (bad : List Nat) (lo hi : Nat) : Option (State × Bool) :=
  match d.cmd with
  | .drain _ _ epi ebc efmt .. =>
    let f := (Fmt.ofCode efmt).getD .fp32
    let go := (List.range (hi - lo)).foldl (fun (acc : List Lane × Nat × Reader) i =>
      let m := lo + i
      let (ops, r) := if epi = 0 then ([], acc.2.2) else epilogueRow c d ebc f m acc.2.2
      let (ls, n) := drainLanes (r.s.arr c.val arr) d epi f ops m
      (acc.1 ++ ls, acc.2.1 + n, r)) ([], 0, { s, met := d.met, bad })
    let e : VEnv := { core := c, th := d.thread, w := 64, smp := d.sampled, seed := s.rd Reg.SHP_SEED_SEED,
                      step := s.rd Reg.SHP_STEP_STEP }
    let v : VRun := ({ r := go.2.2 } : VRun).chain e d.sampled.stages { rows := hi - lo, cols := 64, row0 := lo, lanes := go.1 }
    let stores := joinStores v.stores
    if v.r.held || v.r.s.storesHeld (.core c) stores then none
    else
      let s := v.r.s.vecFlags c.val v
      let s := s.countCore c.val (List.replicate go.2.1 ⟨0x0B, 7, .overflow⟩ ++ v.counts)
      some (s.commitStores c d.thread stores, v.r.met)
  | _ => some (s, d.met)

/-- The rescale record at an address (R149): only the fields that FLAGS selects, and the reserved ones, are read; the rest stand as
zeros. -/
def readRecord (c : Core) (th : Thr) (a : Nat) (r : Reader) : List DataByte × Reader :=
  let (head, r) := r.read c th a 64
  let flags := (head.getD 4 (some 0)).elim 0 BitVec.toNat
  ((rescaleRanges flags).drop 1).foldl (fun (acc : List DataByte × Reader) x =>
    let (bs, r) := acc.2.read c th (a + x.1) x.2
    (acc.1.take x.1 ++ bs ++ acc.1.drop (x.1 + x.2), r)) (head ++ List.replicate 704 (some 0), r)

/-- The per-column vectors that a DRAIN's chain reads, once per DRAIN (R178): address and bytes. -/
def columnVectors (reg : Nat → Nat) (stages : List Nat) : List (Nat × Nat) :=
  stages.flatMap fun k =>
    (if readsB k && stBsrc k == 2 then [(reg (stBreg k), vecBytes (stVec k) 64)] else []) ++
      (if readsC k && stCsrc k == 2 then [(reg (stCreg k), vecBytes (stVec k) 64)] else [])

/-- The checks of a DRAIN that need no memory (R132, R152, R176). That a DRAIN naming a descriptor that is not valid, or whose
chain breaks a rule of chains that a DRAIN uses, is discarded with the others stands in no rule: R132's list does not name it.
[DESIGN CHOICE: log entry 11] -/
def State.drainOk (s : State) (c : Nat) (arr : Arr) (b tile epi ebc efmt chain : Nat) : Bool :=
  let sl := s.slot c arr tile
  let stages := s.chainStages c chain
  b == arrBit arr && sl.valid && epilogueOk sl.mode epi ebc efmt && (s.chainHdr c chain).valid && drainChainOk stages &&
    (stages.all (fun k => stKind k != 15) || modeInt sl.mode)

/-- DRAIN (R132, R133, R142, R152, R173, R178, R182): a checked DRAIN passes to the drain engine with what its chain samples. What
reads no memory is checked as the command reaches the head, and the record and the tables as it passes. A poisoned byte of the rescale
record or of a PERMUTE table passes its check, of which R152 and R182 say nothing. [DEDUCED: log entry 11; DESIGN CHOICE: log entry 11] -/
def execDrain (core : Core) (arr : Arr) (hits : List EccHit) (s : State) : Result :=
  if s.power.stopped then .next s else
  let a := s.arr core.val arr
  .next (match s.headCmd core.val arr 4 with
  | none => s
  | some (e, some (.drain b tile epi ebc efmt chain ebase estride)) =>
    if !s.drainOk core.val arr b tile epi ebc efmt chain then s.discardHead core.val arr
    else if a.drain.isSome ∨ a.preempting then s
    else
      let sl := s.slot core.val arr tile
      let hdr := s.chainHdr core.val chain
      let stages := s.chainStages core.val chain
      let resc := stages.filter fun k => stKind k == 15
      let regs := (s.thr core.val e.thread).snapshot
      let reg (r : Nat) : Nat := regs.getD r 0
      let creg := s.cmdReg core.val e
      let (blocks, r) := readBlocks core e.thread (stageBlocks 64 reg stages ++ columnVectors reg stages)
        { s := s.eccHits hits, bad := s.pathBad hits }
      let (recs, r) := resc.foldl (fun (acc : List (Nat × List DataByte) × Reader) k =>
        let (bs, r) := readRecord core e.thread (reg (stRreg k)) acc.2
        (acc.1 ++ [(k, bs)], r)) ([], r)
      let rs := recs.map fun x => (x.1, Rescale.ofBytes (x.2.map (·.getD 0)))
      let terms := rs.filterMap fun x => if x.2.zw || x.2.rowz then some (reg (stVreg x.1), 8) else none
      let recsOk := rs.all fun x => x.2.ok ((Fmt.ofCode (stFmt x.1)).getD .fp32) (stVreg x.1)
      if r.held then s
      else if r.fault then r.s
      else if badTables 64 reg stages blocks || !recsOk then r.s.discardHead core.val arr
      else
        let (rows0, r) := readBlocks core e.thread terms r
        if r.held then s
        else if r.fault then r.s
        else
          let s := r.s.popArr core.val arr
          let x := s.core core.val
          let d : DrainSt := { cmd := .drain b tile epi ebc efmt chain ebase estride, thread := e.thread,
                               tileBase := sl.base, mode := sl.mode, rows := sl.rows, met := r.met
                               seq := x.drainNo
                               sampled := { regs, ebase := creg ebase, estride := creg estride, hdr := hdr.regs, stages
                                            blocks := blocks ++ rows0 ++ recs.map fun x => (reg (stRreg x.1), x.2) } }
          (s.setCore core.val { x with drainNo := x.drainNo + 1 }).setArr core.val arr { s.arr core.val arr with drain := some d }
  | some _ => s.discardHead core.val arr)

/-- DRAIN_COMPLETE (R133 to R136): the tile's rows are read and handed on, and the engine is free.
[DEDUCED: log entry 11] -/
def execDrainComplete (core : Core) (arr : Arr) (hits fhits : List EccHit) (s : State) : Result :=
  if s.power.stopped then .next s else
  let a := s.arr core.val arr
  .next (match a.drain with
  | none => s
  | some d =>
    if (s.core core.val).drainWaits arr d then s
    else match ((s.eccHits hits).fileHits core.val arr fhits).drainRows core arr d (s.pathBad hits) d.next d.rows with
      | none => s
      | some (t, _) =>
        (t.setArr core.val arr { t.arr core.val arr with drain := none }).flushOps core.val)

/-! ### Preemption, save and restore -/

/-- ARRAY_PREEMPTION (R110, R142, R148, R377, R512): no further work row of the preempted command issues; commands still
in the queue are held aside. `rows` is how many rows the drain engine had handed on, which are none while the DRAIN waits; `fhits` are
the errors of the file words that those rows read. [DEDUCED: log entry 10] -/
def execArrayPreemption (array : ArrayId) (rows : Nat) (fhits : List EccHit) (s : State) : Result :=
  let ⟨core, arr⟩ := array
  if s.power.stopped then .next s else
  let a := s.arr core.val arr
  .next (if !(s.core core.val).urgent || a.saved.isSome then s
    else
      let started := match a.stream with
        | some x => if 0 < x.next then some x else none
        | none => none
      let handed := match a.drain with
        | some d => if (s.core core.val).drainWaits arr d then d.next else clampNat d.next d.rows rows
        | none => 0
      -- rows that a die in reset holds back have not been handed on
      let (s, handed, met) := match a.drain with
        | some d =>
          if handed = d.next then (s, handed, d.met)
          else match (s.fileHits core.val arr fhits).drainRows core arr d [] d.next handed with
            | some (t, met) => (t, handed, met)
            | none => (s, d.next, d.met)
        | none => (s, handed, false)
      let drain := (s.arr core.val arr).drain.map fun d => { d with next := handed, met }
      let a := s.arr core.val arr
      let saved : ArraySaved := { live := a.live
                                  shadow := if a.loading.isSome then a.loading else a.shadow
                                  shadowValid := a.shadowValid || a.loading.isSome
                                  stream := started, drain, queue := a.queue ++ a.entering, zp := s.zpGet core.val arr }
      let s := s.setArr core.val arr { a with
        saved := some saved, stream := none, drain := none, queue := [], entering := [],
        fill := [], loading := none, live := none, shadow := none, shadowValid := false, preempting := true }
      (s.zpSet core.val arr [0, 0, 0, 0]).preemptFuller core.val arr)

/-- The urgent unit a core runs, from its descriptor. -/
def State.urgentDesc (s : State) (c : Nat) : Option UrgentDesc := s.urgents[(s.thr c .U).unit]?

/-- Where an array's save record starts in local SRAM (R138). -/
def State.saveBase (s : State) (c : Nat) (a : Arr) : Nat :=
  0x5000000000 + c * 0x100000 + s.rd (Reg.CRN_ACC_SAVE_BASE (crownOf c) (localOf c)) * 4096 + (match a with
    | .F => 0
    | .B => s.rd (Reg.CRN_ACC_SAVE_F_KIB (crownOf c) (localOf c)) * 1024 + 128)

/-- ACCUMULATOR_SAVE (R137, R138): once the array has drained and is idle. An array with no valid slot is not saved.
[DEDUCED: log entry 18] -/
def execAccumulatorSave (core : Core) (arr : Arr) (fhits : List EccHit) (s : State) : Result :=
  if s.power.stopped then .next s else
  let a := s.arr core.val arr
  .next (if !a.preempting || a.saving || a.fuller.phase != .idle then s
    else match s.urgentDesc core.val with
    | none => s
    | some u =>
      let slots := (List.range 16).map (s.slot core.val arr)
      if !slots.any (·.valid) then s.setArr core.val arr { a with preempting := false }
      else
        let foot := match arr with
          | .F => (u.footF, u.lenF)
          | .B => (u.footB, u.lenB)
        let st := foot.1
        let len := foot.2
        let s := s.fileHits core.val arr fhits
        let a := s.arr core.val arr
        let head : List Byte := slots.flatMap (fun x => leBytes 4 x.toNat) ++ (leBytes 4 st ++ leBytes 4 len)
        let s := s.writeBytes (s.saveBase core.val arr)
          ((padBytes 128 head).map some ++ a.fileGet (st * 1024) (len * 1024))
        let s := (List.range 16).foldl (fun s sl => s.setSlot core.val arr sl ⟨false, 0, 0, 0⟩) s
        s.setArr core.val arr { s.arr core.val arr with saving := true })

/-- SAVE_COMPLETE (R140, R111): the record is committed, and the load path is free. -/
def execSaveComplete (core : Core) (arr : Arr) (s : State) : Result :=
  if s.power.stopped then .next s else
  let a := s.arr core.val arr
  .next (if a.saving then s.setArr core.val arr { a with
      saving := false, preempting := false, saved := a.saved.map fun v => { v with record := true } }
    else s)

/-- The descriptors of a save record; none when R139's check refuses it. -/
def recordSlots (a : Arr) (head : List DataByte) : Option (List Slot × Nat × Nat) :=
  if head.any (·.isNone) then none
  else
    let bs := head.map (·.getD 0)
    let slots := (List.range 16).map fun i => Slot.ofNat (fieldNat bs (4 * i) 4)
    let st := fieldNat bs 64 4
    let len := fieldNat bs 68 4
    let limit := match a with
      | .F => 192
      | .B => 384
    let clash := slots.zipIdx.any fun e => e.1.valid &&
      (e.1.mode == 7 || decide (5 ≤ e.1.rsz) || decide (e.1.base + e.1.kib > limit) ||
        slots.zipIdx.any fun f => f.2 != e.2 && f.1.valid && decide (e.1.base < f.1.base + f.1.kib) &&
          decide (f.1.base < e.1.base + e.1.kib))
    if (bs.drop 72).any (· != 0) || decide (st + len > limit) || clash then none else some (slots, st, len)

/-- A stationary of the preempted unit is loaded again, with the zero point its LOAD used (R110, R148). -/
def reloadStationary (c : Core) (a : Arr) (th : Thr) (st : Option Stationary) (r : Reader) : Option Stationary × Reader :=
  match st with
  | none => (none, r)
  | some x => readStationary c a th x.cmd x.regs x.zs r

/-- Threads F and B of a core resume once both arrays have been given back (R377). -/
def State.resumeCore (s : State) (c : Nat) : State :=
  let x := s.core c
  if x.arrF.saved.isSome || x.arrB.saved.isSome then s
  else s.setCore c { x with urgent := false, thrF := { x.thrF with suspended := false },
                            thrB := { x.thrB with suspended := false } }

/-- ACCUMULATOR_RESTORE (R139, R142, R148, R377): when thread U has ended and its commands are done.
[DEDUCED: log entry 18] -/
def execAccumulatorRestore (core : Core) (arr : Arr) (hits : List EccHit) (s : State) : Result :=
  if s.power.stopped then .next s else
  let a := s.arr core.val arr
  .next (match a.saved with
  | none => s
  | some v =>
    if (s.thr core.val .U).running || !(s.core core.val).urgent || a.queue ≠ [] || a.stream.isSome || a.drain.isSome ||
        a.preempting then s
    else
      let bad := s.pathBad hits
      let was := s
      let s := s.eccHits hits
      let th : Thr := match arr with
        | .F => .F
        | .B => .B
      let base := s.saveBase core.val arr
      let head := if v.record then spoil bad base (s.readBytes base 128) else []
      let restored := if v.record then recordSlots arr head else some ([], 0, 0)
      let give (s : State) : State :=
        let (live, r) := reloadStationary core arr th v.live { s, bad }
        let (shadow, r) := reloadStationary core arr th v.shadow r
        if r.held then was else
        let s := r.s.zpSet core.val arr v.zp
        let s := s.setArr core.val arr { s.arr core.val arr with
          saved := none, live, shadow, shadowValid := v.shadowValid, queue := v.queue.take 8, entering := v.queue.drop 8, stream := v.stream,
          drain := v.drain, fill := [] }
        s.resumeCore core.val
      match restored with
      | some (slots, st, len) =>
        let data := spoil bad (base + 128) (s.readBytes (base + 128) (len * 1024))
        let s := s.consumePoison (.core core) (poisonWords (base + 128) data)
        let s := s.setArr core.val arr ((s.arr core.val arr).filePut (st * 1024) data)
        let slots := if v.record then slots else List.replicate 16 ⟨false, 0, 0, 0⟩
        give (slots.zipIdx.foldl (fun s e => s.setSlot core.val arr e.2 e.1) s)
      | none =>
        let s := s.consumePoison (.core core) (poisonWords base head)
        let s := (List.range 16).foldl (fun s sl => s.setSlot core.val arr sl ⟨false, 0, 0, 0⟩) s
        let s := s.record .accumulatorDescriptorError (coreSource core.val) [pv2 core.val]
        let s := s.setArr core.val arr { s.arr core.val arr with saved := none, queue := [], stream := none, drain := none }
        (s.resumeCore core.val).unitError core.val th)

end Sys2Proof.Machine
end

