-- ==== Sys2Proof/Machine/Recorder.lean ====
section
/-! DEFINITION. The event recorder: second boundaries, rate limits, flushing, RESERVE, power fail and the clear
(R471 to R479, R510). Admission itself stands in Ops. -/

namespace Sys2Proof.Machine

/-- Records an area of MRAM holds (R473). [DEDUCED: log entry 24] -/
def recorderSlots : Nat := 130944

/-! ### Headers and RESERVE (R474, R510) -/

/-- Change both areas. -/
def State.modAreas (s : State) (f : RecorderArea → RecorderArea) : State :=
  s.modRec fun k => { k with areaA := f k.areaA, areaB := f k.areaB }

/-- POWERED, the fraction and CYCLES go to both headers (R510). -/
def State.writeHeaders (s : State) : State :=
  let powered := s.rd Reg.EVR_LIFE_POWERED
  let cycles := s.rd Reg.EVR_LIFE_CYCLES
  let fraction := s.recorder.fraction
  s.modAreas fun a => { a with powered, cycles, fraction }

/-- The recorder's fraction of the current second, as it stands now. [DESIGN CHOICE: log entry 24] -/
def State.atFraction (s : State) (f : Nat) : State := s.modRec fun k => { k with fraction := f }

/-- HEADER_WRITE (R510): none is made once PWRFAIL_N has been asserted (R475). -/
def execHeaderWrite (fraction : Fin 25000000) (s : State) : Result :=
  let s := s.atFraction fraction.val
  .next (if s.recorder.closed then s else s.writeHeaders)

/-- Admit the events that wait, in order, as far as RESERVE allows (R474). -/
def State.admitWaiting (s : State) : State :=
  let ws := s.recorder.waiting
  ws.foldl State.enterRecord (s.modRec fun k => { k with waiting := [] })

/-- RESERVE rises by 1,024 in both headers, when its number is due next. -/
def State.raiseReserve (s : State) : State :=
  if s.rd Reg.EVR_STATUS_NEXT_SEQ < s.reserve then s
  else
    let r := s.reserve + 1024
    (s.modAreas fun a => { a with reserve := r }).admitWaiting

/-- RESERVE_RAISE (R474): the write that admission waits for; none is made once PWRFAIL_N has been asserted (R475). -/
def execReserveRaise (s : State) : Result := .next (if s.recorder.closed then s else s.raiseReserve)

/-! ### Seconds and tokens (R471, R472, R510) -/

/-- SECOND_BOUNDARY (R472, R510): POWERED gains 1, and every code with suppressed events gets its summary.
[DEDUCED: log entry 24; DESIGN CHOICE: log entry 33] -/
def execSecondBoundary (s : State) : Result :=
  let s := (s.atFraction 0).incStop Reg.EVR_LIFE_POWERED
  .next (if s.recorder.closed then s
    else s.recorder.suppressed.foldl (fun s e =>
      let last := Sparse.get 0 s.recorder.lastSeq e.1
      (s.modRec fun k => { k with suppressed := Sparse.put 0 k.suppressed e.1 0 }).record .suppressionSummary (source 0 0 2)
        [pv2 e.1, pv4 e.2, pv6 last]) s)

/-- TOKEN_ARRIVAL (R471): a code's bucket gains a token while it is below BURST. [DEDUCED: log entry 24] -/
def execTokenArrival (code : Fin 65536) (s : State) : Result :=
  let b := Sparse.get 64 s.recorder.buckets code.val
  .next (if b < s.rd Reg.EVR_CFG_BURST then s.modRec fun k => { k with buckets := Sparse.put 64 k.buckets code.val (b + 1) } else s)

/-! ### Flushing (R473) -/

/-- Write a record into its slot of an area. -/
def RecorderArea.store (a : RecorderArea) (r : Record) : RecorderArea :=
  { a with records := Sparse.put none a.records (r.seq % recorderSlots) (some r) }

/-- OLDEST, which goes to both headers (R474) unless PWRFAIL_N has stopped every write but record flushes (R475).
[DEDUCED: log entry 24] -/
def State.setOldest (s : State) (o : Nat) : State :=
  let s := s.wr Reg.EVR_OLDEST_OLDEST o
  if s.recorder.closed then s else s.modAreas fun a => { a with oldest := o }

/-- A clear by a port's write (R479). [DEDUCED: log entry 24; PRESUMED: log entry 24] -/
def State.clearRecorder (s : State) (p : Nat) : State :=
  let old := s.rd Reg.EVR_OLDEST_OLDEST
  let s := s.setOldest (s.rd Reg.EVR_STATUS_NEXT_SEQ)
  let s := (s.wr Reg.EVR_CNT_SUPPRESSED 0).wr Reg.EVR_CNT_LOST 0
  (s.modRec fun k => { k with suppressed := [], clearing := none }).record .recorderCleared (source 0 0 2) [pv6 old, pv1 p]

/-- A flush ends, and with it the wait of a clear (R473, R479, R510). -/
def State.endFlush (s : State) : State :=
  let s := s.writeHeaders.clrB Reg.EVR_STATUS_FLUSHING
  match s.recorder.clearing with
  | some p => if s.recorder.closed then s else s.clearRecorder p
  | none => s

/-- FLUSHED and OLDEST as the flush goes on: a slot of MRAM used again takes its old record away. [DEDUCED: log entry 24] -/
def State.showFlushed (s : State) (seq : Nat) : State :=
  let s := s.wr Reg.EVR_FLUSHED_FLUSHED ((s.recorder.unflushed.head?).getD (s.rd Reg.EVR_STATUS_NEXT_SEQ))
  let o := seq + 1 - recorderSlots
  let s := if s.rd Reg.EVR_OLDEST_OLDEST < o then s.setOldest o else s
  if s.recorder.unflushed = [] then s.endFlush else s

/-- The record of a SEQ that the ring still holds. [DEDUCED: log entry 24] -/
def State.ringRecord (s : State) (seq : Nat) : Option Record :=
  (Sparse.get none s.recorder.ring (seq % 65536)).filter fun r => r.seq == seq

/-- Write one unflushed record into the brims whose write succeeds. One that fails in either is an MRAM flush failure; a
record that neither brim took is still to be flushed, and one that the ring has lost since is not. [DEDUCED: log entry 24] -/
def State.flushOne (s : State) (okA okB : Bool) : State :=
  match s.recorder.unflushed with
  | [] => s.clrB Reg.EVR_STATUS_FLUSHING
  | seq :: rest =>
    match s.ringRecord seq with
    | none => (s.modRec fun k => { k with unflushed := rest }).showFlushed seq
    | some r =>
      let s := s.modRec fun k => { k with
        areaA := if okA then k.areaA.store r else k.areaA
        areaB := if okB then k.areaB.store r else k.areaB
        unflushed := if okA || okB then rest else k.unflushed }
      let s := if okA && okB then s
        else (s.setB Reg.EVR_STATUS_FLUSH_FAIL).record .mramFlushFailure (source 0 0 2) []
      s.showFlushed seq

/-- FLUSH_WRITE (R473): the next unflushed record, while a flush is in progress. [DEDUCED: log entry 24] -/
def execFlushWrite (okA okB : Bool) (fraction : Fin 25000000) (s : State) : Result :=
  .next (if s.rdB Reg.EVR_STATUS_FLUSHING then (s.atFraction fraction.val).flushOne okA okB else s)

/-- Flush with at most `n` writes; `oks` says of each, in order, whether it passes its read-back in the two brims (R473).
[DESIGN CHOICE: log entry 24] -/
def State.flushSome : Nat → List (Bool × Bool) → State → State
  | 0, _, s => s
  | n + 1, oks, s =>
    if s.recorder.unflushed = [] then s
    else
      let ok := oks.headD (true, true)
      State.flushSome n oks.tail (s.flushOne ok.1 ok.2)

/-- Flush everything: a write that fails in both brims is made again, and a failure leaves a record of its own. -/
def State.flushAll (s : State) (oks : List (Bool × Bool)) : State :=
  State.flushSome (s.recorder.unflushed.length + 2 * oks.length) oks s

/-! ### Power fail (R475) -/

/-- POWER_FAIL (R475): the whole sequence. 590 records go into MRAM at most: the power-fail record, then the others in
ascending order. [DEDUCED: log entry 24] -/
def execPowerFail (fraction : FlushFacts) (s : State) : Result :=
  let ⟨fraction, oks⟩ := fraction
  .next (if s.recorder.closed then s
    else
      let s := (s.atFraction fraction.val).raiseReserve
      let s := { s with power := { s.power with stopped := true }, boot := { s.boot with op := none, session := none } }
      let s := s.clrB Reg.SEC_UPD_STATUS_BUSY
      let seq := s.rd Reg.EVR_STATUS_NEXT_SEQ
      let others := s.recorder.unflushed
      let s := s.admitNow ⟨Event.powerFail.code, Event.powerFail.sev, source 0 0 2,
        payload [pv4 others.length, pv6 seq]⟩
      let s := s.modRec fun k => { k with closed := true, clearing := none, unflushed := seq :: others }
      let s := (State.flushSome 590 oks s).modRec fun k => { k with unflushed := k.unflushed.filter (· != seq) }
      (s.writeHeaders.clrB Reg.EVR_STATUS_FLUSHING).incStop Reg.RST_CNT_PWRFAIL)

/-! ### After power-on (R474, R476) -/

/-- Is a slot's record older than another, or is there none? -/
def olderRecord (x y : Option Record) : Bool :=
  match x, y with
  | some x, some y => decide (x.seq < y.seq)
  | none, some _ => true
  | _, none => false

/-- What a brim's area lacks and the other has: of two records of one slot, the one with the higher SEQ.
[DEDUCED: log entry 24] -/
def RecorderArea.take (a b : RecorderArea) : RecorderArea :=
  b.records.foldl (fun a e => if olderRecord (Sparse.get none a.records e.1) e.2 then
    { a with records := Sparse.put none a.records e.1 e.2 } else a) a

/-- Every record that only one brim's area holds, in both (R476). [DEDUCED: log entry 24] -/
def State.mergeAreas (s : State) : State :=
  s.modRec fun k => { k with areaA := k.areaA.take k.areaB, areaB := k.areaB.take k.areaA }

/-- The record of highest SEQ in MRAM. -/
def RecorderArea.newest (a : RecorderArea) : Option Record :=
  a.records.foldl (fun b e => match b, e.2 with
    | some x, some y => if x.seq < y.seq then some y else some x
    | none, y => y
    | x, none => x) none

/-- The lowest SEQ whose slot no later record of the area has taken. [DEDUCED: log entry 24] -/
def RecorderArea.lowest (a : RecorderArea) : Nat :=
  match a.newest with
  | some r => r.seq + 1 - recorderSlots
  | none => 0

/-- The range of SEQs that may have been lost, how many of it were, and whether the count is exact (R476). -/
def State.lostRecords (s : State) : Nat × Nat × Bool :=
  let a := s.recorder.areaA
  match a.newest with
  | some r =>
    if r.code = Event.powerFail.code then
      let n := fieldNat r.payload 0 4
      let lo := r.seq - n
      let here (q : Nat) : Bool := match Sparse.get none a.records (q % recorderSlots) with
        | some x => x.seq == q
        | none => false
      (lo, ((List.range n).filter fun i => !here (lo + i)).length, true)
    else (r.seq + 1, s.reserve - (r.seq + 1), false)
  | none => (1, s.reserve - 1, false)

/-- The recorder comes up after a power-on reset, with what MRAM holds (R474, R476, R510). [DESIGN CHOICE: log entry 3] -/
def State.bootRecorder (s : State) : State :=
  let k := s.recorder
  let h := if k.areaA.powered < k.areaB.powered then k.areaB else k.areaA
  let s := s.modRec fun k => { areaA := k.areaA, areaB := k.areaB, fraction := h.fraction }
  let s := (s.wr Reg.EVR_STATUS_NEXT_SEQ s.reserve).wr Reg.EVR_OLDEST_OLDEST
    (max (max k.areaA.oldest k.areaB.oldest) (max k.areaA.lowest k.areaB.lowest))
  let s := (s.wr Reg.EVR_FLUSHED_FLUSHED s.reserve).wr Reg.EVR_LIFE_POWERED h.powered
  let s := (s.wr Reg.EVR_LIFE_CYCLES (max k.areaA.cycles k.areaB.cycles + 1)).mergeAreas
  let (lo, n, exact) := s.lostRecords
  let s := s.raiseReserve
  if n = 0 then s
  else (s.incStop Reg.EVR_CNT_LOST n).record .recordsLost (source 0 0 2) [pv4 n, pv6 lo, pv4 exact.toNat]

end Sys2Proof.Machine
end

