-- ==== Sys2Proof/Machine/Firmware.lean ====
section
/-! DEFINITION. Firmware: manifests and their checks (R446, R447), choosing images (R448 to R450), keys and measurements
(R459 to R461), and what the boot steps do (R443, R444, R452, R457). -/

namespace Sys2Proof.Machine

/-! ### The boot state record and the banks (R441, R442) -/

def State.modBoot (s : State) (f : BootSt → BootSt) : State := { s with boot := f s.boot }
def State.fwType (s : State) (k : Nat) : FwType := Sparse.get {} s.boot.types k
/-- Update the boot state record: a change of what it holds overwrites its older copy under the next sequence number (R442).
The bank in use is no part of the record. [DEDUCED: log entry 25] -/
def State.setFwType (s : State) (k : Nat) (x : FwType) : State :=
  s.modBoot fun b =>
    let b' := { b with types := Sparse.put {} b.types k x }
    if { x with inUse := (s.fwType k).inUse } = s.fwType k then b'
    else { b' with older := b.types, recordSeq := b.recordSeq + 1 }

/-- The ROM reads the boot state record (R442); an update then counts on from the sequence number of the copy it takes. Where neither copy passes, bank A of every type is active and nothing is pending or
in trial; what the record said of VALID and of the last result is lost, and free. [DESIGN CHOICE: log entry 25] -/
def State.readBootRecord (s : State) (c : RecordCopy) : State :=
  match c with
  | .newer => s
  | .older => s.modBoot fun b => { b with
      types := Sparse.mapVals {} (fun _ t => { t with inUse := none }) b.older
      recordSeq := b.recordSeq - 1 }
  | .neither =>
    let (w, s) := s.drawWord
    let ty (k : Nat) : FwType :=
      { valid := [0, 1].filter fun b => bit w (2 * k + b), result := bits w (4 * k + 11) (4 * k + 8) }
    let types := [0, 1, 2].foldl (fun ts k => Sparse.put {} ts k (ty k)) []
    s.modBoot fun b => { b with types, older := types, recordSeq := w / 2 ^ 32 }


/-- A bank's contents: in brim 0 (copy 0) or brim 2 (copy 1). -/
def State.bank_ (s : State) (copy k b : Nat) : List Byte := Sparse.get [] s.boot.banks (copy * 6 + k * 2 + b)
def State.setBank_ (s : State) (copy k b : Nat) (v : List Byte) : State :=
  s.modBoot fun x => { x with banks := Sparse.put [] x.banks (copy * 6 + k * 2 + b) v }

/-- Bytes of a bank of a type (R441). -/
def bankSize (k : Nat) : Nat := [4194304, 2097152, 1048576].getD k 0

/-- SOURCE of firmware events (R468). -/
def fwSource : Nat := source 0 0 6

/-! ### Manifests (R446, R447) -/

/-- Bytes from the start of an image to its payload. -/
def payloadAt : Nat := 30304

def manifestOf (b : List Byte) : List Byte := b.take 512
def mVersion (b : List Byte) : Nat := fieldNat b 8 4
def mSvn (b : List Byte) : Nat := fieldNat b 12 1
def mHweMin (b : List Byte) : Nat := fieldNat b 13 1
def mHweMax (b : List Byte) : Nat := fieldNat b 14 1
def mIfe (b : List Byte) : Nat := fieldNat b 15 1
def mKeySlot (b : List Byte) : Nat := fieldNat b 20 1
def mRevoke (b : List Byte) : Nat := fieldNat b 21 1 % 16
def mPayloadLen (b : List Byte) : Nat := fieldNat b 24 4
def mDigest (b : List Byte) : List Byte := (b.drop 32).take 64
def mPubKey (b : List Byte) : List Byte := (b.drop 96).take 64

def allZero (b : List Byte) (o n : Nat) : Bool := ((b.drop o).take n).all (· == 0)

/-- Check 2 of R447: the key is the one fused for a slot that is not revoked. -/
def State.keyOk (s : State) (slot : Nat) (key : List Byte) : Bool :=
  decide (slot < 4) && shake256 key 32 == Config.keyHash slot && !bit s.boot.revoked slot

/-- The image checks in order; 0 when all pass (R447). [DEDUCED: log entry 25] -/
def State.imageResult (s : State) (k : Nat) (valid : Bool) (b : List Byte) : Nat :=
  if !valid || fieldNat b 0 4 != 0x57464849 || fieldNat b 6 2 != 1 || fieldNat b 4 1 != k + 1 || !allZero b 5 1 ||
      !allZero b 22 2 || !allZero b 28 4 || !allZero b 160 352 || decide (bankSize k < payloadAt + mPayloadLen b) ||
      decide (b.length < payloadAt) then 1
  else if !s.keyOk (mKeySlot b) (mPubKey b) then 2
  else if !Config.slhVerify 0 (mPubKey b) (manifestOf b) ((b.drop 512).take 29792) then 3
  else if mDigest b != shake256 ((b.drop payloadAt).take (mPayloadLen b)) 64 then 4
  else if mSvn b < Sparse.get 0 s.boot.floors k then 5
  else if Config.hwe.toNat < mHweMin b ∨ mHweMax b < Config.hwe.toNat then 6
  else 0

/-- The result of a bank of one brim. [DEDUCED: log entry 25] -/
def State.bankResult (s : State) (copy k b : Nat) : Nat :=
  s.imageResult k ((s.fwType k).valid.contains b) (s.bank_ copy k b)

/-- The order in which banks are examined (R449). -/
def FwType.order (t : FwType) : List Nat := if t.pending then [1 - t.active, t.active] else [t.active, 1 - t.active]

/-- The first bank that passes, in a brim. [DEDUCED: log entry 25] -/
def State.chooseBank (s : State) (copy k : Nat) : Option Nat := (s.fwType k).order.find? fun b => s.bankResult copy k b == 0

/-- The result of the last bank examined. -/
def State.lastResult (s : State) (copy k : Nat) : Nat := s.bankResult copy k ((s.fwType k).order.getLastD 0)

/-- The manifest of the image in use. -/
def State.manifest (s : State) (k : Nat) : List Byte :=
  match (s.fwType k).inUse with
  | some b => manifestOf (s.bank_ 0 k b)
  | none => []

/-- The bank of the active image of a type: the one in use, or the active bank where it passes the checks and is not loaded (R450, R456,
R458). [DEDUCED: log entry 27] -/
def State.activeBank (s : State) (k : Nat) : Option Nat :=
  let t := s.fwType k
  match t.inUse with
  | some b => some b
  | none => if s.bankResult 0 k t.active = 0 then some t.active else none

/-- Its manifest. -/
def State.activeManifest (s : State) (k : Nat) : Option (List Byte) :=
  (s.activeBank k).map fun b => manifestOf (s.bank_ 0 k b)

/-! ### What registers show of it -/

/-- SEC_BOOT, SEC_FW and PENDING of SEC_UPD_STATUS. -/
def State.showFirmware (s : State) : State :=
  let s := [0, 1, 2].foldl (fun s k =>
    let t := s.fwType k
    let s := ((s.wr (Reg.SEC_BOOT_BANK k) (t.inUse.getD t.active)).wrB (Reg.SEC_BOOT_PEND k) t.pending).wrB
      (Reg.SEC_BOOT_TRIAL k) t.trial
    let s := s.wr (Reg.SEC_BOOT_RESULT k) t.result
    let m := s.manifest k
    let s := ((s.wr (Reg.SEC_FW_VERSION k) (mVersion m)).wr (Reg.SEC_FW_IFE k) (mIfe m)).wr (Reg.SEC_FW_HWE_MAX k) (mHweMax m)
    ((s.wr (Reg.SEC_FW_HWE_MIN k) (mHweMin m)).wr (Reg.SEC_FW_SVN k) (mSvn m)).wr (Reg.SEC_FW_KEYSLOT k) (mKeySlot m)) s
  let p (k : Nat) : Nat := (s.fwType k).pending.toNat * 2 ^ k
  s.wr Reg.SEC_UPD_STATUS_PENDING (p 0 + p 1 + p 2)

/-- SEC_FUSE (R448). [DEDUCED: log entry 4] -/
def State.showFuses (s : State) : State :=
  let f (k : Nat) : Nat := Sparse.get 0 s.boot.floors k
  ((((s.wr Reg.SEC_FUSE_HWE Config.hwe.toNat).wr Reg.SEC_FUSE_REVOKED s.boot.revoked).wr Reg.SEC_FUSE_FLOOR_MC (f 0)).wr
    Reg.SEC_FUSE_FLOOR_UC (f 1)).wr Reg.SEC_FUSE_FLOOR_SD (f 2)

/-! ### Measurements and keys (R459 to R461) -/

/-- Measurement 4 as the fuses stand. -/
def State.fuseMeasure (s : State) : List Byte :=
  Config.fuseDigest (Sparse.get 0 s.boot.floors 0) (Sparse.get 0 s.boot.floors 1) (Sparse.get 0 s.boot.floors 2) s.boot.revoked

def State.setMeasure (s : State) (i : Nat) (v : List Byte) : State :=
  s.modBoot fun b => { b with measured := Sparse.put [] b.measured i v }

/-- A manifest's measurement, zero when no image is in use. -/
def State.measureManifest (s : State) (k : Nat) : State :=
  s.setMeasure (k + 1) (if (s.fwType k).inUse.isSome then shake256 (s.manifest k) 64 else [])

/-! ### Boot steps (R443) -/

/-- Step 3, before it chooses: a management controller trial that was still on has failed (R457). [DEDUCED: log entry 25] -/
def State.endFailedTrial (s : State) : State :=
  let t := s.fwType 0
  if t.trial then
    (s.setFwType 0 { t with trial := false, pending := false, result := 8 }).record .firmwareReverted fwSource []
  else s

/-- Step 3: brim 0 starts the bank it chooses; none where none passes (R449). [DEDUCED: log entry 25] -/
def State.startController (s : State) : Option State :=
  let reverted := (s.fwType 0).trial
  let s := s.endFailedTrial
  let t := s.fwType 0
  (s.chooseBank 0 0).map fun b =>
    (s.setFwType 0 { t with inUse := some b, trial := t.pending && b != t.active, result := if reverted then 8 else 0 })

/-- Is the interface epoch of an image of type `k` in the range that a management controller's manifest accepts (R446)? -/
def epochIn (m : List Byte) (k : Nat) (b : List Byte) : Bool :=
  decide (fieldNat m (14 + 2 * k) 1 ≤ mIfe b) && decide (mIfe b ≤ fieldNat m (15 + 2 * k) 1)

/-- The same for the management controller that runs (R450). -/
def State.epochOk (s : State) (k : Nat) (b : List Byte) : Bool := epochIn (s.manifest 0) k b

/-- Selection without a trial (R450): the bank put in use, and the cause for FWF. [DEDUCED: log entry 25] -/
def State.selectPlain (s : State) (k : Nat) (reverted : Bool) : State × Option Nat :=
  let t := s.fwType k
  match s.chooseBank 0 k with
  | none => (s.setFwType k { t with inUse := none, result := if reverted then 8 else s.lastResult 0 k }, some (2 * k - 2))
  | some b =>
    let s := s.setFwType k { t with result := if reverted then 8 else 0 }
    if s.epochOk k (s.bank_ 0 k b) then (s.setFwType k { s.fwType k with inUse := some b }, none)
    else (s.setFwType k { s.fwType k with inUse := none }, some (2 * k - 1))

/-- Step 5: selection of the microcode (1) or the SerDes firmware (2), with the outcome of a trial (R450, R457).
[DEDUCED: log entries 3 and 25] -/
def State.selectFirmware (s : State) (k : Nat) : State × Option Nat :=
  let t := s.fwType k
  if !t.pending then s.selectPlain k false
  else
    let b := 1 - t.active
    if s.bankResult 0 k b = 0 ∧ s.epochOk k (s.bank_ 0 k b) then
      (s.setFwType k { t with active := b, pending := false, trial := false, result := 0, inUse := some b }, none)
    else
      let s := (s.setFwType k { t with pending := false, trial := false, result := 8 }).record .firmwareReverted fwSource []
      s.selectPlain k true

/-- Set a bit of FWF. -/
def State.fwf (s : State) (b : Nat) : State := s.wr Reg.MGT_STATUS_FWF (s.rd Reg.MGT_STATUS_FWF ||| 2 ^ b)

/-- A crown is not usable. [DEDUCED: log entry 5] -/
def State.crownBad (s : State) (n : Nat) : State :=
  s.wr Reg.DEV_CAP_CROWN_OK (s.rd Reg.DEV_CAP_CROWN_OK &&& (15 - 2 ^ n))

/-- Step 6: one rail of the regulator stage (R388). [DEDUCED: log entry 5] -/
def State.discoverRail (s : State) (r : Nat) (x : Option RailFacts) : State :=
  match x with
  | none => s.clrB (Reg.PWR_RAIL_PRESENT r)
  | some f =>
    let s := ((s.setB (Reg.PWR_RAIL_PRESENT r)).wrB (Reg.PWR_RAIL_AVS r) (decide (r < 4))).wr (Reg.PWR_RAIL_PHASES r) f.phases
    let s := (s.wr (Reg.PWR_RAIL_VMIN r) f.vmin).wr (Reg.PWR_RAIL_VMAX r) f.vmax
    if 4 ≤ r then s
    else
      let s := (s.wr (Reg.PWR_RAIL_ISUST r) (min 940 f.iout)).wr (Reg.PWR_RAIL_IPEAK r) (min 1250 (9 * f.limit / 10))
      if 550 < f.vmin ∨ f.vmax < 720 then (s.crownBad r).record .regulatorUnsuitable (powerSource r 7) [] else s

/-- A coolant sensor answers, or its absence is recorded (R414, R416). [DEDUCED: log entry 25] -/
def State.discoverSensor (s : State) (f : Fld) (present : Bool) : State :=
  let s := s.wrB f present
  if present then s else s.record .coolantSensorAbsent (powerSource 0 0) []

/-- Step 6 (R388, R414). [DEDUCED: log entries 5 and 25] -/
def State.discover (s : State) (f : BootFacts) : State :=
  let s := s.wr Reg.DEV_CAP_CROWN_OK 15
  let s := (List.range 10).foldl (fun s r => s.discoverRail r (f.rails.getD r none)) s
  (s.discoverSensor Reg.THM_COOL_STATUS_IN_PRESENT f.inlet).discoverSensor Reg.THM_COOL_STATUS_OUT_PRESENT f.outlet

/-- The towers whose dies use a rail (R495): VCORE n tower n, and VSRAM, VDDM, VPPM and VBRIM every tower. -/
def railTowers (r : Nat) : List Nat := if r < 4 then [r] else if r < 8 then [0, 1, 2, 3] else []

/-- A tower that fails to come up, its lanes untrained (R34, R444). [DEDUCED: log entry 5] -/
def State.failTower (s : State) (t : Nat) : State :=
  ((s.setTower t { s.tower t with untrained := true }).crownBad t).fwf 4

/-- The logic of a tower's dies stays in reset while a rail they use is missing (R498). -/
def State.holdDies (s : State) (t : Nat) : State :=
  let x := s.tower t
  s.setTower t { x with
    cacheReset := x.cacheReset || s.cacheUnpowered t
    horizonReset := if s.horizonsUnpowered then [0, 1, 2, 3, 4] else x.horizonReset }

/-- Step 7: the towers that fail to come up, those whose rails are missing among them (R444, R498).
[DEDUCED: log entry 5] -/
def State.failTowers (s : State) (f : BootFacts) : State :=
  let s := s.modBoot fun b => { b with missing := f.missing.map (·.val) }
  let failed := f.failedTowers.map (·.val) ++ (f.missing.flatMap fun r => railTowers r.val)
  [0, 1, 2, 3].foldl State.holdDies (failed.foldl State.failTower s)

/-- PHASE shows the last step completed (R443). -/
def State.phase (s : State) (n : Nat) : State := s.wr Reg.MGT_STATUS_PHASE n

/-- Step 8 (R443, R451, R452, R457). [DEDUCED: log entry 25] -/
def State.finishBoot (s : State) : State :=
  let store := match (s.fwType 1).inUse with
    | some _ => some (mDigest (s.manifest 1))
    | none => none
  let s := s.modBoot fun b => { b with store }
  let t := s.fwType 0
  let s := if t.trial then s.setFwType 0 { t with active := t.inUse.getD t.active, pending := false, trial := false } else s
  let s := (s.measureManifest 1).measureManifest 2
  let w := s.rd Reg.MGT_STATUS_FWF
  let s := s.wr Reg.MGT_STATUS_MODE (if bit w 0 || bit w 1 || bit w 4 then 2 else 1)
  ((s.phase 8).showFirmware).record .bootComplete fwSource []

/-- Step 5: the microcode and the SerDes firmware are selected, and every link with EN set begins bring-up (R443, R450).
[DEDUCED: log entry 25] -/
def State.selectAll (s : State) : State :=
  let (s, uc) := s.selectFirmware 1
  let s := match uc with
    | some c => s.fwf c
    | none => s
  let (s, sd) := s.selectFirmware 2
  let s := match sd with
    | some c => s.fwf c
    | none =>
      (List.range 14).foldl (fun s l => if s.rdB (Reg.HB_LINK_CTL_EN l) then s.wr (Reg.HB_LINK_STATUS_STATE l) 1 else s)
        (s.modBoot fun b => { b with serdes := true })
  s.showFirmware

/-- Steps 5 to 8, as far as the management controller comes (R443, R457). [DEDUCED: log entry 25] -/
def State.bootTo (s : State) (f : BootFacts) (last : Nat) : State :=
  let s := if 5 ≤ last then s.selectAll.phase 5 else s
  let s := if 6 ≤ last then (s.discover f).phase 6 else s
  let s := if 7 ≤ last then (s.failTowers f).phase 7 else s
  if 8 ≤ last then s.finishBoot else s

/-- Steps 1 and 2: the boot processors start from ROM, and read their fuses and the boot state record (R442, R443).
[DEDUCED: log entry 25] -/
def State.startRom (s : State) (f : BootFacts) : State :=
  let s := (((s.phase 1).readBootRecord f.record).showFuses).phase 2
  s.setMeasure 4 s.fuseMeasure

/-- No bank of brim 0 passes: ROM recovery, with no image in use to be measured (R449, R451, R461). [DEDUCED: log entry 25] -/
def State.enterRecovery (s : State) : State :=
  let t := s.fwType 0
  let s := s.endFailedTrial.setFwType 0 { t with inUse := none, trial := false, pending := t.pending && !t.trial
                                                 result := s.lastResult 0 0 }
  ([0, 1, 2].foldl State.measureManifest (s.wr Reg.MGT_STATUS_MODE 3)).showFirmware

/-- Steps 1 to 8, from registers at their reset values (R443). [DESIGN CHOICE: log entry 3; DEDUCED: log entry 25] -/
def State.bootPackage (s : State) (f : BootFacts) : State :=
  let s := s.startRom f
  match s.startController with
  | none => s.enterRecovery
  | some s =>
    let s := ({ s.phase 3 with fresh := s.fresh + 1 } : State).modBoot fun b => { b with aliasNo := s.fresh }
    ((s.measureManifest 0).phase 4).showFirmware.bootTo f (match f.hangs with
      | some k => 4 + k.val
      | none => 8)

/-! ### The standby (R449, R466) -/

/-- STANDBY_START (R443, R449): brim 2 chooses from its own banks; where its choice differs from brim 0's, it copies brim 0's
bank, and it starts only an image that passes. [DESIGN CHOICE: log entry 1] -/
def execStandbyStart (s : State) : Result :=
  .next (match (s.fwType 0).inUse with
  | none => s
  | some b =>
    if s.rd Reg.MGT_STATUS_PHASE < 4 then s
    else
      let mine := s.bank_ 0 0 b
      let same := match s.chooseBank 1 0 with
        | some c => mDigest (s.bank_ 1 0 c) == mDigest mine
        | none => false
      if same then s.setB Reg.MGT_STATUS_STBY_OK
      else
        let s := s.setBank_ 1 0 b mine
        if s.imageResult 0 true mine = 0 then s.setB Reg.MGT_STATUS_STBY_OK else s)

/-- STANDBY_SIGNAL (R466): the standby's wait starts again. -/
def execStandbySignal (s : State) : Result := .next (s.modBoot fun b => { b with standbyTimer := b.standbyTimer + 1 })

end Sys2Proof.Machine
end

