-- ==== Sys2Proof/Machine/FwUpdate.lean ====
section
/-! DEFINITION. Firmware update (R453 to R458): the operations of SEC_UPD_CMD, and the parts of them that MCTP shares. -/

namespace Sys2Proof.Machine

/-- The bank of a type that is not active. -/
def FwType.other (t : FwType) : Nat := 1 - t.active

/-- STAGED, by type 0 to 2. -/
def State.isStaged (s : State) (k : Nat) : Bool := bit (s.rd Reg.SEC_UPD_STATUS_STAGED) k

def State.setStaged (s : State) (k : Nat) (on : Bool) : State :=
  let w := s.rd Reg.SEC_UPD_STATUS_STAGED
  s.wr Reg.SEC_UPD_STATUS_STAGED (if on then w ||| 2 ^ k else w &&& (7 - 2 ^ k))

/-- The bank of a type that is not active is about to be written, or its writing was given up: it is not VALID, and neither
pending nor staged (R453, R454). -/
def State.dropBank (s : State) (k : Nat) : State :=
  let t := s.fwType k
  ((s.setFwType k { t with valid := t.valid.filter (· != t.other), pending := false }).setStaged k false).showFirmware

/-- STAGE on an image: its result, and the bank written in both brims where it passes. `writeOk` says that the MRAM writes
succeed. [DEDUCED: log entry 27] -/
def State.stageImage (s : State) (k : Nat) (b : List Byte) (writeOk : Bool) : Nat × State :=
  let r := s.imageResult k true b
  if r ≠ 0 then (r, s)
  else
    let s := s.dropBank k
    let o := (s.fwType k).other
    (if writeOk then 0 else 8, (s.setBank_ 0 k o b).setBank_ 1 k o b)

/-- An update operation starts (R455). [DESIGN CHOICE: log entry 27] -/
def State.startOp (s : State) (o : UpdOp) : State :=
  let s := (s.modBoot fun b => { b with op := some o, session := none }).setB Reg.SEC_UPD_STATUS_BUSY
  (s.wr Reg.SEC_UPD_STATUS_LAST_OP o.op).wrB Reg.SEC_UPD_STATUS_SOURCE o.from_.isSome

/-- ACTIVATE of a type (R456): its result. -/
def State.activate (s : State) (k : Nat) : Nat × State :=
  if k < 3 ∧ s.isStaged k then
    (0, ((s.setFwType k { s.fwType k with pending := true }).setStaged k false).showFirmware)
  else (9, s)

/-- The SVN of the active image of a type, 0 where there is none. -/
def State.svn (s : State) (k : Nat) : Nat := match s.activeManifest k with
  | some m => mSvn m
  | none => 0

/-- Does a slot's key sign an active image? -/
def State.signs (s : State) (slot : Nat) : Bool :=
  (List.range 3).any fun k => match s.activeManifest k with
    | some m => mKeySlot m == slot
    | none => false

/-- Slots that COMMIT revokes. -/
def State.revokes (s : State) : Nat :=
  ((List.range 4).filter fun j => bit (mRevoke (s.manifest 0)) j && !s.signs j).foldl (fun a j => a ||| 2 ^ j) 0

/-- COMMIT (R458): its result. [DEDUCED: log entry 27] -/
def State.commitFuses (s : State) (confirm : Nat) : Nat × State :=
  if confirm ≠ 0xF05E then (10, s)
  else if s.rd Reg.MGT_STATUS_MODE ≠ 1 ∨ (List.range 3).any (fun k => (s.fwType k).pending || (s.fwType k).trial) then (9, s)
  else
    let raise (fl : List (Nat × Nat)) (k : Nat) : List (Nat × Nat) :=
      Sparse.put 0 fl k (max (Sparse.get 0 fl k) (s.svn k))
    let rev := s.revokes
    (0, (s.modBoot fun b => { b with
      floors := (List.range 3).foldl raise b.floors
      revoked := b.revoked ||| rev }).showFuses)

/-! ### SEC_UPD_CMD -/

/-- A write of an OP to SEC_UPD_CMD: refused while an operation or a session is in progress, and from the port that does not
hold the control token (R455). -/
def State.updWrite (s : State) (acc : RegAccess) (op : Nat) (act : State → State) : State :=
  let s := s.portTurn acc.port.val
  if s.accessBits acc Reg.SEC_UPD_CMD_OP ≠ op then s
  else if !s.holds acc.port || s.rdB Reg.SEC_UPD_STATUS_BUSY then s.rejectWrite acc.port 0x501038
  else act s

/-- The image at SEC_UPD_ADDR: none where the address or the length is bad. Poisoned bytes are free values. -/
def State.updImage (s : State) : Option (List Byte) × State :=
  let a := s.rd Reg.SEC_UPD_ADDR_ADDR * 16
  let n := s.rd Reg.SEC_UPD_LEN_LEN
  if n = 0 ∨ 4194304 < n ∨ s.rd Reg.MGT_STATUS_MODE = 3 ∨ s.inRegion a then (none, s)
  else
    let (st, _, bs, s) := s.readAwait .mgmt a n
    (if st = stAddrFault then none else some bs, s)

/-- STAGE (R453): the type is the image's own. [DEDUCED: log entry 27] -/
def execStage (acc : RegAccess) (writeOk : Bool) (s : State) : Result :=
  .next (s.updWrite acc 1 fun s =>
    let (b, s) := s.updImage
    match b with
    | none => s.startOp { op := 1, type := 0, result := 7 }
    | some b =>
      let k := fieldNat b 4 1 - 1
      if fieldNat b 4 1 = 0 ∨ 3 < fieldNat b 4 1 then s.startOp { op := 1, type := 0, result := 1 }
      else
        let (r, s) := s.stageImage k b writeOk
        s.startOp { op := 1, type := k, result := r })

/-- FIRMWARE_ACTIVATE (R456). -/
def execFirmwareActivate (acc : RegAccess) (s : State) : Result :=
  .next (s.updWrite acc 2 fun s =>
    let k := s.accessBits acc Reg.SEC_UPD_CMD_TYPE
    if k = 0 then s.startOp { op := 2, type := 0, result := 9 }
    else
      let (r, s) := s.activate (k - 1)
      s.startOp { op := 2, type := k - 1, result := r })

/-- CANCEL (R456). -/
def execCancel (acc : RegAccess) (s : State) : Result :=
  .next (s.updWrite acc 3 fun s =>
    let k := s.accessBits acc Reg.SEC_UPD_CMD_TYPE
    let s := if k = 0 then s else (s.setFwType (k - 1) { s.fwType (k - 1) with pending := false }).showFirmware
    s.startOp { op := 3, type := k - 1, result := 0 })

/-- COMMIT (R458). [DEDUCED: log entry 27] -/
def execCommit (acc : RegAccess) (s : State) : Result :=
  .next (s.updWrite acc 4 fun s =>
    let (r, s) := s.commitFuses (s.accessBits acc Reg.SEC_UPD_CMD_CONFIRM)
    s.startOp { op := 4, type := 0, result := r })

/-! ### The end of an operation -/

/-- Do the epochs of a staged image match the active image of the other type, where there is one (R456)? -/
def State.epochsMatch (s : State) (k : Nat) (b : List Byte) : Bool :=
  if k = 0 then [1, 2].all fun j => match s.activeManifest j with
    | some m => epochIn b j m
    | none => true
  else match s.activeManifest 0 with
    | some m => epochIn m k b
    | none => true

/-- A staged bank becomes VALID and STAGED. -/
def State.endStage (s : State) (k : Nat) : State :=
  let t := s.fwType k
  let s := (s.setFwType k { t with valid := t.valid.filter (· != t.other) ++ [t.other] }).setStaged k true
  if s.epochsMatch k (s.bank_ 0 k t.other) then s else s.setB Reg.SEC_UPD_STATUS_IFE_WARN

/-- Payload bytes of an MCTP packet that the device sends on a path (R462). -/
def mctpUnit (path : Nat) : Nat := if path = 0 then 64 else 512

/-- A message cut into packets: all of them full but the last. [DEDUCED: log entry 27] -/
def mctpPackets (path : Nat) (message : List Byte) : List (List Byte) :=
  let u := mctpUnit path
  (List.range ((message.length + u - 1) / u)).map fun i => (message.drop (u * i)).take u

/-- A message goes out on a path, as packets (R462). [DEDUCED: log entry 27] -/
def State.emitMctp (s : State) (path : Nat) (message : List Byte) : State := s.emit (.mctp path (mctpPackets path message))

/-- An Irhal message that answers a request (R462). -/
def State.answer (s : State) (m : MctpFrom) (status : Nat) (data : List Byte) : State :=
  s.emitMctp m.path ([0x7E, 0x1F, 0x8C] ++ leBytes 1 m.cmd ++ leBytes 1 (0x80 + m.inst) ++ leBytes 1 status ++ [0, 0] ++ data)

/-- UPDATE_OPERATION_DONE (R453 to R456, R462). [DESIGN CHOICE: log entry 27] -/
def execUpdateOperationDone (s : State) : Result :=
  .next (match s.boot.op with
  | none => s
  | some o =>
    let s := (s.modBoot fun b => { b with op := none }).clrB Reg.SEC_UPD_STATUS_BUSY
    let s := (s.setB Reg.SEC_UPD_STATUS_DONE).wr Reg.SEC_UPD_STATUS_RESULT o.result
    let s := if o.op = 1 ∧ o.result = 0 then s.endStage o.type else s
    match o.from_ with
    | none => s
    | some m =>
      if o.result ≠ 0 then s.answer m 4 (leBytes 1 o.result)
      else s.answer m 0 (if o.op = 1 then [0] else []))

end Sys2Proof.Machine
end

