-- ==== Sys2Proof/Machine/ConfigSpace.lean ====
section
/-! DEFINITION. The configuration space of a port, and the MSI-X table and PBA in its BAR4 (R418, R419, R421, R426, R431, R435,
R445). What the manual names of a register is known; its other bits are free. -/

namespace Sys2Proof.Machine

/-- Do the functions answer configuration requests: boot step 8 has been reached, or recovery entered? (R445) -/
def State.configOpen (s : State) : Bool :=
  s.rd Reg.MGT_STATUS_PHASE == 8 || s.rd Reg.MGT_STATUS_MODE == 3

/-- Do BAR4 accesses reach the device? In ROM recovery they do nothing (R445, R451). [DEDUCED: log entry 23] -/
def State.doorbellsOpen (s : State) : Bool := s.rd Reg.MGT_STATUS_MODE != 3

/-- A 32-bit register of which the manual gives some bits. -/
structure KnownBits where
  /-- the bits given -/
  mask : Nat
  /-- their values -/
  value : Nat
deriving DecidableEq, Repr

/-- Its four bytes: the bits not given are free. [DESIGN CHOICE: log entry 30] -/
def State.readKnown (s : State) (k : KnownBits) : List Byte × State :=
  let (w, s) := s.drawWord
  (leBytes 4 ((w &&& (0xFFFFFFFF - k.mask)) ||| k.value), s)

/-- Half a BAR of 64 bits: its address, and in the lower half its type. [PRESUMED: log entry 30] -/
def barHalf (addr type : Nat) (upper : Bool) : KnownBits :=
  ⟨0xFFFFFFFF, if upper then addr / 2 ^ 32 % 2 ^ 32 else addr % 2 ^ 32 + type⟩

/-- A register of the header: identity, Memory Space Enable, a capabilities list, a single function, no INTx, and the three BARs (R418,
R421). [PRESUMED: log entry 30] -/
def HostPort.headerReg (h : HostPort) (reg : Nat) : KnownBits :=
  match reg with
  | 0x00 => ⟨0xFFFFFFFF, 0x1F8C + 0xD032 * 2 ^ 16⟩
  | 0x04 => ⟨0x100002, 0x100000 + 2 * h.memEnable.toNat⟩
  | 0x08 => ⟨0xFFFFFFFF, Config.stepping.toNat + 0x120000 * 2 ^ 8⟩
  | 0x0C => ⟨0xFF0000, 0⟩
  | 0x10 => barHalf h.bar0 0x4 false
  | 0x14 => barHalf h.bar0 0x4 true
  | 0x18 => barHalf h.bar2 0xC false
  | 0x1C => barHalf h.bar2 0xC true
  | 0x20 => barHalf h.bar4 0x4 false
  | 0x24 => barHalf h.bar4 0x4 true
  | 0x3C => ⟨0xFF00, 0⟩
  | _ => ⟨0, 0⟩

/-- A word of a capability (R418, R420, R421, R426, R431). [PRESUMED: log entry 30] -/
def State.capabilityReg (s : State) (p : Nat) (cap : PcieCap) (word : Nat) : KnownBits :=
  let h := s.host p
  match cap, word with
  | .express, 0 => ⟨0xFF00FF, 0x020010⟩
  -- Max Payload Size 512; Function Level Reset
  | .express, 1 => ⟨0x10000007, 0x10000002⟩
  | .express, 2 => ⟨0x70E0, h.payloadLog * 2 ^ 5 + h.readLog * 2 ^ 12⟩
  -- 64 GT/s, ×16, no ASPM
  | .express, 3 => ⟨0xFFF, 0x106⟩
  | .express, 4 => ⟨0x3FF0000, s.rd (Reg.HQ_PORT_RATE p) * 2 ^ 16 + s.rd (Reg.HQ_PORT_WIDTH p) * 2 ^ 20⟩
  -- no AtomicOps, no TPH, 10-bit tags, a completion timeout that does not change
  | .express, 9 => ⟨0x333CF, 0x30000⟩
  -- 16, 32 and 64 GT/s
  | .express, 11 => ⟨0xFE, 0x70⟩
  -- D0 and D3hot, with No_Soft_Reset
  | .powerManagement, 0 => ⟨0x60000FF, 0x1⟩
  | .powerManagement, 1 => ⟨0xB, 8 + 3 * h.d3hot.toNat⟩
  | .msix, 0 => ⟨0xC7FF00FF, 0x11 + 2047 * 2 ^ 16 + h.msixMasked.toNat * 2 ^ 30 + h.msixOn.toNat * 2 ^ 31⟩
  | .msix, 1 => ⟨0xFFFFFFFF, 0x80004⟩
  | .msix, 2 => ⟨0xFFFFFFFF, 0x90004⟩
  | .aer, 0 => ⟨0xFFFF, 0x1⟩
  | .resizableBar, 0 => ⟨0xFFFF, 0x15⟩
  -- 1 GiB to 256 GiB, in powers of two from 1 MiB
  | .resizableBar, 1 => ⟨0xFFFFFFF0, 0x7FC000⟩
  | .resizableBar, 2 => ⟨0x3FE7, 0x22 + (10 + Nat.log2 h.bar2Gib) * 2 ^ 8⟩
  | .serialNumber, 0 => ⟨0xFFFF, 0x3⟩
  | .serialNumber, 1 => ⟨0xFFFFFFFF, Config.pcieSerial.toNat % 2 ^ 32⟩
  | .serialNumber, 2 => ⟨0xFFFFFFFF, Config.pcieSerial.toNat / 2 ^ 32⟩
  | _, _ => ⟨0, 0⟩

/-- An address written to a BAR, aligned to its size. [PRESUMED: log entry 30] -/
def HostPort.setBar (h : HostPort) (k : Fin 3) (addr : Nat) : HostPort :=
  let aligned (size : Nat) : Nat := addr % 2 ^ 64 / size * size
  match k with
  | 0 => { h with bar0 := aligned (2 ^ 26) }
  | 1 => { h with bar2 := aligned (h.bar2Gib * 2 ^ 30) }
  | 2 => { h with bar4 := aligned (2 ^ 20) }

/-- A word of the MSI-X table (R426): Vector Control masks its vector after a reset. [PRESUMED: log entry 30] -/
def HostPort.tableWord (h : HostPort) (v word : Nat) : Nat := Sparse.get (if word = 3 then 1 else 0) h.msixTable (4 * v + word)

def HostPort.setTableWord (h : HostPort) (v word value : Nat) : HostPort :=
  { h with msixTable := Sparse.put (if word = 3 then 1 else 0) h.msixTable (4 * v + word) (value % 2 ^ 32) }

/-- 32 vectors of the PBA (R426). [PRESUMED: log entry 30] -/
def HostPort.pbaWord (h : HostPort) (word : Nat) : Nat :=
  ((List.range 32).map fun i => if Sparse.get false h.msixPending (32 * word + i) then 2 ^ i else 0).sum

/-- A read or a write of a port's configuration space completes. -/
def State.configAnswer (s : State) (p tag : Nat) (bs : List Byte) : State := s.emit (.completion p tag (bs.map some) 0)

/-- A read of BAR4: after every posted write of the port (R424); in ROM recovery the manual gives no data.
[DESIGN CHOICE: log entry 30] -/
def State.bar4Read (s : State) (p tag : Nat) (word : HostPort → Nat) : State :=
  let s := s.portTurn p
  if s.doorbellsOpen then s.configAnswer p tag (leBytes 4 (word (s.host p)))
  else
    let (bs, s) := s.drawBytes 4
    s.configAnswer p tag bs

/-- What sets a function up: its configuration space answers with Request Retry Status until the functions answer (R445), and BAR4's
table and PBA are reached behind it. [DESIGN CHOICE: log entries 23 and 30] -/
def execConfigurationRequest (port : Port) (tag : Nat) (req : CfgReq) (s : State) : Result :=
  let p := port.val
  let set (f : HostPort → HostPort) : State := (s.setHost p (f (s.host p))).configAnswer p tag []
  .next (if !s.configOpen then s.emit (.completion p tag [] 3)
    else match req with
      | .read reg =>
        let (bs, s) := s.readKnown ((s.host p).headerReg reg)
        s.configAnswer p tag bs
      | .readCap cap word =>
        let (bs, s) := s.readKnown (s.capabilityReg p cap word)
        s.configAnswer p tag bs
      | .memEnable on => set fun h => { h with memEnable := on }
      | .bar2Size n => set fun h => { h with bar2Gib := 2 ^ n.val }
      | .bar k addr => set (·.setBar k addr)
      | .transfers payload readRequest => set fun h => { h with payloadLog := payload.val, readLog := readRequest.val }
      | .msixControl enable mask =>
        (set fun h => { h with msixOn := enable, msixMasked := mask }).sendPending p
      | .tableRead v word => s.bar4Read p tag (·.tableWord v.val word.val)
      | .tableWrite v word value =>
        let s := s.portTurn p
        if s.doorbellsOpen then (s.setHost p ((s.host p).setTableWord v.val word.val value)).sendPending p else s
      | .pbaRead word => s.bar4Read p tag (·.pbaWord word.val))

end Sys2Proof.Machine
end

