-- ==== Sys2Proof/Machine/Host.lean ====
section
/-! DEFINITION. The host interface: port resets and power states (R419, R420), BAR2 (R421 to R425), doorbells, fetching and DMA
(R426 to R432, R439), event queues (R433, R434), the control token (R435 to R437), and links (R445). An access takes effect after every
posted write that its port received before it (R424). -/

namespace Sys2Proof.Machine

/-! ### Ports -/

/-- The HQ_ block of a port (R480, O and F). -/
def inHostBlock (p off : Nat) : Bool :=
  let o := if p = 1 then off - portBCopy else off
  (p = 0 || decide (portBCopy ≤ off)) && decide (0x10000 ≤ o) && decide (o < 0x20000)

/-- What a reset of one port does (R420, R435). [PRESUMED: log entry 23] -/
def State.resetPort (s : State) (p : Nat) (k : ResetKind) (linkDown : Bool) : State :=
  let h := s.host p
  let s := s.resetFields k fun off _ => inHostBlock p off
  let s := s.setHost p { linkUp := h.linkUp && !linkDown, resetAsserted := h.resetAsserted
                         queues := h.queues.map fun e => (e.1, { epoch := e.2.epoch + 1 }) }
  let s := { s with
    stepQueue := s.stepQueue.filter fun c => c.ticket.port != p
    heldOut := s.heldOut.filter fun e => e.1 != p
    held := s.held.filter fun r => match r.sink with
      | .hostRead q _ => q != p
      | _ => true }
  if s.holds p then s.passToken 5 else s

/-- A reset of a port is recorded with its cause, for which CAUSE has no code, so that the payload's value is free; and it abandons the
entry or exit of a low-power state (R486). [DESIGN CHOICE: log entry 26] -/
def State.recordPortReset (s : State) (e : Event) (p : Nat) : State :=
  let (cause, s) := s.drawWord
  (s.record e (portSource p) [pv4 cause]).abandonSleep

/-- PORT_RESET (R420, R480): PERST or a hot reset; releasing PERST lets the link train. [PRESUMED: log entry 23] -/
def execPortReset (port : Port) (kind : PortResetKind) (s : State) : Result :=
  let p := port.val
  .next (match kind with
  | .release => s.setHost p { s.host p with resetAsserted := false }
  | .assert =>
    let s := s.recordPortReset .portReset p
    (s.setHost p { s.host p with resetAsserted := true }).resetPort p .O true
  | .hot => (s.recordPortReset .portReset p).resetPort p .O true)

/-- FUNCTION_LEVEL_RESET (R420, R480): the link stays up. [DEDUCED: log entry 23] -/
def execFunctionLevelReset (port : Port) (s : State) : Result :=
  .next ((s.recordPortReset .functionLevelReset port.val).resetPort port.val .F false)

/-- POWER_STATE_CHANGE (R419): into D3hot, or back to D0, where what was held back goes out. -/
def execPowerStateChange (port : Port) (d3 : Bool) (s : State) : Result :=
  let p := port.val
  let s := s.setHost p { s.host p with d3hot := d3 }
  .next (if d3 then s
    else
      let mine := s.heldOut.filter fun e => e.1 == p
      let s := { s with heldOut := s.heldOut.filter fun e => e.1 != p }
      mine.foldl (fun s e => s.emit e.2) s)

/-- PCIE_LINK_UP (R445, R418): the rate is 4, 5 or 6 in HQ_PORT's code, the width 16 or 8. -/
def execPcieLinkUp (port : Port) (rate : Fin 3) (full : Bool) (s : State) : Result :=
  let p := port.val
  .next (if (s.host p).resetAsserted ∨ s.refLost.contains (4 + p) then s
    else ((s.setHost p { s.host p with linkUp := true }).wr (Reg.HQ_PORT_RATE p) (4 + rate.val)).wr (Reg.HQ_PORT_WIDTH p)
      (if full then 16 else 8))

/-! ### BAR2 (R421 to R425) -/

/-- The device-physical address of a BAR2 offset (R423). -/
def State.bar2Addr (s : State) (p off : Nat) : Nat := s.rd (Reg.HQ_BAR2_WIN_BASE p) * 2 ^ 30 + off

/-- BAR2_READ (R423 to R425): before boot step 8 it completes as Completer Abort (R482). [DEDUCED: log entry 23] -/
def execBar2Read (port : Port) (tag off len : Nat) (hits : List EccHit) (s : State) : Result :=
  let p := port.val
  let s := s.portTurn p
  .next (if (s.host p).bar2Gib * 2 ^ 30 < off + len ∨ len = 0 then s
    else if s.rd Reg.MGT_STATUS_PHASE ≠ 8 then s.emit (.completion p tag [] 2)
    else
      let s := s.endStandby
      let a := s.bar2Addr p off
      let s := s.countAccess a len
      if s.inRegion a then (s.addrFault (.port port) a).emit (.completion p tag [] 2)
      else match s.rangeHolder (.port port) a len with
      | some h => s.holdReq ⟨h, .port port, .hostRead p tag, a, len, []⟩
      | none =>
        let bad := s.pathBad hits
        let (st, bs, s) := (s.eccHits hits).memRead (.port port) a len
        let bs := spoil bad a bs
        if st = stAddrFault then s.emit (.completion p tag [] 2)
        else
          let s := if st = stPathLost then s else s.consumePoison (.port port) (poisonWords a bs)
          s.emit (.completion p tag bs 0))

/-- BAR2_WRITE (R423 to R425): a TLP with EP set brings no byte but poison; one into the register region is ADDR_FAULT. -/
def execBar2Write (port : Port) (off : Nat) (data : List DataByte) (s : State) : Result :=
  let p := port.val
  let s := s.portTurn p
  .next (if (s.host p).bar2Gib * 2 ^ 30 < off + data.length ∨ data = [] ∨ s.rd Reg.MGT_STATUS_PHASE ≠ 8 then s
    else
      let s := s.endStandby
      let a := s.bar2Addr p off
      let s := s.countAccess a data.length
      if s.inRegion a then s.addrFault (.port port) a
      else match s.rangeHolder (.port port) a data.length with
      | some h => s.holdReq ⟨h, .port port, .hostWrite p, a, data.length, data⟩
      | none => (s.memWrite (.port port) a data).2)

/-- HOST_HOLD_TIMEOUT (R425): the k-th request that is held, where it is a host's. -/
def execHostHoldTimeout (k : Nat) (s : State) : Result :=
  .next (match s.held[k]? with
  | none => s
  | some r =>
    match r.port with
    | none => s
    | some p =>
      let s := { s with held := s.held.eraseIdx k }
      let s := match r.sink with
        | .hostRead p tag => s.emit (.completion p tag (List.replicate r.len none) 0)
        | _ => s
      (s.setB (Reg.HQ_ERR_HOLD_TO p)).record .hostHoldTimeout (portSource p) [])

/-! ### Doorbells (R426, R427) -/

/-- A doorbell write is discarded (R427). -/
def State.doorbellBad (s : State) (p : Nat) : State := (s.setB (Reg.HQ_ERR_DB_BAD p)).incStop (Reg.HQ_ERR_DB_CNT p)

/-- SQ_TAIL_DOORBELL (R427): a write of `size` bytes at +0 of a queue's slot. [DEDUCED: log entry 23] -/
def execSqTailDoorbell (port : Port) (q : Fin 1024) (size value : Nat) (s : State) : Result :=
  let p := port.val
  let q := q.val
  let s := s.portTurn p
  if !s.doorbellsOpen then .next s else
  let s := s.endStandby
  .next (if !s.rdB (Reg.HQ_Q_CFG_EN p q) || size != 4 || s.rdB (Reg.HQ_Q_CFG_CLASS p q) ||
      decide (s.rd (Reg.HQ_Q_CFG_SQSZM1 p q) < value) then s.doorbellBad p
    else s.wr (Reg.HQ_Q_STATUS_SQTAIL p q) value)

/-- A write of `size` bytes at +8 of a queue's slot (R427). -/
def State.cqHead (s : State) (p q size value : Nat) : State :=
  let ring := s.rd (Reg.HQ_Q_CFG_CQSZM1 p q) + 1
  let h := s.host p
  let x := h.queue q
  let released := (value + ring - s.rd (Reg.HQ_Q_STATUS_CQHEAD p q)) % ring
  if !s.rdB (Reg.HQ_Q_CFG_EN p q) || size != 4 || decide (ring ≤ value) || decide (x.written < released) then s.doorbellBad p
  else (s.setHost p (h.setQueue q { x with written := x.written - released })).wr (Reg.HQ_Q_STATUS_CQHEAD p q) value

/-- CQ_HEAD_DOORBELL (R427): a write at +8. -/
def execCqHeadDoorbell (port : Port) (q : Fin 1024) (size value : Nat) (s : State) : Result :=
  let s := s.portTurn port.val
  .next (if !s.doorbellsOpen then s else s.endStandby.cqHead port.val q.val size value)

/-- EQ_HEAD_DOORBELL (R426, R427). [DEDUCED: log entry 23] -/
def execEqHeadDoorbell (port : Port) (e : Fin 1024) (size value : Nat) (s : State) : Result :=
  let p := port.val
  let e := e.val
  let s := s.portTurn p
  if !s.doorbellsOpen then .next s else
  let s := s.endStandby
  let ring := 2 ^ s.rd (Reg.HQ_EQ_CFG_LOG2SZ p e)
  let h := s.host p
  let x := Sparse.get {} h.events e
  let head := (x.tail + ring - x.used % ring) % ring
  .next (if !s.rdB (Reg.HQ_EQ_CFG_EN p e) || size != 4 || decide (ring ≤ value) then s.doorbellBad p
    else if value = head then s
    else s.setHost p { h with events := Sparse.put {} h.events e { x with used := (x.tail + ring - value) % ring } })

/-- INFO of a malformed command, by its OP (R432); for a reserved OP the manual states none. [DESIGN CHOICE: log entry 23] -/
def State.badInfo (s : State) (b : List Byte) : Nat × State :=
  match fieldNat b 0 1 with
  | 1 => (fieldNat b 16 4, s)
  | 2 => (fieldNat b 1 1, s)
  | 3 => (0, s)
  | _ =>
    let (w, s) := s.drawWord
    (w % 2 ^ 32, s)

/-- A malformed command completes with 0xFE and is not run (R428). [DEDUCED: log entry 23] -/
def State.malformed (s : State) (t : Ticket) (b : List Byte) : State :=
  let (info, s) := s.badInfo b
  (s.setB (Reg.HQ_ERR_CMD_BAD t.port)).postEntry t 0xFE 0 (fieldNat b 0 1) info

/-- URGENT_COMMAND (R376, R427, R428, R432): a write into a queue's slot that is to carry an urgent command: of an urgent queue it
does so where it is one 64-byte TLP aligned to the slot, and a 32-bit write at +8 sets the CQ head. [DEDUCED: log entry 23] -/
def execUrgentCommand (port : Port) (slot : SlotPlace) (data : List Byte) (s : State) : Result :=
  let p := port.val
  let q := slot.q.val
  let s := s.portTurn p
  if !s.doorbellsOpen then .next s else
  let s := s.endStandby
  .next (if slot.off.val = 8 then s.cqHead p q data.length (fieldNat data 0 data.length)
    else if !s.rdB (Reg.HQ_Q_CFG_EN p q) || !s.rdB (Reg.HQ_Q_CFG_CLASS p q) || slot.off.val != 0 || data.length != 64 then
      s.doorbellBad p
    else
      let h := s.host p
      let x := h.queue q
      let t : Ticket := ⟨p, q, x.urgentNo, s.rd (Reg.HQ_Q_STATUS_SQHEAD p q), x.epoch⟩
      let s := s.setHost p (h.setQueue q { x with urgentNo := (x.urgentNo + 1) % 65536 })
      if fieldNat data 0 1 ≠ 2 || !zeroAt data 2 6 || !zeroAt data 12 4 then s.malformed t data
      else s.urgentIn { ticket := t, unit := fieldNat data 1 1, signal := fieldNat data 8 4 % 2 ^ 17
                        args := (List.range 6).map fun i => fieldNat data (16 + 8 * i) 8 })

/-! ### Fetching (R428 to R430) -/

/-- A step command (R361). -/
def stepCmdOf (t : Ticket) (b : List Byte) : StepCmd :=
  { ticket := t, image := fieldNat b 8 8, step := fieldNat b 16 4, lrf := fieldNat b 20 4
    done := fieldNat b 24 4 % 2 ^ 17, args := (List.range 4).map fun i => fieldNat b (32 + 8 * i) 8 }

/-- A DMA command (R428); none where a field is reserved, out of its range or not aligned. -/
def dmaOf (t : Ticket) (b : List Byte) : Option DmaJob :=
  let len := fieldNat b 24 4
  if fieldNat b 1 1 ≤ 1 ∧ zeroAt b 2 6 ∧ zeroAt b 40 24 ∧ fieldNat b 8 8 % 16 = 0 ∧ fieldNat b 16 8 % 16 = 0 ∧
      1 ≤ len ∧ len ≤ 2 ^ 28 then
    (condOf (fieldNat b 28 8)).map fun w =>
      { ticket := t, toHost := bit (fieldNat b 1 1) 0, haddr := fieldNat b 8 8, daddr := fieldNat b 16 8, len16 := len
        wait := w, signal := fieldNat b 36 4 % 2 ^ 17 }
  else none

/-- A free DMA channel of a port. -/
def HostPort.freeDma (h : HostPort) : Option Nat := (List.range 8).find? fun c => (Sparse.get none h.dma c).isNone

/-- Has the queue a command waiting, and its completion ring room for it? (R429) -/
def State.queueReady (s : State) (p q : Nat) : Bool :=
  let x := (s.host p).queue q
  s.rdB (Reg.HQ_Q_CFG_EN p q) && !s.rdB (Reg.HQ_Q_CFG_CLASS p q) && !(s.host p).d3hot &&
    s.rd Reg.MGT_STATUS_PHASE == 8 &&
    s.rd (Reg.HQ_Q_STATUS_SQHEAD p q) != s.rd (Reg.HQ_Q_STATUS_SQTAIL p q) &&
    decide (x.written + x.reserved < s.rd (Reg.HQ_Q_CFG_CQSZM1 p q) + 1)

/-- The head command leaves its ring: its ticket, and the state with its completion entry reserved. -/
def State.takeHead (s : State) (p q : Nat) : Ticket × State :=
  let head := s.rd (Reg.HQ_Q_STATUS_SQHEAD p q)
  let next := if s.rd (Reg.HQ_Q_CFG_SQSZM1 p q) ≤ head then 0 else head + 1
  let h := s.host p
  let x := h.queue q
  (⟨p, q, head, next, x.epoch⟩,
    (s.setHost p (h.setQueue q { x with reserved := x.reserved + 1, round := x.round + 1 })).wr
      (Reg.HQ_Q_STATUS_SQHEAD p q) next)

/-- Every queue of a port begins a new round. [DESIGN CHOICE: log entry 23] -/
def State.newRound (s : State) (p : Nat) : State :=
  let h := s.host p
  s.setHost p { h with queues := Sparse.mapVals {} (fun _ q => { q with round := 0 }) h.queues }

/-- Is a queue passed over: can its head, a command of this OP, not be taken (R429, R430)? What a queue's head is, its ring in host
memory says. [DEDUCED: log entry 23] -/
def State.passesOver (s : State) (p : Nat) (contended : Bool) (op : Option Nat) : Bool :=
  match op with
  | some 1 => decide (64 ≤ s.stepQueue.length) || (contended && s.lastStepPort == p)
  | some 3 => (s.host p).freeDma.isNone
  | _ => false

/-- Has every other queue of a port with commands waiting had its turn in this round, or is it passed over (R429)?
[DEDUCED: log entry 23] -/
def State.roundOver (s : State) (p q : Nat) (contended : Bool) (heads : List (Nat × Nat)) : Bool :=
  (List.range 1024).all fun k => k == q || !s.queueReady p k ||
    decide (s.rd (Reg.HQ_Q_CFG_WEIGHT p k) ≤ ((s.host p).queue k).round) || s.passesOver p contended (heads.lookup k)

/-- COMMAND_FETCH (R428 to R430): the port's engine reads the 64 bytes at a queue's head. `newRound` says whether a new round begins,
where the last one is over, with what the engine knows of the other queues' heads; `contended` that the other port offers a step
command too. [DESIGN CHOICE: log entry 23] -/
def execCommandFetch (port : Port) (q : Fin 1024) (cmd : List Byte) (newRound : FetchRound) (contended : Bool) (s : State) : Result :=
  let p := port.val
  let q := q.val
  let b := padBytes 64 cmd
  let s := s.portTurn p
  let s' := if newRound.begins && s.roundOver p q contended newRound.heads then s.newRound p else s
  .next (if !s.queueReady p q ∨ s.rd (Reg.HQ_Q_CFG_WEIGHT p q) ≤ ((s'.host p).queue q).round then s
    else match fieldNat b 0 1 with
    | 1 =>
      if !zeroAt b 1 7 || !zeroAt b 28 4 then
        let (t, s) := s'.takeHead p q
        s.malformed t b
      else if 64 ≤ s.stepQueue.length ∨ (contended ∧ s.lastStepPort = p) then s
      else
        let (t, s) := s'.takeHead p q
        { s with stepQueue := s.stepQueue ++ [stepCmdOf t b], lastStepPort := p }
    | 3 =>
      let (t, u) := s'.takeHead p q
      (match dmaOf t b, (s.host p).freeDma with
      | none, _ => u.malformed t b
      | some _, none => s
      | some j, some c => u.setHost p { u.host p with dma := Sparse.put none (u.host p).dma c (some j) })
    | _ =>
      let (t, s) := s'.takeHead p q
      s.malformed t b)

/-! ### DMA (R431) -/

/-- A transfer under way: what it has moved, and whether it has met poison. -/
structure DmaRun where
  s : State
  done : Nat := 0
  status : Nat := 0
  met : Bool := false
  /-- words (address ÷ 16) that the path spoils (R237) -/
  bad : List Nat := []

/-- One 128-bit word of a transfer; `arrived` is the word the host sent, where it sent one. -/
def DmaRun.word (r : DmaRun) (p : Port) (c : Fin 8) (j : DmaJob) (arrived : Option (List DataByte)) : DmaRun :=
  if r.status ≠ 0 then r
  else
    let a := j.daddr + 16 * r.done
    if j.toHost then
      let (st, bs, s) := r.s.memRead (.dma p c) a 16
      if st ≠ stOk then { r with s, status := st }
      else
        let bs := spoil r.bad a bs
        let ws := poisonWords a bs
        let s := s.consumePoison (.dma p c) ws r.met
        { r with s := s.emit (.hostWrite p.val (j.haddr + 16 * r.done) bs), done := r.done + 1, met := r.met || ws != [] }
    else match arrived with
      | none => { r with status := 4 }
      | some bs =>
        let (st, s) := r.s.memWrite (.dma p c) a bs
        if st ≠ stOk then { r with s, status := st } else { r with s, done := r.done + 1 }

/-- DMA_START (R431, R484): the channel's command, once WAIT holds; a die that holds the access back holds the transfer back,
and a tower asleep wakes. `data` is what the host's completions brought in address order: where they end before the
transfer does, the host answered with UR or CA, or not in time. [DEDUCED: log entry 23; DESIGN CHOICE: log entry 30] -/
def execDmaStart (port : Port) (ch : Fin 8) (data : List DataByte) (hits : List EccHit) (s : State) : Result :=
  let p := port.val
  .next (match Sparse.get none (s.host p).dma ch.val with
  | none => s
  | some j =>
    if j.started || !s.optCondHolds j.wait || !s.dispatching then s
    else
    let s := s.countAccess j.daddr (16 * j.len16)
    match s.rangeHolder (.dma port ch) j.daddr (16 * j.len16) with
    | some (.sleep t) => s.wake t
    | some _ => s
    | none =>
      let bad := s.pathBad hits
      let s := s.eccHits hits
      let r := (List.range j.len16).foldl (fun (r : DmaRun) i =>
        let w := (data.drop (16 * i)).take 16
        r.word port ch j (if w.length = 16 then some w else none)) { s, bad }
      let h := r.s.host p
      r.s.setHost p { h with
        dma := Sparse.put none h.dma ch.val (some { j with started := true, status := r.status, done16 := r.done }) })

/-- DMA_COMPLETE (R431, R432): SIGNAL gains 1, then the completion entry is written, and the channel is free. -/
def execDmaComplete (port : Port) (ch : Fin 8) (s : State) : Result :=
  let p := port.val
  let h := s.host p
  .next (match Sparse.get none h.dma ch.val with
  | none => s
  | some j =>
    if !j.started then s
    else
      let s := s.setHost p { h with dma := Sparse.put none h.dma ch.val none }
      (s.signal (.dma port ch) j.signal).postEntry j.ticket j.status 0 3 j.done16)

/-- INTERRUPT_DELAY (R432): ITIME after the first entry not yet signalled. -/
def execInterruptDelay (port : Port) (q : Fin 1024) (s : State) : Result :=
  let p := port.val
  let h := s.host p
  let x := h.queue q.val
  .next (if x.unsignalled then (s.setHost p (h.setQueue q.val { x with unsignalled := false })).sendVector p q.val else s)

/-! ### Queue configuration (R433, R434, R439) -/

/-- HQ_Q_CFG_WRITE (R439). [DEDUCED: log entry 23] -/
def execHqQCfgWrite (q : Fin 1024) (acc : RegAccess) (s : State) : Result :=
  let p := acc.port.val
  let s := s.portTurn p
  let q := q.val
  let off := 0x10010 + 32 * q
  let at_ (f : Fld) : Nat := (writtenValue s (if p = 1 then off + portBCopy else off) f acc.part acc.value).getD (s.rd f)
  let changes (f : Fld) : Bool := at_ f != s.rd f
  let weight := max 1 (at_ (Reg.HQ_Q_CFG_WEIGHT p q))
  let was := s.rdB (Reg.HQ_Q_CFG_EN p q)
  let on := at_ (Reg.HQ_Q_CFG_EN p q) != 0
  let cq := at_ (Reg.HQ_Q_CFG_CQSZM1 p q)
  let sq := at_ (Reg.HQ_Q_CFG_SQSZM1 p q)
  let urgent := at_ (Reg.HQ_Q_CFG_CLASS p q) != 0
  let bad := if was then changes (Reg.HQ_Q_CFG_CLASS p q) || weight != s.rd (Reg.HQ_Q_CFG_WEIGHT p q) ||
      changes (Reg.HQ_Q_CFG_CQSZM1 p q) || changes (Reg.HQ_Q_CFG_SQSZM1 p q)
    else on && (decide (cq < 1) || (!urgent && (decide (sq < 1) || decide (cq < sq))))
  .next (if !s.bar0Open off then s
    else if bad then s.setB (Reg.HQ_ERR_CFG_BAD p)
    else
      let s := s.writeReg off acc fun _ => true
      let s := if s.rd (Reg.HQ_Q_CFG_WEIGHT p q) = 0 then s.wr (Reg.HQ_Q_CFG_WEIGHT p q) 1 else s
      if on && !was then
        let h := s.host p
        let s := s.setHost p (h.setQueue q { epoch := (h.queue q).epoch + 1 })
        let s := (s.wr (Reg.HQ_Q_STATUS_SQTAIL p q) 0).wr (Reg.HQ_Q_STATUS_SQHEAD p q) 0
        (s.wr (Reg.HQ_Q_STATUS_CQTAIL p q) 0).wr (Reg.HQ_Q_STATUS_CQHEAD p q) 0
      else s)

/-- HQ_EQ_CFG_WRITE (R433, R434): the queue is enabled or disabled, and a sync watch is armed, which fires at once when its
condition holds. [DEDUCED: log entry 23] -/
def execHqEqCfgWrite (e : Fin 1024) (acc : RegAccess) (s : State) : Result :=
  let p := acc.port.val
  let s := s.portTurn p
  let e := e.val
  let off := 0x18008 + 16 * e
  let at_ (f : Fld) : Nat := (writtenValue s (if p = 1 then off + portBCopy else off) f acc.part acc.value).getD (s.rd f)
  let was := s.rdB (Reg.HQ_EQ_CFG_EN p e)
  let on := at_ (Reg.HQ_EQ_CFG_EN p e) != 0
  let lg := at_ (Reg.HQ_EQ_CFG_LOG2SZ p e)
  .next (if !s.bar0Open off then s
    else if on && (decide (lg < 4) || decide (16 < lg)) then s.setB (Reg.HQ_ERR_CFG_BAD p)
    else
      let s := s.writeReg off acc fun _ => true
      let h := s.host p
      if !on then s.setHost p { h with events := Sparse.put {} h.events e {} }
      else
        let x : EventQueue := if was then Sparse.get {} h.events e else {}
        let y := { x with enabled := true, armed := s.rd (Reg.HQ_EQ_CFG_SRC p e) == 0 }
        let s := s.setHost p { h with events := Sparse.put {} h.events e y }
        if y.armed then s.fireWatches (s.rd (Reg.HQ_EQ_CFG_OBJ p e)) else s)

/-! ### The control token (R435 to R437) -/

/-- A write of MGT_TOKEN that sets exactly one of its four WO fields: TIMEOUT_MS under its access code, judged against the
holder in force, and the field's action. A write with more than one of them set is ignored. [DEDUCED: log entry 23] -/
def State.tokenWrite (s : State) (acc : RegAccess) (f : Fld) (act : State → State) : State :=
  let s := s.portTurn acc.port.val
  let set (g : Fld) : Nat := s.accessBits acc g
  if set f = 0 then s
  else if 1 < set Reg.MGT_TOKEN_CLAIM + set Reg.MGT_TOKEN_RELEASE + set Reg.MGT_TOKEN_GIVE + set Reg.MGT_TOKEN_BEAT then s
  else act (s.writeReg 0x500000 acc fun r => r.name == "TIMEOUT_MS")

/-- CLAIM (R435). [DEDUCED: log entry 23] -/
def execClaim (acc : RegAccess) (s : State) : Result :=
  .next (s.tokenWrite acc Reg.MGT_TOKEN_CLAIM fun s =>
    if s.rd Reg.MGT_TOKEN_HOLDER = 0 then s.setHolder (acc.port.val + 1) 1 else s)

/-- RELEASE (R435). -/
def execRelease (acc : RegAccess) (s : State) : Result :=
  .next (s.tokenWrite acc Reg.MGT_TOKEN_RELEASE fun s => if s.holds acc.port.val then s.setHolder 0 2 else s)

/-- GIVE (R435). -/
def execGive (acc : RegAccess) (s : State) : Result :=
  .next (s.tokenWrite acc Reg.MGT_TOKEN_GIVE fun s =>
    if s.holds acc.port.val && s.portAvailable (1 - acc.port.val) then s.setHolder (2 - acc.port.val) 3 else s)

/-- BEAT (R435): the holder's heartbeat timeout starts again. -/
def execBeat (acc : RegAccess) (s : State) : Result :=
  .next (s.tokenWrite acc Reg.MGT_TOKEN_BEAT fun s =>
    if s.holds acc.port.val then { s with tokenTimer := s.tokenTimer + 1 } else s)

/-- TOKEN_TIMEOUT (R435): the heartbeat timeout that began with start number `start` has run out; one that has been started
again since does nothing. [DESIGN CHOICE: log entry 1] -/
def execTokenTimeout (start : Nat) (s : State) : Result :=
  .next (if start = s.tokenTimer ∧ s.rd Reg.MGT_TOKEN_HOLDER ≠ 0 then s.passToken 4 else s)

end Sys2Proof.Machine
end

