-- ==== Sys2Proof/Machine/Mctp.lean ====
section
/-! DEFINITION. MCTP (R462, R463): control messages, identity and measurements (R459 to R461, R464), updates (R454) and debug
access (R465). A request is its path (0 SMBus, 1 and 2 the ports), its instance and its data after byte 7. -/

namespace Sys2Proof.Machine

/-! ### Requests -/

/-- Does the endpoint take messages on a path? -/
def State.mctpOpen (s : State) (path : Fin 3) : Bool := path.val == 0 || s.rdB Reg.SEC_CFG_VDM_EN

/-- A request of a command: answered NOT_ALLOWED in a mode that does not allow it (R463). [DEDUCED: log entry 27] -/
def State.request (s : State) (path : Fin 3) (cmd : Nat) (inst : Fin 32) (modes : List Nat) (act : MctpFrom → State → State) :
    State :=
  let m : MctpFrom := ⟨path.val, cmd, inst.val⟩
  if !s.mctpOpen path then s
  else if modes ≠ [] ∧ !modes.contains (s.rd Reg.MGT_STATUS_MODE) then s.answer m 3 []
  else act m s

/-- A control message is answered as DSP0236 has it, which the manual does not lay out. [DESIGN CHOICE: log entry 27] -/
def State.controlAnswer (s : State) (path : Nat) : State :=
  ({ s with fresh := s.fresh + 1 } : State).emitMctp path (Config.freeBytes s.fresh)

/-- SET_ENDPOINT_ID (R462). [PRESUMED: log entry 27] -/
def execSetEndpointId (path : Fin 3) (eid : Byte) (s : State) : Result :=
  .next (if !s.mctpOpen path then s
    else (s.modBoot fun b => { b with eids := Sparse.put 0 b.eids path.val eid.toNat }).controlAnswer path.val)

/-- GET_ENDPOINT_ID (R462). -/
def execGetEndpointId (path : Fin 3) (s : State) : Result :=
  .next (if s.mctpOpen path then s.controlAnswer path.val else s)

/-- GET_MCTP_VERSION_SUPPORT (R462). -/
def execGetMctpVersionSupport (path : Fin 3) (s : State) : Result :=
  .next (if s.mctpOpen path then s.controlAnswer path.val else s)

/-- GET_MESSAGE_TYPE_SUPPORT (R462). -/
def execGetMessageTypeSupport (path : Fin 3) (s : State) : Result :=
  .next (if s.mctpOpen path then s.controlAnswer path.val else s)

/-! ### Identity and measurements -/

/-- Measurements 0, 1 and 4, as the last boot made them. -/
def State.bound (s : State) : List Byte := s.measurement 0 ++ s.measurement 1 ++ s.measurement 4

/-- The seeds of the device identity key and of the alias key (R459). -/
def idSeeds : List Byte := shake256 (padBytes 32 Config.uds ++ [1]) 96
def State.aliasSeeds (s : State) : List Byte :=
  shake256 (shake256 (padBytes 32 Config.uds ++ [2] ++ s.bound) 64 ++ [3]) 96

/-- The public key of some seeds. -/
def publicKey (seeds : List Byte) : List Byte := padBytes 64 (Config.slhPublic seeds)

/-- A certificate's body (R460). [DESIGN CHOICE: log entry 27] -/
def certBody (kind : Nat) (subject issuer binding : List Byte) : List Byte :=
  padBytes 256 ([0x49, 0x48, 0x43, 0x54] ++ leBytes 1 kind ++ [0, 0, 0] ++ leBytes 8 Config.serial.toNat ++ padBytes 64 subject ++
    shake256 issuer 64 ++ padBytes 64 binding)

/-- The device certificate, signed at manufacture (R460). -/
def deviceCert : List Byte :=
  let body := certBody 1 (publicKey idSeeds) Config.makerKey []
  body ++ padBytes 49856 (Config.makerSign body)

/-- The alias certificate of this boot (R460). [DEDUCED: log entry 27] -/
def State.aliasCert (s : State) : List Byte :=
  let body := certBody 2 (publicKey s.aliasSeeds) (publicKey idSeeds) (shake256 s.bound 64)
  body ++ padBytes 49856 (Config.slhSign idSeeds body s.boot.aliasNo)

/-- GET_IDENTITY (R463). -/
def execGetIdentity (path : Fin 3) (inst : Fin 32) (s : State) : Result :=
  .next (s.request path 0x01 inst [1, 2] fun m s => s.answer m 0 (deviceCert ++ s.aliasCert))

/-- The response to GET_MEASUREMENTS: bytes 8 to 87 + 68N, and the signature over bytes 0 to 87 + 68N (R464).
[DEDUCED: log entry 27] -/
def State.measureAnswer (s : State) (m : MctpFrom) (data : List Byte) : State :=
  let mask := fieldNat data 32 1
  let (nonce, s) := s.drawBytes 32
  let records := ((List.range 7).filter fun i => bit mask i).flatMap fun i => leBytes 1 i ++ [0, 0, 0] ++ s.measurement i
  let body := data.take 32 ++ nonce ++ leBytes 8 s.boot.signatures ++ leBytes 1 mask ++ leBytes 1 (s.rd Reg.MGT_STATUS_MODE) ++
    List.replicate 6 0 ++ records
  let head := [0x7E, 0x1F, 0x8C] ++ leBytes 1 m.cmd ++ leBytes 1 (0x80 + m.inst) ++ [0, 0, 0]
  let sig := padBytes 49856 (Config.slhSign s.aliasSeeds (head ++ body) s.fresh)
  let s := ({ s with fresh := s.fresh + 1 } : State).modBoot fun b => { b with signatures := b.signatures + 1 }
  s.answer m 0 (body ++ sig)

/-- The request that needs a signature and came first is served (R463). [DESIGN CHOICE: log entry 27] -/
def State.serveSigning (s : State) : State :=
  match s.boot.signing with
  | [] => s
  | (m, data) :: rest => (s.modBoot fun b => { b with signing := rest }).measureAnswer m data

/-- The same, `n` times. -/
def State.serveSignings : Nat → State → State
  | 0, s => s
  | n + 1, s => State.serveSignings n s.serveSigning

/-- GET_MEASUREMENTS (R463, R464): `served` of the requests that need a signature have been served by the time it arrives. It is served
in its turn behind at most one in service and three that wait; with four waiting, it is answered with BUSY.
[DESIGN CHOICE: log entry 27] -/
def execGetMeasurements (path : Fin 3) (inst : Fin 32) (data : List Byte) (served : Nat) (s : State) : Result :=
  let s := State.serveSignings (min served s.boot.signing.length) s
  .next (s.request path 0x02 inst [1, 2] fun m s =>
    if data.length ≠ 40 then s.answer m 2 []
    else if 5 ≤ s.boot.signing.length then s.answer m 1 []
    else s.modBoot fun b => { b with signing := b.signing ++ [(m, data)] })

/-- What the package does when no command waits: the management controller serves a request that needs a signature (R463).
[DESIGN CHOICE: log entry 27] -/
def State.idle (s : State) : State := s.serveSigning

/-- A register as MCTP reads it. [DEDUCED: log entry 27] -/
def State.mgmtReg (s : State) (off : Nat) : List Byte := leBytes 8 (s.readReg 0 off 8).1

/-- GET_FW_STATUS (R463). -/
def execGetFwStatus (path : Fin 3) (inst : Fin 32) (s : State) : Result :=
  .next (s.request path 0x03 inst [] fun m s => s.answer m 0
    ([0x501000, 0x501008, 0x501010, 0x501018, 0x501020, 0x501040].flatMap s.mgmtReg))

/-- READ_REG (R422, R463). [DEDUCED: log entry 27] -/
def execReadReg (path : Fin 3) (inst : Fin 32) (off : Nat) (s : State) : Result :=
  .next (s.request path 0x04 inst [1, 2] fun m s =>
    if off % 8 ≠ 0 then s.answer m 2 []
    else
      let (v, s) := s.readReg 0 off 8
      s.answer m 0 (leBytes 8 v))

/-! ### Updates (R454, R455) -/

/-- An update command: NOT_ALLOWED while SEC_CFG.BMC_UPD is 0. [DEDUCED: log entry 27] -/
def State.updRequest (s : State) (path : Fin 3) (cmd : Nat) (inst : Fin 32) (modes : List Nat)
    (act : MctpFrom → State → State) : State :=
  s.request path cmd inst modes fun m s => if s.rdB Reg.SEC_CFG_BMC_UPD then act m s else s.answer m 3 []

/-- UPD_BEGIN (R454): the type 1 to 3 and the length. [DEDUCED: log entry 27] -/
def execUpdBegin (path : Fin 3) (inst : Fin 32) (type : Byte) (len : Nat) (s : State) : Result :=
  .next (s.updRequest path 0x10 inst [] fun m s =>
    let k := type.toNat - 1
    if s.rdB Reg.SEC_UPD_STATUS_BUSY then s.answer m 1 []
    else if type = 0 ∨ 3 < type.toNat ∨ len = 0 ∨ bankSize k < len then s.answer m 2 []
    else
      let s := (s.modBoot fun b => { b with session := some { type := k, len } }).setB Reg.SEC_UPD_STATUS_BUSY
      s.answer m 0 [])

/-- UPD_DATA (R454): bytes of the open session's image. [DEDUCED: log entry 27] -/
def execUpdData (path : Fin 3) (inst : Fin 32) (off : Nat) (data : List Byte) (s : State) : Result :=
  .next (s.updRequest path 0x11 inst [] fun m s =>
    match s.boot.session with
    | none => s.answer m (if s.rdB Reg.SEC_UPD_STATUS_BUSY then 1 else 2) []
    | some u =>
      if 1024 < data.length ∨ u.len < off + data.length then s.answer m 2 []
      else
        let got := data.zipIdx.foldl (fun d (x, i) => Sparse.put none d (off + i) (some x)) u.data
        (s.modBoot fun b => { b with session := some { u with data := got } }).answer m 0 [])

/-- The image a session has assembled: bytes that never came are free. [DESIGN CHOICE: log entry 27] -/
def State.sessionImage (s : State) (u : UpdSession) : List Byte × State :=
  let (free, s) := s.drawBytes u.len
  ((List.range u.len).map fun i => (Sparse.get none u.data i).getD (free.getD i 0), s)

/-- UPD_END (R454): STAGE runs on the image; the answer comes when it ends. [DEDUCED: log entry 27] -/
def execUpdEnd (path : Fin 3) (inst : Fin 32) (writeOk : Bool) (s : State) : Result :=
  .next (s.updRequest path 0x12 inst [] fun m s =>
    match s.boot.session with
    | none => s.answer m (if s.rdB Reg.SEC_UPD_STATUS_BUSY then 1 else 2) []
    | some u =>
      let (b, s) := s.sessionImage u
      let (r, s) := s.stageImage u.type b writeOk
      s.startOp { op := 1, type := u.type, result := r, from_ := some m })

/-- UPD_ACTIVATE (R456). -/
def execUpdActivate (path : Fin 3) (inst : Fin 32) (type : Byte) (s : State) : Result :=
  .next (s.updRequest path 0x13 inst [] fun m s =>
    if s.rdB Reg.SEC_UPD_STATUS_BUSY then s.answer m 1 []
    else if type = 0 ∨ 3 < type.toNat then s.answer m 2 []
    else
      let (r, s) := s.activate (type.toNat - 1)
      s.startOp { op := 2, type := type.toNat - 1, result := r, from_ := some m })

/-- UPD_COMMIT (R458). -/
def execUpdCommit (path : Fin 3) (inst : Fin 32) (confirm : Nat) (s : State) : Result :=
  .next (s.updRequest path 0x14 inst [1] fun m s =>
    if s.rdB Reg.SEC_UPD_STATUS_BUSY then s.answer m 1 []
    else
      let (r, s) := s.commitFuses confirm
      s.startOp { op := 4, type := 0, result := r, from_ := some m })

/-- UPDATE_SESSION_TIMEOUT (R454): the session is abandoned and its bank left not VALID. [DEDUCED: log entry 27] -/
def execUpdateSessionTimeout (s : State) : Result :=
  .next (match s.boot.session with
  | none => s
  | some u => ((s.modBoot fun b => { b with session := none }).clrB Reg.SEC_UPD_STATUS_BUSY).dropBank u.type)

/-! ### Debug access (R465) -/

/-- DEBUG_CHALLENGE (R463, R465). -/
def execDebugChallenge (path : Fin 3) (inst : Fin 32) (s : State) : Result :=
  .next (s.request path 0x20 inst [1, 2] fun m s =>
    let (c, s) := s.drawBytes 32
    (s.modBoot fun b => { b with challenge := some c }).answer m 0 c)

/-- Does a token's body bind this device and its latest challenge? [DEDUCED: log entry 27] -/
def State.tokenBinds (s : State) (token : List Byte) : Bool :=
  token.length == 44 + 29792 && fieldNat token 0 8 == Config.serial.toNat && s.boot.challenge == some ((token.drop 8).take 32)

/-- DEBUG_UNLOCK (R465). [DEDUCED: log entry 27] -/
def execDebugUnlock (path : Fin 3) (inst : Fin 32) (token : List Byte) (s : State) : Result :=
  .next (s.request path 0x21 inst [1, 2] fun m s =>
    if !s.tokenBinds token then
      -- the manual gives no result code for a body that binds something else
      let (w, s) := s.drawWord
      s.answer m 4 (leBytes 1 w)
    else if !s.keyOk (Config.tokenSlot token) (Config.tokenKey token) then s.answer m 4 [2]
    else if !Config.slhVerify 0 (Config.tokenKey token) (token.take 44) (token.drop 44) then s.answer m 4 [3]
    else
      let s := (s.setMeasure 5 (shake256 token 64)).modBoot fun b => { b with scope := fieldNat token 40 4 }
      ((s.setB Reg.SEC_FUSE_DEBUG).record .debugUnlock fwSource []).answer m 0 [])

/-- JTAG_PORT_ACCESS (R34, R465): boundary scan and the IDCODE always; the rest once unlocked. What the port shifts out is not
laid out, and it drives TDO (R503). -/
def execJtagPortAccess (op : JtagOp) (s : State) : Result :=
  let out (s : State) : State := ({ s with fresh := s.fresh + 1, tdo := true } : State).emit (.jtag (Config.freeBytes s.fresh))
  .next (match op with
  | .boundaryScan | .idcode => out s
  | .dieRegister | .scan => if s.rdB Reg.SEC_FUSE_DEBUG then out s else s
  | .siltTest on => if s.rdB Reg.SEC_FUSE_DEBUG then s.modBoot fun b => { b with siltTest := on } else s)

end Sys2Proof.Machine
end

