-- ==== Sys2Proof/Machine/Thermal.lean ====
section
/-! DEFINITION. Temperatures in the stack, throttling and the trip (R408 to R413), and the coolant loop (R414 to R417). -/

namespace Sys2Proof.Machine

/-- Sensors of a die, by position (R408). -/
def sensorCount (p : Nat) : Nat := [8, 4, 4, 4, 4, 4, 12, 36].getD p 0

/-- One sample of one sensor: outside −40 to 150 °C, or more than 10 °C from the sample before, it becomes invalid. -/
def Sensor.sampled (x : Sensor) (v : Int) : Sensor :=
  let outside := decide (v < -640) || decide (2400 < v)
  let jump := match x.last with
    | some w => decide (160 < (v - w).natAbs)
    | none => false
  { last := some v, valid := x.valid && !outside && !jump }

/-- Tm: the highest of the valid sensors that have been sampled. -/
def Layer.measured (l : Layer) (n : Nat) : Option Int :=
  ((List.range n).filterMap fun i =>
    let x := Sparse.get {} l.sensors i
    if x.valid then x.last else none).foldl (fun b v => match b with
      | none => some v
      | some w => some (max v w)) none

/-- Tm in °C. -/
def Layer.celsius (l : Layer) : Option Frac := l.tm.map fun v => Frac.make v 16

/-- Signed, in units of 0.0625 °C, as 16 bits; 0x8000 where there is none. -/
def tempField : Option Frac → Nat
  | some x => wrapInt 16 (wholeUnits (x.mul ⟨16, 1⟩))
  | none => 0x8000

/-- The resistance between positions p and p + 1, in K/W (R409). -/
def rth (p : Nat) : Frac := if p < 6 then Frac.make 6 1000 else Frac.make 3 1000

/-- Heat that crosses from position p to p + 1 of a tower (R409). -/
def State.upHeat (s : State) (t p : Nat) : Frac :=
  let die (j : Nat) : Frac := Frac.mean 500 (s.power.samples.map fun x => x.die.getD (8 * t + j) {})
  (Frac.make (s.rd Reg.THM_CFG_UPSHARE) 100).mul (Frac.sum ((List.range p).map fun j => die (j + 1)))

/-- Ti of a layer above the brim (R409). [DEDUCED: log entry 19] -/
def State.inferred (s : State) (t p : Nat) : Option Frac :=
  let above := if p ≤ 6 then (s.layer t (p + 1)).celsius.map fun x => x.add ((rth p).mul (s.upHeat t p)) else none
  let below := if 2 ≤ p then (s.layer t (p - 1)).celsius.map fun x => x.sub ((rth (p - 1)).mul (s.upHeat t (p - 1)))
    else none
  match above, below with
  | some a, some b => some (a.max b)
  | some a, none => some a
  | none, some b => some b
  | none, none => (s.layer t p).celsius

/-- Tm and Ti are more than 8 °C apart. -/
def Layer.differs (l : Layer) : Bool :=
  match l.celsius, l.ti with
  | some m, some i => (Frac.ofNat 8).lt (m.sub i) || (Frac.ofNat 8).lt (i.sub m)
  | _, _ => false

/-- NVALID of a layer; when its last valid sensor goes, SENSOR_FAULT (R408).
[DEDUCED: log entry 19; DESIGN CHOICE: log entry 19] -/
def State.countSensors (s : State) (t p : Nat) : State :=
  let l := s.layer t p
  let valid := ((List.range (sensorCount p)).filter fun i => (Sparse.get {} l.sensors i).valid).length
  let lost := valid == 0
  let s := s.setLayer t p { l with faulted := lost }
  -- NVALID has four bits, and a crown has 36 sensors
  let (w, s) := if 15 < valid then s.drawWord else (valid, s)
  let s := s.wr (Reg.THM_LAYER_NVALID t p) w
  if lost && !l.faulted then s.setB Reg.THM_STATUS_SENSOR_FAULT else s

/-- The sensors of one layer are sampled (R408). -/
def State.sampleLayer (s : State) (t p : Nat) (vs : List Int) : State :=
  let l := s.layer t p
  let n := sensorCount p
  let sensors := (vs.take n).zipIdx.foldl (fun m (v, i) => Sparse.put {} m i ((Sparse.get {} m i).sampled v)) l.sensors
  let l := { l with sensors }
  (s.setLayer t p { l with tm := l.measured n }).countSensors t p

/-- The temperatures of one layer follow (R409 to R412). -/
def State.settleLayer (s : State) (t p : Nat) : State :=
  let l := s.layer t p
  let ti := if p = 0 then l.celsius else s.inferred t p
  let te := match l.celsius, ti with
    | some m, some i => some (m.max i)
    | none, i => i
    | m, none => m
  let l := { l with ti, te }
  let d := l.differs
  let agreed := if d then 0 else l.agreed + 1
  let hot := p == 0 && (match te with | some x => (Frac.ofNat 105).le x | none => false)
  let s := s.setLayer t p { l with
    apart := if d then l.apart + 1 else 0
    agreed := min agreed 50000
    reported := l.reported && decide (agreed < 50000)
    alerted := hot }
  let s := (s.wr (Reg.THM_LAYER_MEAS t p) (tempField l.celsius)).wr (Reg.THM_LAYER_INF t p) (tempField ti)
  (s.wr (Reg.THM_LAYER_EFF t p) (tempField te)).wrB (Reg.THM_LAYER_DISAGREE t p) d

/-- The layers of a tower that have newly lost their last valid sensor or become too hot are recorded, all in the same cycle
(R408, R409, R467). -/
def State.recordLayers (s before : State) (t : Nat) : State :=
  s.recordTogether ((List.range 8).flatMap fun p =>
    let was := before.layer t p
    let now := s.layer t p
    (if now.faulted && !was.faulted then [(.sensorFault, powerSource t p, [])] else []) ++
      if now.alerted && !was.alerted then [(.brimTemperatureAlert, powerSource t 0, [])] else [])

/-- SENSOR_SAMPLE (R408 to R412): the sensors of tower t, by position, in units of 0.0625 °C.
[DEDUCED: log entry 19; DESIGN CHOICE: log entries 33 and 35] -/
def execSensorSample (t : Tower) (readings : List (List Int)) (s : State) : Result :=
  let ps := List.range 8
  let u := ps.foldl (fun s p => s.sampleLayer t.val p (readings.getD p [])) s
  .next ((ps.foldl (fun s p => s.settleLayer t.val p) u).recordLayers s t.val)

/-- SENSOR_CALIBRATION (R248, R408): the sensors (tower, position, number) that fail; the others pass. -/
def execSensorCalibration (failed : List (Tower × Pos × Nat)) (s : State) : Result :=
  let u := (List.range 32).foldl (fun s i =>
    let l := s.layer (i / 8) (i % 8)
    let passed := Sparse.mapVals {} (fun _ (x : Sensor) => { x with valid := true }) l.sensors
    let bad := failed.filter fun f => f.1.val == i / 8 && f.2.1.val == i % 8
    let sensors := bad.foldl (fun m f => Sparse.put {} m f.2.2 { Sparse.get {} m f.2.2 with valid := false }) passed
    (s.setLayer (i / 8) (i % 8) { l with sensors }).countSensors (i / 8) (i % 8)) s
  .next ([0, 1, 2, 3].foldl (fun u t => u.recordLayers s t) u)

/-- SENSOR_MODEL_DISAGREEMENT (R411): a layer's Tm and Ti have been apart for more than 50 ms, 2,500 samples.
[DEDUCED: log entry 19] -/
def execSensorModelDisagreement (t : Tower) (p : Pos) (s : State) : Result :=
  let l := s.layer t.val p.val
  .next (if l.reported ∨ l.apart ≤ 2500 then s
    else
      let s := (s.setLayer t.val p.val { l with reported := true }).setB Reg.THM_STATUS_DISAGREE
      s.record .sensorModelDisagreement (powerSource t.val p.val)
        [pv1 t.val, pv1 p.val, pv2 (tempField l.celsius), pv2 (tempField l.ti)])

/-- THROTTLE_STEP (R412): 1 ms at the throttle level, or 10 ms below it. [DEDUCED: log entry 19] -/
def execThrottleStep (t : Tower) (s : State) : Result :=
  let c := s.crownPower t.val
  let ps := [1, 2, 3, 4, 5, 6, 7]
  let hot := ps.any fun p => match (s.layer t.val p).te with
    | some x => (throttleLevel p).le x
    | none => false
  let cool := ps.all fun p => match (s.layer t.val p).te with
    | some x => (x.add ⟨3, 1⟩).le (throttleLevel p)
    | none => false
  let c := if hot then
      (if 0 < c.thermOp then { c with thermOp := c.thermOp - 1 } else { c with thermDuty := max 4 (c.thermDuty - 4) })
    else if cool then
      (if c.thermDuty < 64 then { c with thermDuty := min 64 (c.thermDuty + 4) } else { c with thermOp := min 7 (c.thermOp + 1) })
    else c
  let s := (s.setCrownPower t.val c).showCeiling t.val
  let on := decide (c.thermOp < 7) || decide (c.thermDuty < 64)
  let others := s.rd Reg.THM_STATUS_THROT &&& (15 - 2 ^ t.val)
  .next (s.wr Reg.THM_STATUS_THROT (others + on.toNat * 2 ^ t.val))

/-- Drive COOL_DEMAND. -/
def State.driveDemand (s : State) (d : Frac) : State :=
  (s.modPower fun p => { p with coolant := { p.coolant with dem := d } }).wr Reg.THM_COOL_STATUS_DEMAND
    (min 1000 (wholeUnits (d.mul ⟨10, 1⟩)).toNat)

/-- THERMAL_TRIP (R413): Te of a crown, cache die or horizon has reached its trip level. [DEDUCED: log entry 19] -/
def execThermalTrip (t : Tower) (p : Pos) (s : State) : Result :=
  let hot := match (s.layer t.val p.val).te with
    | some x => (tripLevel p.val).le x
    | none => false
  .next (if p = 0 ∨ !hot ∨ s.power.trip then s
    else
      let s := (s.wr Reg.THM_STATUS_TRIP_POS p.val).wr Reg.THM_STATUS_TRIP_TWR t.val
      let s := (s.emit (.pin "THERMTRIP_N" false)).modPower fun w => { w with stopped := true, trip := true }
      let s := s.driveDemand ⟨100, 1⟩
      (s.record .thermalTrip (powerSource t.val p.val) [pv1 t.val, pv1 p.val]).setB Reg.EVR_STATUS_FLUSHING)

/-! ### The coolant loop -/

/-- a ÷ b, free where the manual divides by zero. [DESIGN CHOICE: log entry 19] -/
def State.quotient (s : State) (a b : Frac) : Frac × State :=
  if b.isZero then
    let (w, s) := s.drawWord
    (Frac.ofNat w, s)
  else (a.div b, s)

def alarmKey : CoolAlarm → Nat
  | .flow => 0 | .inlet => 1 | .outlet => 2

/-- Steps of 100 ms that a condition must hold (R416). -/
def alarmSteps : CoolAlarm → Nat
  | .flow => 50
  | _ => 100

/-- Does an alarm condition hold now? (R416) -/
def State.alarmNow (s : State) (tin tout flow : Frac) : CoolAlarm → Bool
  | .flow => s.rdB Reg.THM_COOL_STATUS_TACH_SEEN && flow.lt (Frac.make (s.rd Reg.THM_COOL_MODEL_FLOW_MIN) 10) &&
      (Frac.ofNat (s.rd Reg.THM_COOL_CFG_DMIN)).le s.power.coolant.dem
  | .inlet => s.rdB Reg.THM_COOL_STATUS_IN_PRESENT && (Frac.ofNat (s.rd Reg.THM_COOL_MODEL_IN_MAX)).lt tin
  | .outlet => s.rdB Reg.THM_COOL_STATUS_OUT_PRESENT && (Frac.ofNat (s.rd Reg.THM_COOL_CFG_OUT_SET + 10)).lt tout

def State.countAlarm (s : State) (now : Bool) (k : Nat) : State :=
  s.modPower fun p =>
    let c := p.coolant
    let held := Sparse.put 0 c.held k (if now then min 100 (Sparse.get 0 c.held k + 1) else 0)
    let absent := Sparse.put 0 c.absent k (if now then 0 else min 600 (Sparse.get 0 c.absent k + 1))
    { p with coolant := { c with held, absent } }

/-- COOLANT_CONTROL_STEP (R414 to R416): inlet and outlet readings in units of 0.0625 °C, and COOL_TACH pulses a second.
[DEDUCED: log entry 19; DESIGN CHOICE: log entries 33 and 35] -/
def execCoolantControlStep (inlet outlet : Int) (pulses : Nat) (s : State) : Result :=
  if s.rd Reg.MGT_STATUS_PHASE < 6 ∨ s.power.trip then .next s
  else
    let s := (s.modPower fun p => { p with coolant := { p.coolant with alarmCap := s.rd Reg.THM_COOL_CFG_ALARM_CAP } }).refreshCap
    let set := Frac.ofNat (s.rd Reg.THM_COOL_CFG_OUT_SET)
    let dmin := Frac.ofNat (s.rd Reg.THM_COOL_CFG_DMIN)
    let gflow := Frac.ofNat (s.rd Reg.THM_COOL_CFG_GFLOW)
    let hasIn := s.rdB Reg.THM_COOL_STATUS_IN_PRESENT
    let hasOut := s.rdB Reg.THM_COOL_STATUS_OUT_PRESENT
    let tin := if hasIn then Frac.make inlet 16 else set.sub ⟨10, 1⟩
    let tout := Frac.make outlet 16
    -- the flow
    let (flow, s) := s.quotient (Frac.ofNat (pulses * 60)) (Frac.ofNat (s.rd Reg.THM_COOL_MODEL_TACH_K))
    let s := if 0 < pulses then s.setB Reg.THM_COOL_STATUS_TACH_SEEN else s
    let k := s.power.coolant
    let silent := if 0 < pulses then 0 else if dmin.le k.dem then min 11 (k.silent + 1) else k.silent
    let s := s.modPower fun p => { p with coolant := { p.coolant with silent } }
    let s := if silent = 10 ∧ k.silent = 9 ∧ !s.rdB Reg.THM_COOL_STATUS_TACH_SEEN then
        s.record .coolantSensorAbsent (powerSource 0 0) [] else s
    let s := s.wr Reg.THM_COOL_STATUS_FLOW (min 4095 (wholeUnits (flow.mul ⟨10, 1⟩)).toNat)
    let s := if hasIn then s.wr Reg.THM_COOL_STATUS_TIN (wrapInt 12 inlet) else s
    let s := if hasOut then s.wr Reg.THM_COOL_STATUS_TOUT (wrapInt 12 outlet) else s
    -- the demand
    let eff := Frac.ofNat (s.rd Reg.PCAP_CAP_EFF)
    let (ff, s) := s.quotient ((Frac.ofNat 100).mul eff) (gflow.mul ((set.sub tin).max ⟨2, 1⟩))
    let (rise, s) := s.quotient ((Frac.ofNat 100).mul s.avg1) (gflow.mul (k.dem.max dmin))
    let (step, s) := s.quotient (Frac.make 1 10) (Frac.ofNat (s.rd Reg.THM_COOL_MODEL_TAU))
    let x := k.x.add (step.mul (rise.sub k.x))
    let history := (x :: k.history).take 256
    let xd := history.getD (s.rd Reg.THM_COOL_MODEL_DELAY) {}
    let e := if hasOut then (tout.add (x.sub xd)).sub set else {}
    let stuck := (k.dem == ⟨100, 1⟩ && Frac.lt {} e) || (k.dem == dmin && e.lt {})
    let ki := Frac.make (s.rd Reg.THM_COOL_CFG_KI) 100
    let integ := if stuck || !hasOut then k.integ
      else (k.integ.add ((ki.mul e).mul (Frac.make 1 10))).clamp ⟨-100, 1⟩ ⟨100, 1⟩
    let kp := Frac.make (s.rd Reg.THM_COOL_CFG_KP) 10
    let dem := if hasOut then ((ff.add (kp.mul e)).add integ).clamp dmin ⟨100, 1⟩
      else (Frac.ofNat 100).min ((Frac.make 12 10).mul ff)
    let s := s.modPower fun p => { p with coolant := { p.coolant with x, history, integ } }
    let s := s.driveDemand dem
    .next ([CoolAlarm.flow, .inlet, .outlet].foldl (fun s a => s.countAlarm (s.alarmNow tin tout flow a) (alarmKey a)) s)

/-- A coolant alarm stands while its condition has not been absent for 60 s. -/
def State.setStanding (s : State) (l : List CoolAlarm) : State :=
  ((s.modPower fun p => { p with coolant := { p.coolant with standing := l } }).wrB Reg.PCAP_STATUS_ALARM_LIM
    (!l.isEmpty)).refreshCap

/-- COOLANT_ALARM (R416). -/
def execCoolantAlarm (kind : CoolAlarm) (s : State) : Result :=
  let c := s.power.coolant
  .next (if Sparse.get 0 c.held (alarmKey kind) < alarmSteps kind ∨ c.standing.contains kind then s
    else ((s.setB Reg.THM_COOL_STATUS_ALARM).record .coolantAlarm (powerSource 0 0) []).setStanding (c.standing ++ [kind]))

/-- COOLANT_ALARM_CLEAR (R416): the condition has been absent for 60 s. -/
def execCoolantAlarmClear (kind : CoolAlarm) (s : State) : Result :=
  let c := s.power.coolant
  .next (if Sparse.get 0 c.absent (alarmKey kind) < 600 then s
    else s.setStanding (c.standing.filter fun a => a != kind))

end Sys2Proof.Machine
end

