-- ==== Sys2Proof/Machine/Registers.lean ====
section
/-! DEFINITION. Host accesses to BAR0: registers that have no row of their own (R7, R9, R11, R30, R422, R482, R509), and the rows of
the registers of the crowns, the tier managers, the links, the sync objects, power and the recorder. Every access waits for the posted
writes that its port received before it (R424), and one to a die in reset or a tower asleep is held (R425). -/

namespace Sys2Proof.Machine

/-! ### Registers without a row of their own -/

/-- How many of the three start bits of RST_CTL a write sets (R487). -/
def State.resetBits (s : State) (acc : RegAccess) : Nat :=
  s.accessBits acc Reg.RST_CTL_WARM + s.accessBits acc Reg.RST_CTL_TOWER + s.accessBits acc Reg.RST_CTL_JOB

/-- How many of the four WO fields of MGT_TOKEN a write sets (R437). -/
def State.tokenBits (s : State) (acc : RegAccess) : Nat :=
  s.accessBits acc Reg.MGT_TOKEN_CLAIM + s.accessBits acc Reg.MGT_TOKEN_RELEASE + s.accessBits acc Reg.MGT_TOKEN_GIVE +
    s.accessBits acc Reg.MGT_TOKEN_BEAT

/-- One register, or half of one, written through a port: fields whose write is a row of its own are left to that row. A write of
RST_CTL that sets no start bit is rejected (R487), and one of MGT_TOKEN that sets more than one of its four WO fields is ignored
(R437). [DEDUCED: log entry 2] -/
def State.writeOne (s : State) (p : Port) (off size v : Nat) : State :=
  match regAccess off size with
  | none => s
  | some (_, ro, part) =>
    let acc : RegAccess := ⟨p, part, v⟩
    s.hostReg false ro acc fun s =>
      if ro = 0x600000 ∧ s.resetBits acc = 0 then s.rejectWrite p ro
      else if ro = 0x500000 ∧ 1 < s.tokenBits acc then s
      else s.hostRegWrite false ro acc

/-- REGISTER_WRITE (R7, R11, R422, R509): a write of 4 or 8 bytes. One that is not aligned is discarded, and so is one where no
register lies; 8 bytes over two 32-bit registers write both. [DEDUCED: log entry 2] -/
def execRegisterWrite (port : Port) (off size value : Nat) (s : State) : Result :=
  let s := s.portTurn port.val
  .next (if size = 8 ∧ off % 8 = 0 ∧ (familyAt off).map (·.width) = some 32 then
      (s.writeOne port off 4 (value % 2 ^ 32)).writeOne port (off + 4) 4 (value / 2 ^ 32 % 2 ^ 32)
    else s.writeOne port off size value)

/-- READ_CLEAR (R7, R422, R424, R425): a read through a port; it returns the value and then clears the RC fields it covers. A read that is
not an aligned 32-bit or 64-bit one completes as Unsupported Request, and one whose path is lost with poisoned data, as R423 has it
of BAR2 (R30). [DEDUCED: log entry 2] -/
def execReadClear (port : Port) (tag off size : Nat) (s : State) : Result :=
  let p := port.val
  let s := s.portTurn p
  .next (if (size ≠ 4 ∧ size ≠ 8) ∨ off % size ≠ 0 then s.emit (.completion p tag [] 1)
    else if s.regPathLost (.port port) off then s.emit (.completion p tag (List.replicate size none) 0)
    else match if s.bar0Open off then s.regHolder (.port port) off else none with
    | some h => s.holdReq ⟨h, .port port, .hostRead p tag, 0x6000000000 + off, size, []⟩
    | none =>
      let (v, s) := s.readReg p off size
      s.emit (.completion p tag ((leBytes size v).map some) 0))

/-! ### Cores and crowns -/

/-- SLOT_DESCRIPTOR_WRITE (R119, R120): a host write, refused while a step runs. -/
def execSlotDescriptorWrite (core : Core) (arr : Arr) (sl : Fin 16) (acc : RegAccess) (s : State) : Result :=
  let off := slotOff core.val arr sl.val
  .next (s.hostReg true off acc fun s =>
    if s.step.isSome then s.rejectWrite acc.port.val off else s.installSlot core.val arr sl.val (Slot.ofNat acc.value))

/-- CRN_FULLER_CFG_WRITE (R114): the write is clamped and kept; the boundary takes it. -/
def execCrnFullerCfgWrite (n : Tower) (acc : RegAccess) (s : State) : Result :=
  let off := 0x1000100 + n.val * 0x400000
  .next (s.hostReg true off acc fun s => s.writeReg off acc fun _ => true)

/-- FLEX_POST (R207, R222): a write to CRN_FLEX_POST. Host software's is discarded; a standard core ignores every write;
with a full table the control core's write waits. -/
def execFlexPost (core : Core) (w : Writer) (value : Nat) (s : State) : Result :=
  let c := core.val
  .next (match w with
    | .host p =>
      let s := s.portTurn p.val
      let off := 0x1010048 + crownOf c * 0x400000 + localOf c * 0x1000
      if isFlex c then s.hostReg true off ⟨p, .whole, value⟩ fun s => s.rejectWrite p.val off else s
    | .thread th =>
      if !isFlex c then s
      else if s.rdB (Reg.CRN_FLEX_CFG_EN (crownOf c) (localOf c)) && !(s.core c).jobRoom then s else s.postJob c th value)

/-- CHAIN_DESCRIPTOR_WRITE (R195): discarded while the core runs a step; otherwise written at once, and a descriptor that
then breaks the chain rules is left with VALID 0. -/
def execChainDescriptorWrite (core : Core) (d : Fin 16) (st : Option (Fin 8)) (acc : RegAccess) (s : State) : Result :=
  let off := chainOff core.val d.val st
  .next (s.hostReg true off acc fun s =>
    if s.step.isSome then s.rejectWrite acc.port.val off else s.chainWrite core.val d.val off acc)

/-- CNT_SEL (R194): the selection is written, and the counters of the pair are latched together. -/
def execCntSel (bank : Bank) (acc : RegAccess) (s : State) : Result :=
  .next (s.hostReg true (bankOff bank) acc fun s => if partLow acc.part then s.selectPair bank acc.value else s)

/-- CLR_ALL (R194): a write of 1 clears every counter of the bank and its latched values. -/
def execClrAll (bank : Bank) (acc : RegAccess) (s : State) : Result :=
  .next (s.hostReg true (bankClear bank) acc fun s => if partLow acc.part && bit acc.value 1 then s.clearBank bank else s)

/-- CLR_SEL (R194): a write of 1 clears the counters of the selected pair and their latched values. -/
def execClrSel (bank : Bank) (acc : RegAccess) (s : State) : Result :=
  .next (s.hostReg true (bankClear bank) acc fun s => if partLow acc.part && bit acc.value 0 then s.clearPair bank else s)

/-! ### Tier managers -/

/-- TIER_CFG_WRITE (R255): RATE and SCRUB_EN take the values written; the engines use them from their next
block on. A write whose path is lost is discarded (R30). -/
def execTierCfgWrite (t : Tower) (acc : RegAccess) (s : State) : Result :=
  let off := 0x100000 + t.val * 0x1000
  .next (s.hostReg true off acc fun s => s.writeReg off acc fun _ => true)

/-! ### Fabric links and coordinates -/

/-- LINK_ACTIVATE (R310): from the holder's port, a STANDBY link becomes ACTIVE. -/
def execLinkActivate (link : Link) (acc : RegAccess) (s : State) : Result :=
  let s := s.portTurn acc.port.val
  let l := link.val
  .next (s.linkAction l acc (Reg.HB_LINK_CTL_ACTIVATE l) fun s => if s.linkState l == 7 then s.freshLink l 8 else s)

/-- RETRAIN (R310): from the holder's port, a FAILED or FENCED link goes to TRAIN. -/
def execRetrain (link : Link) (acc : RegAccess) (s : State) : Result :=
  let s := s.portTurn acc.port.val
  let l := link.val
  .next (s.linkAction l acc (Reg.HB_LINK_CTL_RETRAIN l) fun s =>
    if s.linkState l == 10 || s.linkState l == 11 then s.freshLink l 2 else s)

/-- LINK_EN (R294): EN takes the value written under its access code; clearing it sends the link to OFF from any state, and
setting it takes a link from OFF to DETECT, where the SerDes firmware runs (R450). -/
def execLinkEn (link : Link) (acc : RegAccess) (s : State) : Result :=
  let s := s.portTurn acc.port.val
  let l := link.val
  let s := s.writeReg (0x200000 + l * 0x1000) acc (·.name == "EN")
  .next (if !s.rdB (Reg.HB_LINK_CTL_EN l) then
      (if s.linkState l = 0 then s else ((s.dropLink l).2).setLinkState l 0)
    else if s.linkState l = 0 ∧ s.boot.serdes then s.setLinkState l 1 else s)

/-- HB_COORD_WRITE (R311). -/
def execHbCoordWrite (acc : RegAccess) (s : State) : Result :=
  let s := s.portTurn acc.port.val
  .next (s.coordWrite 0x20F000 acc)

/-- HB_PLANE_WRITE (R311). -/
def execHbPlaneWrite (acc : RegAccess) (s : State) : Result :=
  let s := s.portTurn acc.port.val
  .next (s.coordWrite 0x20F008 acc)

/-! ### Sync objects -/

/-- SYN_OP_ADD (R371, R382). -/
def execSynOpAdd (acc : RegAccess) (s : State) : Result :=
  let s := s.portTurn acc.port.val
  .next (s.synOp acc false)

/-- SYN_OP_SET (R371, R382). -/
def execSynOpSet (acc : RegAccess) (s : State) : Result :=
  let s := s.portTurn acc.port.val
  .next (s.synOp acc true)

/-! ### Power and the coolant loop -/

/-- FORCE_FB (R391). -/
def execForceFb (acc : RegAccess) (s : State) : Result :=
  let s := s.portTurn acc.port.val
  let s := s.writeReg 0x50000 acc fun _ => true
  .next (if !s.bar0Open 0x50000 then s
    else if s.rdB Reg.PWR_CFG_FORCE_FB then (s.modPower fun p => { p with good := [] }).fallBack else s.comeBack)

/-- PCAP_CAP (R392, R399): a write of REQ. -/
def execPcapCap (acc : RegAccess) (s : State) : Result :=
  let s := s.portTurn acc.port.val
  let may := s.holds acc.port
  let s := s.writeReg 0x50400 acc fun _ => true
  .next (if !may || acc.part = .upper || !s.bar0Open 0x50400 then s
    else
      let req := s.rd Reg.PCAP_CAP_REQ
      let s := if req < 900 ∨ 3600 < req then s.setB Reg.PCAP_CAP_CLAMPED else s
      s.refreshCap.clrB Reg.PCAP_STATUS_UNMET_NOW)

/-- THM_COOL_CFG_WRITE (R417), of THM_COOL_CFG or THM_COOL_MODEL: the next step of R415 uses the values; integ and the history of x stay. -/
def execThmCoolCfgWrite (model : Bool) (acc : RegAccess) (s : State) : Result :=
  let s := s.portTurn acc.port.val
  .next (s.writeReg (if model then 0x50C08 else 0x50C00) acc fun _ => true)

/-! ### The event recorder -/

/-- WINDOW_READ (R478): a read of EVR_WINDOW31, of 64 bits, or of 32 bits of its lower or upper half. -/
def execWindowRead (port : Port) (tag : Nat) (part : RegPart) (s : State) : Result :=
  let s := s.portTurn port.val
  let (off, size) := match part with
    | .whole => (0x401F8, 8)
    | .lower => (0x401F8, 4)
    | .upper => (0x401FC, 4)
  let (v, s) := s.readReg port.val off size
  .next (s.emit (.completion port.val tag ((leBytes size v).map some) 0))

/-- CLEAR (R479): carried out from the holder's port, once a flush in progress has ended. [DEDUCED: log entry 24; PRESUMED: log entry 24] -/
def execClear (acc : RegAccess) (s : State) : Result :=
  let s := s.portTurn acc.port.val
  let p := acc.port.val
  .next (if s.accessBits acc Reg.EVR_CLEAR_CLEAR = 0 then s
    else if !s.holds p ∨ s.accessBits acc Reg.EVR_CLEAR_CONFIRM ≠ 0xC1EA then s.rejectWrite p 0x40038
    else if s.rdB Reg.EVR_STATUS_FLUSHING then s.modRec fun k => { k with clearing := some p }
    else s.clearRecorder p)

end Sys2Proof.Machine
end

