-- ==== Sys2Proof/Machine/Remote.lean ====
section
/-! DEFINITION. Remote reads and writes over the fabric (R292, R293). -/

namespace Sys2Proof.Machine

/-- READ_REQUEST (R292): the first read that has reached this package. [DEDUCED: log entries 18 and 34] -/
def execReadRequest (hits : List EccHit) (s : State) : Result :=
  let (e, s) := s.takeEjected 1 0x01
  .next (match e with
  | none => s
  | some (b, p) =>
    let n := fieldNat p.hdr 20 2
    if p.addr % 16 ≠ 0 ∨ n % 16 ≠ 0 ∨ n < 16 ∨ 4096 < n then s
    else
      let s := s.countAccess p.addr n
      match s.rangeHolder (routerOrig b) p.addr n with
      | some h => s.holdReq ⟨h, routerOrig b, .fabric b p.src p.tag, p.addr, n, []⟩
      | none =>
        let bad := s.pathBad hits
        let (st, bs, s) := (s.eccHits hits).memRead (routerOrig b) p.addr n
        let bs := spoil bad p.addr bs
        let s := s.consumePoison (routerOrig b) (if st = stPathLost ∨ st = stAddrFault then []
          else poisonWords p.addr bs)
        s.finishAccess (.fabric b p.src p.tag) st bs)

/-- WRITE_REQUEST (R292): the first write that has reached this package. [DEDUCED: log entries 18 and 34] -/
def execWriteRequest (s : State) : Result :=
  let (e, s) := s.takeEjected 1 0x02
  .next (match e with
  | none => s
  | some (b, p) =>
    if p.addr % 16 ≠ 0 ∨ p.data.length % 16 ≠ 0 ∨ p.data.length = 0 then s
    else
      let bs := p.bytes
      let s := (s.countAccess p.addr bs.length).consumePoison (routerOrig b) (poisonWords p.addr bs)
      match s.rangeHolder (routerOrig b) p.addr bs.length with
      | some h => s.holdReq ⟨h, routerOrig b, .fabric b p.src p.tag, p.addr, p.data.length, bs⟩
      | none =>
        let (st, s) := s.memWrite (routerOrig b) p.addr bs
        s.finishAccess (.fabric b p.src p.tag) st [])

/-- A response reaches the request it answers; one that comes too late is discarded (R293). [DEDUCED: log entry 34] -/
def State.response (s : State) (p : Pkt) (write : Bool) : State :=
  match s.fabric.requests.find? fun r => r.tag == p.tag && r.dst == p.src && r.write == write with
  | none => s
  | some r =>
    let s := s.modFabric fun f => { f with requests := f.requests.erase r }
    s.finishAccess r.sink (fieldNat p.hdr 22 1) p.bytes

/-- READ_DATA (R292). [DEDUCED: log entry 34] -/
def execReadData (s : State) : Result :=
  let (e, s) := s.takeEjected 2 0x81
  .next (match e with
    | none => s
    | some (_, p) => s.response p false)

/-- WRITE_ACKNOWLEDGEMENT (R292). [DEDUCED: log entry 34] -/
def execWriteAcknowledgement (s : State) : Result :=
  let (e, s) := s.takeEjected 2 0x82
  .next (match e with
    | none => s
    | some (_, p) => s.response p true)

/-- REQ_TIMEOUT (R293): the request with a tag completes with PATH_LOST, read data as poison. [DEDUCED: log entry 34] -/
def execReqTimeout (tag : Nat) (s : State) : Result :=
  .next (match s.fabric.requests.find? fun r => r.tag == tag with
    | none => s
    | some r =>
      let s := s.modFabric fun f => { f with requests := f.requests.erase r }
      let s := s.record .fabricTimeout (source 0 0 4) [pv2 r.tag, pv2 r.dst]
      s.finishAccess r.sink stPathLost (if r.write then [] else List.replicate r.len none))

end Sys2Proof.Machine
end

