-- ==== Sys2Proof/Machine/Resets.lean ====
section
/-! DEFINITION. Power-on, warm, tower and job resets, what starts them, failover, and package standby (R406, R443, R457, R466,
R477, R480 to R487). -/

namespace Sys2Proof.Machine

/-! ### What RST_CAUSE and RST_CNT show -/

/-- KIND and CAUSE, and the SEQ of the reset's record. [DEDUCED: log entry 26] -/
def State.showCause (s : State) (e : Event) (kind cause : Nat) : State :=
  ((s.wr Reg.RST_CAUSE_KIND kind).wr Reg.RST_CAUSE_CAUSE cause).wr Reg.RST_CAUSE_SEQ (Sparse.get 0 s.recorder.lastSeq e.code)

/-! ### Warm reset (R21, R482) -/

/-- The fields a warm reset reaches: all but the DEV_ block and both HQ_ blocks. [DEDUCED: log entry 26] -/
def reachW (off : Nat) : Bool :=
  !decide ((if portBCopy ≤ off then off - portBCopy else off) < 0x10000) && !inHostBlock 0 off && !inHostBlock 1 off

/-- What a warm reset leaves of a tower: the state of its through domains. -/
def TowerSt.afterWarm (x : TowerSt) : TowerSt :=
  { lost := x.lost, lostOnce := x.lostOnce, staysOff := x.staysOff, isolated := x.isolated }

/-- What MRAM keeps of a tower's tier manager (R251), and the row errors counted since power-on (R250). -/
def TierSt.afterWarm (x : TierSt) : TierSt :=
  { sparedRows := x.sparedRows, sparesUsed := x.sparesUsed, lanes := x.lanes, failedChannels := x.failedChannels
    rowErrors := x.rowErrors }

/-- What a tower reset leaves of a tower's tier manager: the deep tier keeps its data, and with it the rows that wait to be spared, the
refreshes issued and the place of its scrub (R250, R486). [DEDUCED: log entry 26] -/
def TierSt.afterTower (x : TierSt) : TierSt :=
  { x.afterWarm with rowUncorrectable := x.rowUncorrectable, scrubDeep := x.scrubDeep, refreshes := x.refreshes }

/-- What a warm reset leaves of a port: commands taken are abandoned without a completion entry. -/
def HostPort.afterWarm (h : HostPort) : HostPort :=
  { h with dma := [], queues := Sparse.mapVals {} (fun _ q => { q with reserved := 0 }) h.queues }

/-- What a warm reset leaves of firmware and security: MRAM, fuses, and what lasts until power-on reset. -/
def BootSt.afterWarm (b : BootSt) : BootSt :=
  { b with op := none, session := none, signing := [], missing := [], store := none, serdes := false
           types := Sparse.mapVals {} (fun _ t => { t with inUse := none }) b.types }

/-- Host requests that wait complete as BAR2 accesses do during a warm reset: as Completer Abort. [DEDUCED: log entry 26] -/
def State.abandonHeld (s : State) : State :=
  s.held.foldl (fun s r => match r.sink with
    | .hostRead p tag => s.emit (.completion p tag [] 2)
    | _ => s) { s with held := [] }

/-- LSTEP_N goes high. -/
def State.releaseLstep (s : State) : State :=
  if s.lstep then ({ s with lstep := false } : State).emit (.pin "LSTEP_N" true) else s

/-- Everything outside the registers that a warm reset takes back to its first value. [DEDUCED: log entry 26] -/
def State.warmContents (s : State) : State :=
  { s.abandonHeld.releaseLstep with
    latch := [], mem := [], poison := [], upsets := [], pages := [], silt := [], siltTaken := [], telemetryInBrim := false, telemetry := 0, standby := false
    towers := Sparse.mapVals {} (fun _ x => x.afterWarm) s.towers
    tiers := Sparse.mapVals {} (fun _ x => x.afterWarm) s.tiers
    hosts := Sparse.mapVals {} (fun _ x => x.afterWarm) s.hosts
    cores := [], crowns := [], sync := []
    units := [], urgents := [], barriers := [], syncInit := [], regions := [], roles := [], imageBase := 0
    stepQueue := [], step := none, urgentRuns := [], urgentHeld := [], barrierGens := [], remoteAdds := [], remoteSeen := []
    fabric := { takenOver := s.fabric.takenOver, overflowed := s.fabric.overflowed, overSpared := s.fabric.overSpared }
    upd := [], entries := []
    power := { trip := s.power.trip, stopped := s.power.trip }
    boot := s.boot.afterWarm }

/-- A warm reset with its cause: recorded, flushed, and boot steps 1 to 8 (R443, R480, R482, R486).
[DEDUCED: log entry 26] -/
def State.warmReset (s : State) (cause : Nat) (f : BootFacts) : State :=
  let s := (s.modRec fun k => { k with closed := false }).raiseReserve
  let s := s.record .warmReset (source 0 0 2) [pv4 cause]
  let s := (s.showCause .warmReset 2 cause).incStop Reg.RST_CNT_WARM
  let s := s.flushAll f.flush
  (s.warmContents.resetFields .W fun off _ => reachW off).bootPackage f

/-! ### Power-on reset (R443, R476) -/

/-- What MRAM and the fuses keep across the loss of VAON. -/
def State.onlyMram (s : State) : State :=
  let tier (x : TierSt) : TierSt :=
    { sparedRows := x.sparedRows, sparesUsed := x.sparesUsed, lanes := x.lanes, failedChannels := x.failedChannels }
  { State.reset with
    pending := s.pending, fresh := s.fresh, outbox := s.outbox, nextOp := s.nextOp, refLost := s.refLost
    recorder := { areaA := s.recorder.areaA, areaB := s.recorder.areaB }
    tiers := Sparse.mapVals {} (fun _ x => tier x) s.tiers
    boot := { types := Sparse.mapVals {} (fun _ t => { t with inUse := none }) s.boot.types
              older := s.boot.older, recordSeq := s.boot.recordSeq, banks := s.boot.banks
              revoked := s.boot.revoked, floors := s.boot.floors, signatures := s.boot.signatures } }

/-- A power-on reset with its cause: while VAON is away every output is high-impedance, then LSTEP_N is driven high and THERMTRIP_N is
released (R503), and boot follows, with the power-on record after it (R486). [DEDUCED: log entry 26] -/
def State.powerOnReset (s : State) (cause : Nat) (f : BootFacts) : State :=
  let t := (s.onlyMram.emit .outputsOff).emit (.pin "LSTEP_N" true) |>.emit (.pin "THERMTRIP_N" true)
  let t := t.bootRecorder.bootPackage f
  (t.record .powerOn (source 0 0 2) []).showCause .powerOn 1 cause

/-- POWER_ON_RESET (R443): VAON is applied. [DESIGN CHOICE: log entry 25] -/
def execPowerOnReset (facts : BootFacts) (s : State) : Result := .next (s.powerOnReset 6 facts)

/-! ### Tower reset (R483) -/

/-- A running step ends at once with status 1, without a mirror; a step's earlier failure gives its status (R365). -/
def State.abortStep (s : State) : State :=
  match (s.stopStep 1).step with
  | none => s
  | some r =>
    let s := ((s.stopStep 1).closeEntries r).noPhase
    let s := ({ s with step := none } : State).signal .mgmt r.cmd.done
    (s.incWrap Reg.SHP_STEP_STEPS).postEntry r.cmd.ticket r.failed r.flags 1 r.cmd.step

/-- The image is unshaped and nothing is written back. -/
def State.dropShape (s : State) : State :=
  let s := [0, 1, 2, 3].foldl State.clearDirectory s
  let s := { s with urgentRuns := [], urgentHeld := [] }
  ({ s with pages := [] } : State).dropImage.gateAll.wr Reg.SHP_STATUS_STATE 0

/-- One tower after a tower reset: its near tier and local SRAM are lost, its cache die is in reset.
[DEDUCED: log entry 26] -/
def State.resetTower (s : State) (t : Nat) : State :=
  let s := s.loseTower t
  let s := (s.setTier t (s.tier t).afterTower).clearEngines t
  let x := s.tower t
  let s := s.setTower t { x with cacheReset := true, idle := false }
  s.resetFields .T fun off _ => inTower t off

/-- A SHP_ field that shaping sets and no descriptor holds: STATE, its error fields, STEPS and the digest (R353).
[DEDUCED: log entry 26] -/
def shapedField (off : Nat) (r : FieldRow) : Bool :=
  off == 0x60018 || (off == 0x60020 && r.lo == 0) || (decide (0x60080 ≤ off) && decide (off < 0x600C0))

/-- Is a power-on or warm reset in progress: has boot not reached step 8 (R482, R486)? [DEDUCED: log entry 26] -/
def State.resetting (s : State) : Bool := s.rd Reg.MGT_STATUS_PHASE != 8

/-- A tower reset of some towers with its cause: recorded, the step ended, the image unshaped (R483). One that begins while a
power-on or warm reset is in progress is discarded (R486). `also` are events of the same cycle. [DEDUCED: log entry 26] -/
def State.towerReset (s : State) (ts : List Nat) (cause : Nat) (also : List (Event × Nat × List PayVal) := []) : State :=
  if s.resetting then s.recordTogether also
  else match ts with
  | [] => s
  | t :: rest =>
    let s := s.recordTogether ((.towerReset, if rest = [] then source t 0 2 else source 0 0 2, [pv4 cause]) :: also)
    let s := (s.showCause .towerReset 3 cause).incStop Reg.RST_CNT_TOWER
    let s := s.wr Reg.RST_CAUSE_TOWERS ((ts.map (2 ^ ·)).sum)
    let s := { s.abandonSleep.abortStep.dropShape.clearHeads with sync := [] }
    ts.foldl State.resetTower (s.resetFields .T shapedField)

/-! ### Job reset (R483) -/

/-- The block of a register, by its name's prefix. -/
def inBlocks (names : List String) (off : Nat) : Bool :=
  match familyAt (if portBCopy ≤ off then off - portBCopy else off) with
  | some f => names.any fun b => b.isPrefixOf f.name
  | none => false

/-- The blocks that J and Y reach (R480). -/
def jobBlocks : List String := ["CRN_", "SHP_", "SYN_", "TIER_", "UPD_", "RED_"]

/-- The counter banks of cores, crowns and update units, which stand behind fields of CRN_ and UPD_.
[DEDUCED: log entry 26] -/
def State.clearBanks (s : State) : State :=
  { s with cores := Sparse.mapVals {} (fun _ c => { c with counts := [] }) s.cores
           crowns := Sparse.mapVals {} (fun _ c => { c with counts := [] }) s.crowns
           upd := Sparse.mapVals {} (fun _ u => { u with counts := [], totals := [] }) s.upd }

/-- A core as a job reset leaves it: its engines and queues as at power-up, its accumulator files and its threads kept (R480, R486). -/
def CoreSt.afterJob (c : CoreSt) : CoreSt :=
  { gated := c.gated, arrF := { file := c.arrF.file }, arrB := { file := c.arrB.file }
    thrF := c.thrF, thrB := c.thrB, thrU := c.thrU }

/-- A job reset: recorded, then carried out; discarded while a power-on, warm or tower reset is in progress (R486).
[DEDUCED: log entry 26] -/
def State.jobReset (s : State) : State :=
  if s.resetting || [0, 1, 2, 3].any fun t => (s.tower t).cacheReset then s else
  let s := (s.record .jobReset (source 0 0 2) [pv4 4]).showCause .jobReset 4 4
  let s := s.incStop Reg.RST_CNT_JOB
  let s := (s.abandonSleep.emptyPages [2, 3]).clearBanks.clearHeads
  let s := { s with sync := [], crowns := [], cores := Sparse.mapVals {} (fun _ c => c.afterJob) s.cores }
  s.resetFields .J fun off _ => inBlocks jobBlocks off

/-! ### RST_CTL (R487) -/

/-- A write of RST_CTL for the reset of a start bit: one that sets no start bit is rejected, and one that sets only others is theirs
(R487). [DEDUCED: log entry 26] -/
def State.resetWrite (s : State) (acc : RegAccess) (f : Fld) (confirm ok : Bool) (act : State → State) : State :=
  let s := s.portTurn acc.port.val
  if !s.bar0Open 0x600000 then s
  else if s.accessBits acc f = 0 then (if s.resetBits acc = 0 then s.rejectWrite acc.port 0x600000 else s)
  else if s.holds acc.port && s.resetBits acc == 1 && (!confirm || s.accessBits acc Reg.RST_CTL_CONFIRM == 0x5E7A) && ok then act s
  else s.rejectWrite acc.port 0x600000

/-- WARM_RESET (R482, R487). [DEDUCED: log entry 26] -/
def execWarmReset (acc : RegAccess) (facts : BootFacts) (s : State) : Result :=
  .next (s.resetWrite acc Reg.RST_CTL_WARM true true fun s => s.warmReset 4 facts)

/-- TOWER_RESET (R483, R487). [DEDUCED: log entry 26] -/
def execTowerReset (acc : RegAccess) (s : State) : Result :=
  .next (s.resetWrite acc Reg.RST_CTL_TOWER true true fun s =>
    s.towerReset ([0, 1, 2, 3].filter fun t => bit (s.accessBits acc Reg.RST_CTL_TMASK) t) 4)

/-- JOB_RESET (R483, R487): only while no step and no urgent work run. [DEDUCED: log entry 26] -/
def execJobReset (acc : RegAccess) (s : State) : Result :=
  .next (s.resetWrite acc Reg.RST_CTL_JOB false (s.step.isNone && s.urgentRuns == []) State.jobReset)

/-! ### What else starts a reset -/

/-- SUPPLY_BELOW_RESET_LEVEL (R406, R499): rails in PWR_RAIL's order, 0 to 3 VCORE, 9 VAON. -/
def execSupplyBelowResetLevel (rail : Fin 10) (facts : BootFacts) (s : State) : Result :=
  let r := rail.val
  .next (if r = 9 then s.powerOnReset 1 facts
    else if s.poweringDown then s
    else if r < 4 then (s.incStop Reg.PWR_DIP_RESETS).towerReset [r] 1 [(.supplyReset, railSource r, [])]
    else s.warmReset 1 facts)

/-- PWRFAIL_N_DEASSERT (R477): after a power-fail sequence, with VAON kept. -/
def execPwrfailNDeassert (facts : BootFacts) (s : State) : Result :=
  .next (if s.recorder.closed then s.warmReset 5 facts else s)

/-- TRIAL_WATCHDOG (R457): a management controller trial has not passed. -/
def execTrialWatchdog (facts : BootFacts) (s : State) : Result :=
  .next (if (s.fwType 0).trial ∧ s.rd Reg.MGT_STATUS_PHASE ≠ 8 then s.warmReset 2 facts else s)

/-- FAILOVER (R414, R466): the wait that began with start number `start` has run 100 ms. The standby that has become active
leaves no standby behind it; MCTP requests in progress get no response. [DEDUCED: log entry 26] -/
def execFailover (start : Nat) (facts : BootFacts) (s : State) : Result :=
  .next (if start ≠ s.boot.standbyTimer then s
    else if s.rdB Reg.MGT_STATUS_STBY_OK then
      let s := ((s.setB Reg.MGT_STATUS_ACTIVE_MC).clrB Reg.MGT_STATUS_STBY_OK).incStop Reg.MGT_STATUS_FAILOVERS
      let s := s.modBoot fun b => { b with op := b.op.map (fun o => { o with from_ := none }), signing := [] }
      (s.driveDemand ⟨100, 1⟩).record .failover (source 2 0 2) []
    else s.warmReset 3 facts)

/-! ### Package standby (R484, R487) -/

/-- May package standby be entered: no image is shaped and no DMA runs (R484). A package in standby already stays in it.
[DEDUCED: log entry 26] -/
def State.standbyOk (s : State) : Bool :=
  s.standby || (s.rd Reg.SHP_STATUS_STATE == 0 &&
    [0, 1].all fun p => (List.range 8).all fun c => (Sparse.get none (s.host p).dma c).isNone)

/-- The package enters standby: every tower goes to sleep, and one that is just leaving sleep first serves what it leaves it for.
[DEDUCED: log entry 26] -/
def State.enterStandby (s : State) : State :=
  let s := { (s.resetFields .Y fun off _ => inBlocks jobBlocks off).clearBanks with sync := [], standby := true }
  let s := [0, 1, 2, 3].foldl (fun s t =>
    match (s.tower t).sleep with
    | .awake => s.beginSleep t
    | .leaving => (s.trained t).beginSleep t
    | _ => s) s
  s.record .lowPowerEntry (source 0 0 2) []

/-- PACKAGE_STANDBY_ENTRY (R484, R487): a write of RST_LP with STANDBY 1. [DEDUCED: log entry 26] -/
def execPackageStandbyEntry (acc : RegAccess) (s : State) : Result :=
  let s := s.portTurn acc.port.val
  .next (if !s.bar0Open 0x600008 || s.accessVal acc 0x600008 Reg.RST_LP_STANDBY == 0 then s
    else if !s.holds acc.port || !s.standbyOk then s.rejectWrite acc.port 0x600008
    else
      let s := (s.writeReg 0x600008 acc fun _ => true).restIdle
      if s.standby then s else s.enterStandby)

/-- PACKAGE_STANDBY_EXIT (R484, R487): a write of RST_LP with STANDBY 0, which needs the control token alone.
[DEDUCED: log entry 26] -/
def execPackageStandbyExit (acc : RegAccess) (s : State) : Result :=
  let s := s.portTurn acc.port.val
  .next (if !s.bar0Open 0x600008 || s.accessVal acc 0x600008 Reg.RST_LP_STANDBY != 0 then s
    else if !s.holds acc.port then s.rejectWrite acc.port 0x600008
    else (s.endStandby.writeReg 0x600008 acc fun _ => true).restIdle)

end Sys2Proof.Machine
end

