-- ==== Sys2Proof/Machine/Dispatch.lean ====
section
/-! DEFINITION. The meaning of each command, one arm per constructor. -/

namespace Sys2Proof.Machine

def exec (i : Instr) (s : State) : Host.Outcome State Fault Refusal :=
  match i with
  | .registerWrite port off size value => Sys2Proof.Machine.execRegisterWrite port off size value s
  | .readClear port tag off size => Sys2Proof.Machine.execReadClear port tag off size s
  | .singleHorizonLogicReset t h => Sys2Proof.Machine.execSingleHorizonLogicReset t h s
  | .horizonResetEnds t h => Sys2Proof.Machine.execHorizonResetEnds t h s
  | .cacheDieLeavesReset t => Sys2Proof.Machine.execCacheDieLeavesReset t s
  | .towerSleepEntry t => Sys2Proof.Machine.execTowerSleepEntry t s
  | .towerIdle t => Sys2Proof.Machine.execTowerIdle t s
  | .drainEnd t => Sys2Proof.Machine.execDrainEnd t s
  | .sleepEntryAbandoned t => Sys2Proof.Machine.execSleepEntryAbandoned t s
  | .towerSleepExit t => Sys2Proof.Machine.execTowerSleepExit t s
  | .laneTrainingComplete t => Sys2Proof.Machine.execLaneTrainingComplete t s
  | .throughDomainLost t p cuts => Sys2Proof.Machine.execThroughDomainLost t p cuts s
  | .throughDomainRestore t p ok => Sys2Proof.Machine.execThroughDomainRestore t p ok s
  | .siltRegisterRead t p dir frame => Sys2Proof.Machine.execSiltRegisterRead t p dir frame s
  | .siltRegisterWrite t p dir frame => Sys2Proof.Machine.execSiltRegisterWrite t p dir frame s
  | .siltReadResponse t p dir frame => Sys2Proof.Machine.execSiltReadResponse t p dir frame s
  | .siltBulkData t p dir frame => Sys2Proof.Machine.execSiltBulkData t p dir frame s
  | .siltLogRecord t p dir frame => Sys2Proof.Machine.execSiltLogRecord t p dir frame s
  | .siltAcknowledge t p dir frame => Sys2Proof.Machine.execSiltAcknowledge t p dir frame s
  | .siltAckTimeout t p dir => Sys2Proof.Machine.execSiltAckTimeout t p dir s
  | .bridgeFailure bridge => Sys2Proof.Machine.execBridgeFailure bridge s
  | .acmd core thread => Sys2Proof.Machine.execAcmd core thread s
  | .load core arr hits => Sys2Proof.Machine.execLoad core arr hits s
  | .shadowValid core arr => Sys2Proof.Machine.execShadowValid core arr s
  | .swap core arr => Sys2Proof.Machine.execSwap core arr s
  | .stream core arr => Sys2Proof.Machine.execStream core arr s
  | .transposeFill array hits => Sys2Proof.Machine.execTransposeFill array hits s
  | .workRow core arr hits fhits => Sys2Proof.Machine.execWorkRow core arr hits fhits s
  | .fillerRow array delayed => Sys2Proof.Machine.execFillerRow array delayed s
  | .upSlotRequest core arr => Sys2Proof.Machine.execUpSlotRequest core arr s
  | .downSlotRequest core arr => Sys2Proof.Machine.execDownSlotRequest core arr s
  | .slotBoundary n elapsed => Sys2Proof.Machine.execSlotBoundary n elapsed s
  | .rampStep array hold => Sys2Proof.Machine.execRampStep array hold s
  | .rampEnd core arr => Sys2Proof.Machine.execRampEnd core arr s
  | .arrayPreemption array rows fhits => Sys2Proof.Machine.execArrayPreemption array rows fhits s
  | .crnFullerCfgWrite n acc => Sys2Proof.Machine.execCrnFullerCfgWrite n acc s
  | .slotDescriptorWrite core arr sl acc => Sys2Proof.Machine.execSlotDescriptorWrite core arr sl acc s
  | .deferredDescriptorWrite core arr => Sys2Proof.Machine.execDeferredDescriptorWrite core arr s
  | .drain core arr hits => Sys2Proof.Machine.execDrain core arr hits s
  | .drainComplete core arr hits fhits => Sys2Proof.Machine.execDrainComplete core arr hits fhits s
  | .qparam core arr => Sys2Proof.Machine.execQparam core arr s
  | .accumulatorSave core arr fhits => Sys2Proof.Machine.execAccumulatorSave core arr fhits s
  | .saveComplete core arr => Sys2Proof.Machine.execSaveComplete core arr s
  | .accumulatorRestore core arr hits => Sys2Proof.Machine.execAccumulatorRestore core arr hits s
  | .vcmd core thread => Sys2Proof.Machine.execVcmd core thread s
  | .vop core hits buf => Sys2Proof.Machine.execVop core hits buf s
  | .vopEnd core => Sys2Proof.Machine.execVopEnd core s
  | .chainDescriptorWrite core d st acc => Sys2Proof.Machine.execChainDescriptorWrite core d st acc s
  | .cntSel bank acc => Sys2Proof.Machine.execCntSel bank acc s
  | .clrAll bank acc => Sys2Proof.Machine.execClrAll bank acc s
  | .clrSel bank acc => Sys2Proof.Machine.execClrSel bank acc s
  | .flexPost core w value => Sys2Proof.Machine.execFlexPost core w value s
  | .jobAssignment core => Sys2Proof.Machine.execJobAssignment core s
  | .ld core thread hits => Sys2Proof.Machine.execLd core thread hits s
  | .st core thread => Sys2Proof.Machine.execSt core thread s
  | .alu core thread => Sys2Proof.Machine.execAlu core thread s
  | .addi core thread => Sys2Proof.Machine.execAddi core thread s
  | .lix core thread => Sys2Proof.Machine.execLix core thread s
  | .br core thread => Sys2Proof.Machine.execBr core thread s
  | .jmp core thread => Sys2Proof.Machine.execJmp core thread s
  | .sadd core thread => Sys2Proof.Machine.execSadd core thread s
  | .sset core thread => Sys2Proof.Machine.execSset core thread s
  | .swait core thread => Sys2Proof.Machine.execSwait core thread s
  | .syncWaitSatisfied core thread => Sys2Proof.Machine.execSyncWaitSatisfied core thread s
  | .radd core thread => Sys2Proof.Machine.execRadd core thread s
  | .fence core thread => Sys2Proof.Machine.execFence core thread s
  | .endUnit core thread => Sys2Proof.Machine.execEndUnit core thread s
  | .reservedOpcode core thread => Sys2Proof.Machine.execReservedOpcode core thread s
  | .correctedWriteBack t => Sys2Proof.Machine.execCorrectedWriteBack t s
  | .stageInCommit copy => Sys2Proof.Machine.execStageInCommit copy s
  | .writeBackCommit copy => Sys2Proof.Machine.execWriteBackCommit copy s
  | .pageEngineStart t => Sys2Proof.Machine.execPageEngineStart t s
  | .frameZeroing t => Sys2Proof.Machine.execFrameZeroing t s
  | .dramRefresh t channel => Sys2Proof.Machine.execDramRefresh t channel s
  | .patrolScrub t deep error => Sys2Proof.Machine.execPatrolScrub t deep error s
  | .rowSparing copy => Sys2Proof.Machine.execRowSparing copy s
  | .laneHealthCheck t group lane bad => Sys2Proof.Machine.execLaneHealthCheck t group lane bad s
  | .laneTakeover t group => Sys2Proof.Machine.execLaneTakeover t group s
  | .tierCfgWrite t acc => Sys2Proof.Machine.execTierCfgWrite t acc s
  | .telemetrySnapshot => Sys2Proof.Machine.execTelemetrySnapshot s
  | .sensorCalibration failed => Sys2Proof.Machine.execSensorCalibration failed s
  | .chunkTaken lane hits => Sys2Proof.Machine.execChunkTaken lane hits s
  | .chunkCommit t entry chunk => Sys2Proof.Machine.execChunkCommit t entry chunk s
  | .measuringPrePass t hits => Sys2Proof.Machine.execMeasuringPrePass t hits s
  | .statisticsPrePass t hits => Sys2Proof.Machine.execStatisticsPrePass t hits s
  | .copyRegeneration entry hits => Sys2Proof.Machine.execCopyRegeneration entry hits s
  | .entryComplete entry => Sys2Proof.Machine.execEntryComplete entry s
  | .regen acc => Sys2Proof.Machine.execRegen acc s
  | .dataFrame link ok corrected frame => Sys2Proof.Machine.execDataFrame link ok corrected frame s
  | .noticeFrame link ok corrected frame => Sys2Proof.Machine.execNoticeFrame link ok corrected frame s
  | .fenceFrame link ok corrected frame => Sys2Proof.Machine.execFenceFrame link ok corrected frame s
  | .trainingFrame link block => Sys2Proof.Machine.execTrainingFrame link block s
  | .linkDown link reason => Sys2Proof.Machine.execLinkDown link reason s
  | .partnerDetected link => Sys2Proof.Machine.execPartnerDetected link s
  | .trainComplete link il => Sys2Proof.Machine.execTrainComplete link il s
  | .alignComplete link => Sys2Proof.Machine.execAlignComplete link s
  | .capabilityExchange link block flight => Sys2Proof.Machine.execCapabilityExchange link block flight s
  | .verify link => Sys2Proof.Machine.execVerify link s
  | .linkStateTimeout link ratio => Sys2Proof.Machine.execLinkStateTimeout link ratio s
  | .downIdleExpiry link => Sys2Proof.Machine.execDownIdleExpiry link s
  | .linkActivate link acc => Sys2Proof.Machine.execLinkActivate link acc s
  | .retrain link acc => Sys2Proof.Machine.execRetrain link acc s
  | .linkEn link acc => Sys2Proof.Machine.execLinkEn link acc s
  | .hbCoordWrite acc => Sys2Proof.Machine.execHbCoordWrite acc s
  | .hbPlaneWrite acc => Sys2Proof.Machine.execHbPlaneWrite acc s
  | .packetForward place bad => Sys2Proof.Machine.execPacketForward place bad s
  | .readRequest hits => Sys2Proof.Machine.execReadRequest hits s
  | .writeRequest => Sys2Proof.Machine.execWriteRequest s
  | .readData => Sys2Proof.Machine.execReadData s
  | .writeAcknowledgement => Sys2Proof.Machine.execWriteAcknowledgement s
  | .reqTimeout tag => Sys2Proof.Machine.execReqTimeout tag s
  | .failureNotice => Sys2Proof.Machine.execFailureNotice s
  | .declareNeighbourFailed dir => Sys2Proof.Machine.execDeclareNeighbourFailed dir s
  | .bucketRelease bucket hits => Sys2Proof.Machine.execBucketRelease bucket hits s
  | .contrib place fault bad => Sys2Proof.Machine.execContrib place fault bad s
  | .gprim place adds => Sys2Proof.Machine.execGprim place adds s
  | .gback input chan => Sys2Proof.Machine.execGback input chan s
  | .innerDl entry bad => Sys2Proof.Machine.execInnerDl entry bad s
  | .landingDeadline window adds => Sys2Proof.Machine.execLandingDeadline window adds s
  | .deliver => Sys2Proof.Machine.execDeliver s
  | .deliverEnd => Sys2Proof.Machine.execDeliverEnd s
  | .deliveryTimeout entry => Sys2Proof.Machine.execDeliveryTimeout entry s
  | .deliveryNak => Sys2Proof.Machine.execDeliveryNak s
  | .resend => Sys2Proof.Machine.execResend s
  | .digest => Sys2Proof.Machine.execDigest s
  | .mirror => Sys2Proof.Machine.execMirror s
  | .mirrorCommit => Sys2Proof.Machine.execMirrorCommit s
  | .mirrorAck => Sys2Proof.Machine.execMirrorAck s
  | .restore => Sys2Proof.Machine.execRestore s
  | .shape acc bad retrained => Sys2Proof.Machine.execShape acc bad retrained s
  | .unshape acc => Sys2Proof.Machine.execUnshape acc s
  | .abort acc => Sys2Proof.Machine.execAbort acc s
  | .shpImageWrite acc => Sys2Proof.Machine.execShpImageWrite acc s
  | .shpLenWrite acc => Sys2Proof.Machine.execShpLenWrite acc s
  | .stepStart => Sys2Proof.Machine.execStepStart s
  | .unitDispatch core thread => Sys2Proof.Machine.execUnitDispatch core thread s
  | .stepComplete => Sys2Proof.Machine.execStepComplete s
  | .stepWatchdog => Sys2Proof.Machine.execStepWatchdog s
  | .spareAppliesPart mirrored => Sys2Proof.Machine.execSpareAppliesPart mirrored s
  | .remoteAdd => Sys2Proof.Machine.execRemoteAdd s
  | .remoteAddAck => Sys2Proof.Machine.execRemoteAddAck s
  | .remoteAddTimeout op => Sys2Proof.Machine.execRemoteAddTimeout op s
  | .barrierArrival => Sys2Proof.Machine.execBarrierArrival s
  | .barrierReleasePacket => Sys2Proof.Machine.execBarrierReleasePacket s
  | .barDl group gen => Sys2Proof.Machine.execBarDl group gen s
  | .urgentCommand port slot data => Sys2Proof.Machine.execUrgentCommand port slot data s
  | .heldUrgentStart => Sys2Proof.Machine.execHeldUrgentStart s
  | .synOpAdd acc => Sys2Proof.Machine.execSynOpAdd acc s
  | .synOpSet acc => Sys2Proof.Machine.execSynOpSet acc s
  | .allocatorTick => Sys2Proof.Machine.execAllocatorTick s
  | .voltageReached n => Sys2Proof.Machine.execVoltageReached n s
  | .clockSlewComplete n => Sys2Proof.Machine.execClockSlewComplete n s
  | .avsbusFault n => Sys2Proof.Machine.execAvsbusFault n s
  | .powerEstimate activity => Sys2Proof.Machine.execPowerEstimate activity s
  | .currentSenseSample n amps => Sys2Proof.Machine.execCurrentSenseSample n amps s
  | .calibration d => Sys2Proof.Machine.execCalibration d s
  | .railReading rail reading => Sys2Proof.Machine.execRailReading rail reading s
  | .forceFb acc => Sys2Proof.Machine.execForceFb acc s
  | .pcapCap acc => Sys2Proof.Machine.execPcapCap acc s
  | .capUnmetHoldEnd => Sys2Proof.Machine.execCapUnmetHoldEnd s
  | .lstepNDeassert => Sys2Proof.Machine.execLstepNDeassert s
  | .droopWarning rail => Sys2Proof.Machine.execDroopWarning rail s
  | .stretchEnd rail => Sys2Proof.Machine.execStretchEnd rail s
  | .dipStepdown rail => Sys2Proof.Machine.execDipStepdown rail s
  | .supplyBelowResetLevel rail facts => Sys2Proof.Machine.execSupplyBelowResetLevel rail facts s
  | .sensorSample t readings => Sys2Proof.Machine.execSensorSample t readings s
  | .sensorModelDisagreement t p => Sys2Proof.Machine.execSensorModelDisagreement t p s
  | .throttleStep t => Sys2Proof.Machine.execThrottleStep t s
  | .thermalTrip t p => Sys2Proof.Machine.execThermalTrip t p s
  | .coolantControlStep inlet outlet pulses => Sys2Proof.Machine.execCoolantControlStep inlet outlet pulses s
  | .coolantAlarm kind => Sys2Proof.Machine.execCoolantAlarm kind s
  | .coolantAlarmClear kind => Sys2Proof.Machine.execCoolantAlarmClear kind s
  | .thmCoolCfgWrite model acc => Sys2Proof.Machine.execThmCoolCfgWrite model acc s
  | .portReset port kind => Sys2Proof.Machine.execPortReset port kind s
  | .functionLevelReset port => Sys2Proof.Machine.execFunctionLevelReset port s
  | .powerStateChange port d3 => Sys2Proof.Machine.execPowerStateChange port d3 s
  | .bar2Read port tag off len hits => Sys2Proof.Machine.execBar2Read port tag off len hits s
  | .bar2Write port off data => Sys2Proof.Machine.execBar2Write port off data s
  | .hostHoldTimeout k => Sys2Proof.Machine.execHostHoldTimeout k s
  | .sqTailDoorbell port q size value => Sys2Proof.Machine.execSqTailDoorbell port q size value s
  | .cqHeadDoorbell port q size value => Sys2Proof.Machine.execCqHeadDoorbell port q size value s
  | .eqHeadDoorbell port e size value => Sys2Proof.Machine.execEqHeadDoorbell port e size value s
  | .commandFetch port q cmd newRound contended => Sys2Proof.Machine.execCommandFetch port q cmd newRound contended s
  | .dmaStart port ch data hits => Sys2Proof.Machine.execDmaStart port ch data hits s
  | .dmaComplete port ch => Sys2Proof.Machine.execDmaComplete port ch s
  | .interruptDelay port q => Sys2Proof.Machine.execInterruptDelay port q s
  | .hqQCfgWrite q acc => Sys2Proof.Machine.execHqQCfgWrite q acc s
  | .hqEqCfgWrite e acc => Sys2Proof.Machine.execHqEqCfgWrite e acc s
  | .claim acc => Sys2Proof.Machine.execClaim acc s
  | .release acc => Sys2Proof.Machine.execRelease acc s
  | .give acc => Sys2Proof.Machine.execGive acc s
  | .beat acc => Sys2Proof.Machine.execBeat acc s
  | .tokenTimeout start => Sys2Proof.Machine.execTokenTimeout start s
  | .powerOnReset facts => Sys2Proof.Machine.execPowerOnReset facts s
  | .standbyStart => Sys2Proof.Machine.execStandbyStart s
  | .stage acc writeOk => Sys2Proof.Machine.execStage acc writeOk s
  | .firmwareActivate acc => Sys2Proof.Machine.execFirmwareActivate acc s
  | .cancel acc => Sys2Proof.Machine.execCancel acc s
  | .commit acc => Sys2Proof.Machine.execCommit acc s
  | .updateOperationDone => Sys2Proof.Machine.execUpdateOperationDone s
  | .trialWatchdog facts => Sys2Proof.Machine.execTrialWatchdog facts s
  | .setEndpointId path eid => Sys2Proof.Machine.execSetEndpointId path eid s
  | .getEndpointId path => Sys2Proof.Machine.execGetEndpointId path s
  | .getMctpVersionSupport path => Sys2Proof.Machine.execGetMctpVersionSupport path s
  | .getMessageTypeSupport path => Sys2Proof.Machine.execGetMessageTypeSupport path s
  | .getIdentity path inst => Sys2Proof.Machine.execGetIdentity path inst s
  | .getMeasurements path inst data served => Sys2Proof.Machine.execGetMeasurements path inst data served s
  | .getFwStatus path inst => Sys2Proof.Machine.execGetFwStatus path inst s
  | .readReg path inst off => Sys2Proof.Machine.execReadReg path inst off s
  | .updBegin path inst type len => Sys2Proof.Machine.execUpdBegin path inst type len s
  | .updData path inst off data => Sys2Proof.Machine.execUpdData path inst off data s
  | .updEnd path inst writeOk => Sys2Proof.Machine.execUpdEnd path inst writeOk s
  | .updActivate path inst type => Sys2Proof.Machine.execUpdActivate path inst type s
  | .updCommit path inst confirm => Sys2Proof.Machine.execUpdCommit path inst confirm s
  | .updateSessionTimeout => Sys2Proof.Machine.execUpdateSessionTimeout s
  | .debugChallenge path inst => Sys2Proof.Machine.execDebugChallenge path inst s
  | .debugUnlock path inst token => Sys2Proof.Machine.execDebugUnlock path inst token s
  | .standbySignal => Sys2Proof.Machine.execStandbySignal s
  | .failover start facts => Sys2Proof.Machine.execFailover start facts s
  | .secondBoundary => Sys2Proof.Machine.execSecondBoundary s
  | .tokenArrival code => Sys2Proof.Machine.execTokenArrival code s
  | .headerWrite fraction => Sys2Proof.Machine.execHeaderWrite fraction s
  | .reserveRaise => Sys2Proof.Machine.execReserveRaise s
  | .flushWrite okA okB fraction => Sys2Proof.Machine.execFlushWrite okA okB fraction s
  | .powerFail fraction => Sys2Proof.Machine.execPowerFail fraction s
  | .pwrfailNDeassert facts => Sys2Proof.Machine.execPwrfailNDeassert facts s
  | .windowRead port tag part => Sys2Proof.Machine.execWindowRead port tag part s
  | .clear acc => Sys2Proof.Machine.execClear acc s
  | .warmReset acc facts => Sys2Proof.Machine.execWarmReset acc facts s
  | .towerReset acc => Sys2Proof.Machine.execTowerReset acc s
  | .jobReset acc => Sys2Proof.Machine.execJobReset acc s
  | .packageStandbyEntry acc => Sys2Proof.Machine.execPackageStandbyEntry acc s
  | .packageStandbyExit acc => Sys2Proof.Machine.execPackageStandbyExit acc s
  | .serdesReferenceLoss brim => Sys2Proof.Machine.execSerdesReferenceLoss brim s
  | .pcieReferenceLoss port => Sys2Proof.Machine.execPcieReferenceLoss port s
  | .alwaysOnClockLoss brim => Sys2Proof.Machine.execAlwaysOnClockLoss brim s
  | .clockReturn clock => Sys2Proof.Machine.execClockReturn clock s
  | .reservedTypeFrame t p dir frame => Sys2Proof.Machine.execReservedTypeFrame t p dir frame s
  | .pcieLinkUp port rate full => Sys2Proof.Machine.execPcieLinkUp port rate full s
  | .configurationRequest port tag req => Sys2Proof.Machine.execConfigurationRequest port tag req s
  | .jtagPortAccess op => Sys2Proof.Machine.execJtagPortAccess op s

end Sys2Proof.Machine
end

