-- ==== Sys2Proof/Machine/Step.lean ====
section
/-! DEFINITION. One step of the block: it takes the command at the front of its queue. -/

namespace Sys2Proof.Machine

/-- Take the command at the front of the queue and carry it out on the state with the rest of the queue. On an empty queue
the block idles: the manual's clocked effects are commands of the table, and what has none is `State.idle` (DESIGN CHOICE).
[DESIGN CHOICE: log entries 1 and 29 and 33] -/
def step (s : State) : Host.Outcome State Fault Refusal :=
  match s.pending with
  | [] => .next s.idle
  | c :: rest => exec c { s with pending := rest }

/-- Put the command a table word spells at the front of the queue; the table gives no row any bits, so the state stays.
[DESIGN CHOICE: log entry 29] -/
def State.withFetchWord (s : State) (nbits w : Nat) : State :=
  match decodeTableWord nbits w with
  | none => s
  | some c => { s with pending := c :: s.pending }

end Sys2Proof.Machine
end

