-- ==== Sys2Proof/WellFormed.lean ====
section
/-! DEFINITION. Which operands a command can have: the ranges of the bus, the window and the frame that bring it. A meaning is
total: it says what happens for every operand all the same. -/

namespace Sys2Proof

/-- BAR0 is 64 MiB (R421). -/
def bar0Size : Nat := 2 ^ 26

/-- The value of an access fits the part of the register that it covers (R11). -/
def RegAccess.wf (a : RegAccess) : Bool :=
  match a.part with
  | .whole => decide (a.value < 2 ^ 64)
  | _ => decide (a.value < 2 ^ 32)

/-- Outcomes of the storage decode name words of the address space (R225, R236). -/
def wfHits (hs : List EccHit) : Bool := hs.all fun h => decide (h.addr < 2 ^ 48)

/-- A register of configuration space is a 32-bit word of its 4 KiB, and a value fits what it is written to (R418, R421, R426). -/
def CfgReq.wf : CfgReq → Bool
  | .read reg => decide (reg < 4096) && reg % 4 == 0
  | .bar _ addr => decide (addr < 2 ^ 64)
  | .tableWrite _ _ value => decide (value < 2 ^ 32)
  | .readCap _ _ | .memEnable _ | .bar2Size _ | .transfers _ _ | .msixControl _ _ | .tableRead _ _ | .pbaRead _ => true

/-- The check of a command's operands. -/
def Instr.wf : Instr → Bool
  | .registerWrite _ off size value => decide (off < bar0Size) && decide (value < 256 ^ size)
  | .readClear _ _ off _ => decide (off < bar0Size)
  | .singleHorizonLogicReset _ _ => true
  | .horizonResetEnds _ _ => true
  | .cacheDieLeavesReset _ => true
  | .towerSleepEntry _ => true
  | .towerIdle _ => true
  | .drainEnd _ => true
  | .sleepEntryAbandoned _ => true
  | .towerSleepExit _ => true
  | .laneTrainingComplete _ => true
  | .throughDomainLost _ _ cuts => cuts.all fun c => decide (c.addr < 2 ^ 48)
  | .throughDomainRestore _ _ _ => true
  | .siltRegisterRead _ _ _ frame => frame.length == 72
  | .siltRegisterWrite _ _ _ frame => frame.length == 72
  | .siltReadResponse _ _ _ frame => frame.length == 72
  | .siltBulkData _ _ _ frame => frame.length == 72
  | .siltLogRecord _ _ _ frame => frame.length == 72
  | .siltAcknowledge _ _ _ frame => frame.length == 72
  | .siltAckTimeout _ _ _ => true
  | .bridgeFailure _ => true
  | .acmd _ _ => true
  | .load _ _ hits => wfHits hits
  | .shadowValid _ _ => true
  | .swap _ _ => true
  | .stream _ _ => true
  | .transposeFill _ hits => wfHits hits
  | .workRow _ _ hits fhits => wfHits hits && wfHits fhits
  | .fillerRow _ _ => true
  | .upSlotRequest _ _ => true
  | .downSlotRequest _ _ => true
  | .slotBoundary _ _ => true
  | .rampStep _ _ => true
  | .rampEnd _ _ => true
  | .arrayPreemption _ _ fhits => wfHits fhits
  | .crnFullerCfgWrite _ acc => acc.wf
  | .slotDescriptorWrite _ _ _ acc => acc.wf
  | .deferredDescriptorWrite _ _ => true
  | .drain _ _ hits => wfHits hits
  | .drainComplete _ _ hits fhits => wfHits hits && wfHits fhits
  | .qparam _ _ => true
  | .accumulatorSave _ _ fhits => wfHits fhits
  | .saveComplete _ _ => true
  | .accumulatorRestore _ _ hits => wfHits hits
  | .vcmd _ _ => true
  | .vop _ hits _ => wfHits hits
  | .vopEnd _ => true
  | .chainDescriptorWrite _ _ _ acc => acc.wf
  | .cntSel _ acc => acc.wf
  | .clrAll _ acc => acc.wf
  | .clrSel _ acc => acc.wf
  | .flexPost _ _ value => decide (value < 2 ^ 64)
  | .jobAssignment _ => true
  | .ld _ _ hits => wfHits hits
  | .st _ _ => true
  | .alu _ _ => true
  | .addi _ _ => true
  | .lix _ _ => true
  | .br _ _ => true
  | .jmp _ _ => true
  | .sadd _ _ => true
  | .sset _ _ => true
  | .swait _ _ => true
  | .syncWaitSatisfied _ _ => true
  | .radd _ _ => true
  | .fence _ _ => true
  | .endUnit _ _ => true
  | .reservedOpcode _ _ => true
  | .correctedWriteBack _ => true
  | .stageInCommit copy => decide (copy.page < 2 ^ 24) && wfHits copy.hits
  | .writeBackCommit copy => decide (copy.page < 2 ^ 24) && wfHits copy.hits
  | .pageEngineStart _ => true
  | .frameZeroing _ => true
  | .dramRefresh _ _ => true
  | .patrolScrub _ _ _ => true
  | .rowSparing copy => copy.errors.all fun e => decide (e.1 < 128)
  | .laneHealthCheck _ _ _ _ => true
  | .laneTakeover _ _ => true
  | .tierCfgWrite _ acc => acc.wf
  | .telemetrySnapshot => true
  | .sensorCalibration _ => true
  | .chunkTaken _ hits => wfHits hits
  | .chunkCommit _ _ _ => true
  | .measuringPrePass _ hits => wfHits hits
  | .statisticsPrePass _ hits => wfHits hits
  | .copyRegeneration _ hits => wfHits hits
  | .entryComplete _ => true
  | .regen acc => acc.wf
  | .dataFrame _ _ _ frame => frame.length == 2570
  | .noticeFrame _ _ _ frame => frame.length == 2570
  | .fenceFrame _ _ _ frame => frame.length == 2570
  | .trainingFrame _ _ => true
  | .linkDown _ _ => true
  | .partnerDetected _ => true
  | .trainComplete _ _ => true
  | .alignComplete _ => true
  | .capabilityExchange _ _ _ => true
  | .verify _ => true
  | .linkStateTimeout _ _ => true
  | .downIdleExpiry _ => true
  | .linkActivate _ acc => acc.wf
  | .retrain _ acc => acc.wf
  | .linkEn _ acc => acc.wf
  | .hbCoordWrite acc => acc.wf
  | .hbPlaneWrite acc => acc.wf
  | .packetForward _ _ => true
  | .readRequest hits => wfHits hits
  | .writeRequest => true
  | .readData => true
  | .writeAcknowledgement => true
  | .reqTimeout _ => true
  | .failureNotice => true
  | .declareNeighbourFailed _ => true
  | .bucketRelease _ hits => wfHits hits
  | .contrib _ _ _ => true
  | .gprim _ _ => true
  | .gback _ _ => true
  | .innerDl _ _ => true
  | .landingDeadline _ _ => true
  | .deliver => true
  | .deliverEnd => true
  | .deliveryTimeout _ => true
  | .deliveryNak => true
  | .resend => true
  | .digest => true
  | .mirror => true
  | .mirrorCommit => true
  | .mirrorAck => true
  | .restore => true
  | .shape acc _ _ => acc.wf
  | .unshape acc => acc.wf
  | .abort acc => acc.wf
  | .shpImageWrite acc => acc.wf
  | .shpLenWrite acc => acc.wf
  | .stepStart => true
  | .unitDispatch _ _ => true
  | .stepComplete => true
  | .stepWatchdog => true
  | .spareAppliesPart _ => true
  | .remoteAdd => true
  | .remoteAddAck => true
  | .remoteAddTimeout _ => true
  | .barrierArrival => true
  | .barrierReleasePacket => true
  | .barDl _ _ => true
  | .urgentCommand _ _ data => decide (data.length ≤ 64)
  | .heldUrgentStart => true
  | .synOpAdd acc => acc.wf
  | .synOpSet acc => acc.wf
  | .allocatorTick => true
  | .voltageReached _ => true
  | .clockSlewComplete _ => true
  | .avsbusFault _ => true
  | .powerEstimate _ => true
  | .currentSenseSample _ _ => true
  | .calibration _ => true
  | .railReading _ _ => true
  | .forceFb acc => acc.wf
  | .pcapCap acc => acc.wf
  | .capUnmetHoldEnd => true
  | .lstepNDeassert => true
  | .droopWarning _ => true
  | .stretchEnd _ => true
  | .dipStepdown _ => true
  | .supplyBelowResetLevel _ facts => facts.rails.length == 10
  | .sensorSample _ readings => decide (readings.length ≤ 8)
  | .sensorModelDisagreement _ _ => true
  | .throttleStep _ => true
  | .thermalTrip _ _ => true
  | .coolantControlStep _ _ _ => true
  | .coolantAlarm _ => true
  | .coolantAlarmClear _ => true
  | .thmCoolCfgWrite _ acc => acc.wf
  | .portReset _ _ => true
  | .functionLevelReset _ => true
  | .powerStateChange _ _ => true
  | .bar2Read _ _ _ len hits => decide (1 ≤ len) && wfHits hits
  | .bar2Write _ _ data => data != []
  | .hostHoldTimeout _ => true
  | .sqTailDoorbell _ _ size value => decide (value < 256 ^ size)
  | .cqHeadDoorbell _ _ size value => decide (value < 256 ^ size)
  | .eqHeadDoorbell _ _ size value => decide (value < 256 ^ size)
  | .commandFetch _ _ cmd _ _ => cmd.length == 64
  | .dmaStart _ _ _ hits => wfHits hits
  | .dmaComplete _ _ => true
  | .interruptDelay _ _ => true
  | .hqQCfgWrite _ acc => acc.wf
  | .hqEqCfgWrite _ acc => acc.wf
  | .claim acc => acc.wf
  | .release acc => acc.wf
  | .give acc => acc.wf
  | .beat acc => acc.wf
  | .tokenTimeout _ => true
  | .powerOnReset facts => facts.rails.length == 10
  | .standbyStart => true
  | .stage acc _ => acc.wf
  | .firmwareActivate acc => acc.wf
  | .cancel acc => acc.wf
  | .commit acc => acc.wf
  | .updateOperationDone => true
  | .trialWatchdog facts => facts.rails.length == 10
  | .setEndpointId _ _ => true
  | .getEndpointId _ => true
  | .getMctpVersionSupport _ => true
  | .getMessageTypeSupport _ => true
  | .getIdentity _ _ => true
  | .getMeasurements _ _ _ _ => true
  | .getFwStatus _ _ => true
  | .readReg _ _ off => decide (off < 2 ^ 32)
  | .updBegin _ _ _ len => decide (len < 2 ^ 32)
  | .updData _ _ off _ => decide (off < 2 ^ 32)
  | .updEnd _ _ _ => true
  | .updActivate _ _ _ => true
  | .updCommit _ _ confirm => decide (confirm < 2 ^ 16)
  | .updateSessionTimeout => true
  | .debugChallenge _ _ => true
  | .debugUnlock _ _ _ => true
  | .standbySignal => true
  | .failover _ facts => facts.rails.length == 10
  | .secondBoundary => true
  | .tokenArrival _ => true
  | .headerWrite _ => true
  | .reserveRaise => true
  | .flushWrite _ _ _ => true
  | .powerFail _ => true
  | .pwrfailNDeassert facts => facts.rails.length == 10
  | .windowRead _ _ _ => true
  | .clear acc => acc.wf
  | .warmReset acc facts => acc.wf && facts.rails.length == 10
  | .towerReset acc => acc.wf
  | .jobReset acc => acc.wf
  | .packageStandbyEntry acc => acc.wf
  | .packageStandbyExit acc => acc.wf
  | .serdesReferenceLoss _ => true
  | .pcieReferenceLoss _ => true
  | .alwaysOnClockLoss _ => true
  | .clockReturn _ => true
  | .reservedTypeFrame _ _ _ frame => frame.length == 72
  | .pcieLinkUp _ _ _ => true
  | .configurationRequest _ _ req => req.wf
  | .jtagPortAccess _ => true

end Sys2Proof
end

