-- ==== Sys2Proof/Safety.lean ====
section
/-! DEFINITION. The terms that claims use: what a command leaves unchanged, what an event leaves behind, and what a safe
run is. -/

namespace Sys2Proof.Machine

/-! ### Safe runs -/

/-- A step goes on: it neither faults nor is refused. -/
def Goes (o : Result) : Prop := ∃ t, o = .next t

/-- A command completes, in a state of which something holds. -/
def Completes (i : Instr) (s : State) (P : State → Prop) : Prop := ∃ t, exec i s = .next t ∧ P t

/-- The memory and the poison map have their canonical forms. -/
def State.stored (s : State) : Prop := Memory.wf s.mem = true ∧ Sparse.wf false s.poison = true

/-- The same of the memory and the poison map, and the register file lists each field once, in order. -/
def State.canonical (s : State) : Prop := s.stored ∧ s.flds.Pairwise fun a b => a.1 < b.1

/-! ### Frames -/

/-- Every byte of device memory reads as before. -/
def SameBytes (s t : State) : Prop := ∀ a, t.readByte a = s.readByte a

/-- Every byte of device memory but those of a range reads as before. -/
def SameBytesBut (s t : State) (a n : Nat) : Prop := ∀ b, ¬(a ≤ b ∧ b < a + n) → t.readByte b = s.readByte b

/-- Every register field reads as before, but for some. -/
def SameFields (s t : State) (but : List Fld) : Prop := ∀ f : Fld, (∀ g ∈ but, f.key ≠ g.key) → t.rd f = s.rd f

/-- Nothing has changed but, at most, some register fields. -/
def OnlyFields (s t : State) (but : List Fld) : Prop := t = { s with flds := t.flds } ∧ SameFields s t but

/-- The register fields that recording an event may change. -/
def logFields : List Fld :=
  [Reg.EVR_STATUS_NEXT_SEQ, Reg.EVR_STATUS_FLUSHING, Reg.EVR_CNT_SUPPRESSED, Reg.HQ_ERR_EQ_OVF 0, Reg.HQ_ERR_EQ_OVF 1]

/-- Nothing has changed but, at most, some register fields and what recording events changes: the recorder, the event queues
of the ports, and what goes out to hosts. -/
def OnlyLogged (s t : State) (but : List Fld) : Prop :=
  t = { s with flds := t.flds, recorder := t.recorder, hosts := t.hosts, outbox := t.outbox, heldOut := t.heldOut } ∧
    SameFields s t (logFields ++ but) ∧
    (∀ p, { t.host p with
      events := (s.host p).events
      msixPending := (s.host p).msixPending } = s.host p) ∧
    t.recorder.areaA = s.recorder.areaA ∧ t.recorder.areaB = s.recorder.areaB

/-! ### Events -/

/-- Would the recorder take an event at once (R471, R474, R475)? -/
def State.admits (s : State) (e : Event) : Bool :=
  !s.recorder.closed && s.recorder.waiting == [] && decide (s.rd Reg.EVR_STATUS_NEXT_SEQ < s.reserve) &&
    decide (s.rd Reg.EVR_STATUS_NEXT_SEQ + 1 < 2 ^ 48) &&
    (exemptEvent e.code e.sev || decide (0 < Sparse.get 64 s.recorder.buckets e.code))

/-- The record an event would have (R468, R469). -/
def State.recordOf (s : State) (e : Event) (src : Nat) (vals : List PayVal) : Record :=
  { seq := s.rd Reg.EVR_STATUS_NEXT_SEQ, powered := s.rd Reg.EVR_LIFE_POWERED, sev := e.sev,
    cycles := s.rd Reg.EVR_LIFE_CYCLES, source := src, code := e.code, payload := payload vals }

/-- `t` has the record of an event of `s`, where `s` admits it at once. -/
def Logs (s t : State) (e : Event) (src : Nat) (vals : List PayVal) : Prop :=
  s.admits e = true →
    Sparse.get none t.recorder.ring (s.rd Reg.EVR_STATUS_NEXT_SEQ % 65536) = some (s.recordOf e src vals) ∧
      t.rd Reg.EVR_STATUS_NEXT_SEQ = s.rd Reg.EVR_STATUS_NEXT_SEQ + 1

/-- The event of a command is the one change beside some register fields. -/
def Records (s t : State) (e : Event) (src : Nat) (vals : List PayVal) (but : List Fld) : Prop :=
  OnlyLogged s t but ∧ Logs s t e src vals

/-- A write that the device does not carry out: one rejected-write event and nothing else (R469). -/
def Rejected (s t : State) (p : Port) (off : Nat) : Prop :=
  Records s t .rejectedWrite (portSource p.val) [pv4 off, pv1 p.val] []

/-! ### Accesses of a port -/

/-- Is nothing in the way of an access of a port to a register: is no earlier posted write of the port held (R424), does BAR0 serve the
register (R482), and is its die reached, with no reset and no sleep that holds the access back (R30, R425)? -/
def State.reaches (s : State) (p : Port) (off : Nat) : Bool :=
  (s.postedHolder p.val).isNone && s.bar0Open off && !s.regPathLost (.port p) off && (s.regHolder (.port p) off).isNone

/-- A register write waits for the die that holds it back (R425). -/
def HeldWrite (s : State) (h : Holder) (acc : RegAccess) (own : Bool) (off : Nat) : State :=
  s.holdReq ⟨h, .port acc.port, .hostReg own acc, 0x6000000000 + off, 0, []⟩

end Sys2Proof.Machine

namespace Sys2Proof

/-- The port that a command is an access of, if it is one (R424). -/
def Instr.accessPort : Instr → Option Port
  | .registerWrite p _ _ _ | .readClear p _ _ _ | .windowRead p _ _ | .bar2Read p _ _ _ _ | .bar2Write p _ _
  | .sqTailDoorbell p _ _ _ | .cqHeadDoorbell p _ _ _ | .eqHeadDoorbell p _ _ _ | .urgentCommand p _ _
  | .commandFetch p _ _ _ _ => some p
  | .flexPost _ (.host p) _ => some p
  | .crnFullerCfgWrite _ a | .slotDescriptorWrite _ _ _ a | .chainDescriptorWrite _ _ _ a | .cntSel _ a | .clrAll _ a | .clrSel _ a
  | .tierCfgWrite _ a | .regen a | .linkActivate _ a | .retrain _ a | .linkEn _ a | .hbCoordWrite a | .hbPlaneWrite a
  | .shape a _ _ | .unshape a | .abort a | .shpImageWrite a | .shpLenWrite a | .synOpAdd a | .synOpSet a | .forceFb a | .pcapCap a
  | .thmCoolCfgWrite _ a | .hqQCfgWrite _ a | .hqEqCfgWrite _ a | .claim a | .release a | .give a | .beat a | .stage a _
  | .firmwareActivate a | .cancel a | .commit a | .clear a | .warmReset a _ | .towerReset a | .jobReset a
  | .packageStandbyEntry a | .packageStandbyExit a => some a.port
  | _ => none

end Sys2Proof

namespace Sys2Proof.Machine

/-! ### What resets leave (R480 to R483) -/

/-- Nothing shaped, running, queued or held, and nothing stored. -/
def Emptied (t : State) : Prop :=
  t.mem = [] ∧ t.poison = [] ∧ t.upsets = [] ∧ t.pages = [] ∧ t.sync = [] ∧ t.units = [] ∧ t.step = none ∧ t.stepQueue = [] ∧
    t.urgentRuns = [] ∧ t.urgentHeld = [] ∧ t.held = [] ∧ t.cores = [] ∧ t.upd = [] ∧ t.entries = [] ∧
    t.fabric = { takenOver := t.fabric.takenOver, overflowed := t.fabric.overflowed, overSpared := t.fabric.overSpared } ∧
    t.rd Reg.SHP_STATUS_STATE = 0

/-- A warm reset with its cause. The token keeps its holder; the cap keeps its request. -/
def AfterWarmReset (s t : State) (cause : Nat) : Prop :=
  Emptied t ∧ t.pending = s.pending ∧ t.rd Reg.RST_CAUSE_KIND = 2 ∧ t.rd Reg.RST_CAUSE_CAUSE = cause ∧
    t.rd Reg.RST_CNT_WARM = satAdd 16 (s.rd Reg.RST_CNT_WARM) 1 ∧
    t.rd Reg.MGT_TOKEN_HOLDER = s.rd Reg.MGT_TOKEN_HOLDER ∧ t.rd Reg.PCAP_CAP_REQ = s.rd Reg.PCAP_CAP_REQ

/-- No request waits for a tower that is on its way to sleep. -/
def State.noneEntering (s : State) : Prop := ∀ n < 4, (s.tower n).sleep = .entering → s.sleepHeld n = false

/-- No entry or exit of a low-power state goes on, but an exit that a waiting request asks for (R486). -/
def State.sleepSettled (s : State) : Prop :=
  ∀ n < 4, (s.tower n).sleep = .awake ∨ (s.tower n).sleep = .asleep ∨ ((s.tower n).sleep = .leaving ∧ s.sleepHeld n = true)

/-- A tower reset of some towers: the step has ended, the image is unshaped, the near tiers and the local SRAM of the towers
are lost, the fields that T reaches return to their Reset values, an entry or exit of a low-power state is abandoned, and the deep tier is as it was, but for writes that waited for a tower on
its way to sleep. -/
def AfterTowerReset (s t : State) (ts : List Nat) (cause : Nat) : Prop :=
  t.step = none ∧ t.units = [] ∧ t.urgentRuns = [] ∧ t.urgentHeld = [] ∧ t.sync = [] ∧ t.rd Reg.SHP_STATUS_STATE = 0 ∧
    t.rd Reg.RST_CAUSE_KIND = 3 ∧ t.rd Reg.RST_CAUSE_CAUSE = cause ∧ t.rd Reg.RST_CAUSE_TOWERS = (ts.map (2 ^ ·)).sum % 16 ∧
    t.rd Reg.RST_CNT_TOWER = satAdd 16 (s.rd Reg.RST_CNT_TOWER) 1 ∧ t.pending = s.pending ∧
    (∀ n ∈ ts, (t.tower n).cacheReset = true ∧ (∀ k < 0x30000000, t.byteAt (nearKey n k) = 0) ∧
      ∀ c < 144, ∀ k < 0x100000, t.byteAt (sramKey (144 * n + c) k) = 0) ∧
    (∀ (f : Fld) (r : FieldRow), f.lo < 64 → rowAt f.key = some r → r.kept.keeps .T = false →
      (shapedField f.off r = true ∨ ∃ n ∈ ts, inTower n f.off = true) → t.rd f = f.reset) ∧
    t.sleepSettled ∧ (s.noneEntering → ∀ k < 0x4000000000, t.byteAt k = s.byteAt k)

/-- A power-on reset with its cause: MRAM and fuses are kept, and the package has come up from them. Where neither copy of the
boot state record passes its CRC, bank A of every type is active and nothing is pending or in trial (R442). The power-on record is in
the ring, with the sequence number that RST_CAUSE shows, unless it waits for a header write (R474, R486). -/
def AfterPowerOn (s t : State) (facts : BootFacts) (cause : Nat) : Prop :=
  Emptied t ∧ t.fabric = {} ∧ t.pending = s.pending ∧ t.rd Reg.MGT_TOKEN_HOLDER = 0 ∧ t.rd Reg.RST_CAUSE_KIND = 1 ∧
    t.rd Reg.RST_CAUSE_CAUSE = cause ∧
    t.rd Reg.EVR_LIFE_CYCLES = (max s.recorder.areaA.cycles s.recorder.areaB.cycles + 1) % 2 ^ 24 ∧
    t.boot.banks = s.boot.banks ∧ t.boot.floors = s.boot.floors ∧ t.boot.revoked = s.boot.revoked ∧
    (facts.hangs = none → t.rd Reg.MGT_STATUS_MODE ≠ 0) ∧
    (t.recorder.waiting = [] → ∃ r, Sparse.get none t.recorder.ring (t.rd Reg.RST_CAUSE_SEQ % 65536) = some r ∧
      r.seq = t.rd Reg.RST_CAUSE_SEQ ∧ r.code = Event.powerOn.code ∧ r.source = source 0 0 2) ∧
    (facts.record = .neither → ∀ k < 3,
      (t.fwType k).active = 0 ∧ (t.fwType k).pending = false ∧ (t.fwType k).trial = false)

/-- The fields that a reset kind or low-power state reaches return to their Reset values, unless their Kept across column names
it; every field it does not reach is unchanged (R10, R480). -/
def ResetsFields (s t : State) (k : ResetKind) (reach : Nat → Bool) (but : List Fld) : Prop :=
  ∀ (f : Fld) (r : FieldRow), f.lo < 64 → rowAt f.key = some r → (∀ g ∈ but, f.key ≠ g.key) →
    (reach f.off = true → r.kept.keeps k = false → t.rd f = f.reset) ∧
      (reach f.off = false ∨ r.kept.keeps k = true → t.rd f = s.rd f)

/-! ### Requests that wait (R22, R23, R425) -/

/-- The one request that waits is a host read of bytes that only one holder keeps from being served. -/
def Waits (s : State) (h : Holder) (o : Orig) (p tag a len : Nat) : Prop :=
  s.held = [⟨h, o, .hostRead p tag, a, len, []⟩] ∧ 0 < len ∧ (∀ i < len, s.holderOf o (a + i) = some h) ∧
    s.accessFault a len false = false ∧ s.rangePathLost o a len = false ∧ s.failedWords a len = [] ∧ s.upsets = [] ∧
    (s.readBytes a len).all (·.isSome) = true

/-- It has been served: its bytes have gone out with the successful status. -/
def ServedRead (s t : State) (p tag a len : Nat) : Prop :=
  t.held = [] ∧ Out.completion p tag (s.readBytes a len) 0 ∈ t.outbox
/-! ### Cores -/

/-- Every command waiting for an array has one of the five OPs of R93, R132 and R145. -/
def Tidy (y : ArraySt) : Prop := ∀ e ∈ y.queue ++ y.entering, 1 ≤ bits e.word 63 60 ∧ bits e.word 63 60 ≤ 5

/-- The command at the head of an array's queue, and what its word decodes to. -/
def AtHead (s : State) (c : Nat) (a : Arr) (e : ArrEntry) (cmd : Option ArrCmd) : Prop :=
  (s.arr c a).queue.head? = some e ∧ decodeArr e.word = cmd ∧ Tidy (s.arr c a) ∧ s.power.stopped = false

/-- Only one core has changed. -/
def OnlyCore (s t : State) (c : Nat) : Prop := ∀ d, d ≠ c → t.core d = s.core d

/-- Only one array of one core has changed. -/
def OnlyArr (s t : State) (c : Nat) (a : Arr) : Prop :=
  OnlyCore s t c ∧ t.core c = (s.core c).setArr a (t.arr c a)

/-- A range of device addresses that lies in a core's own local SRAM, without poison. -/
def CleanSram (s : State) (c a n : Nat) : Prop :=
  0x5000000000 + c * 0x100000 ≤ a ∧ a + n ≤ 0x5000000000 + (c + 1) * 0x100000 ∧
    ∀ i < n, s.poisoned (a + i) = false

/-- The ranges that a LOAD reads: its lines, those of the second operand of PART 3, and the scales of an MX format (R89, R100,
R156). -/
def loadRanges (cmd : ArrCmd) (regs : List Nat) : List (Nat × Nat) :=
  match cmd with
  | .load _ fmt part tr crows ccols .. =>
    let f := (Fmt.ofCode fmt).getD .bf16
    let k := crows * perWord ((fmtClass f).getD 0)
    let lines (b : Nat) : List (Nat × Nat) := (List.range (if tr = 0 then ccols else k)).map fun i =>
      (b + i * regs.getD 1 0, ((if tr = 0 then k else ccols) * f.width + 7) / 8)
    lines (regs.getD 0 0) ++ (if part = 3 then lines (regs.getD 3 0) else []) ++
      (if f.isMx then (List.range ccols).map fun n => (regs.getD 2 0 + n * (regs.getD 1 0 / blockBytes f), k / 32) else [])
  | _ => []

/-! ### Threads, objects and packets -/

/-- Only one thread of one core has changed. -/
def OnlyThread (s t : State) (c : Nat) (th : Thr) : Prop :=
  OnlyCore s t c ∧ t.core c = (s.core c).setThr th (t.thr c th)

/-- A thread has written one scalar register, cut to 64 bits (s0 stays zero), and gone on to its next instruction; nothing
else has changed (R78, R358). -/
def WritesReg (s t : State) (c : Nat) (th : Thr) (rd v : Nat) : Prop :=
  t = { s with cores := t.cores } ∧ OnlyThread s t c th ∧
    t.thr c th = { s.thr c th with pc := (s.thr c th).pc + 4, regs := (t.thr c th).regs } ∧
    ∀ r, (t.thr c th).reg r = if r = rd ∧ r ≠ 0 then v % 2 ^ 64 else (s.thr c th).reg r

/-- No barrier and no sync watch depends on an object. -/
def State.plainObj (s : State) (o : Nat) : Prop :=
  s.barriersAt o = [] ∧ (s.host 0).events = [] ∧ (s.host 1).events = []

/-- One sync object has a value, and every other object the value it had (R369). -/
def ObjSet (s t : State) (o v : Nat) : Prop := t.obj o = v % 2 ^ 32 ∧ ∀ q, q ≠ o → t.obj q = s.obj q

/-- A completion object has gained 1; 0x1_FFFF names none. -/
def Signalled (s t : State) (o : Nat) : Prop := if o = 0x1FFFF then t.sync = s.sync else ObjSet s t o (s.obj o + 1)

/-- One packet has been given to a brim's injection port, to the package that stands for `dst`, with the beginning of its
kind data and of its extension, its payload in whole words and a right ECRC; of the fabric, at most the packets to be acted on have changed
beside it (R288, R298). -/
def Sent (s t : State) (b dst kind : Nat) (kdata ext data : List Byte) : Prop :=
  (∃ p : Pkt, t.injectQ b = s.injectQ b ++ [⟨p, false, false, none⟩] ∧ p.dst = s.physOf (dst % 16384) % 16384 ∧
    p.src = s.physSelf % 16384 ∧ p.kind = kind ∧ p.ecrcOk = true ∧ (p.hdr.drop 18).take kdata.length = kdata ∧
    (p.hdr.drop 32).take ext.length = ext ∧ p.data = wholeWords data) ∧
  (∀ b', b' ≠ b → t.injectQ b' = s.injectQ b') ∧
  t.fabric = { s.fabric with inject := t.fabric.inject, ejected := t.fabric.ejected }

/-- The first packet of a class and kind that has reached this package, and that its ECRC holds. -/
def State.arrived (s : State) (cls kind b : Nat) (p : Pkt) : Prop :=
  (s.fabric.ejected.find? fun e => vcClass e.2.vc == cls && e.2.kind == kind) = some (b, p) ∧ p.ecrcOk = true

/-- A fuller is as it was, or it was idle and now waits for an up-slot with one row's credit (R102, R104). -/
def WaitsNow (old new : Fuller) : Prop :=
  new = old ∨ (old.phase = .idle ∧ new = { old with phase := .waitUp, step := 0, credit := 8, cyc := 0, fromIdle := true })

/-- A release of generation `k` with count `n` has been sent to this node's children in a group's tree and taken here: the
release object is `k`, where the dispatcher reaches its crown, a short count is flagged, and nothing else has changed but what
LSTEP_N does ahead of the units and jobs that it makes ready, the generations held, and that an idle array of a core so released
may begin to wait for an up-slot with one row's credit (R30, R107, R374, R375). -/
def Released (s u : State) (gi k n : Nat) (br : Barrier) : Prop :=
  let g := s.group gi
  let short := decide (n < g.members.length)
  u = { s with flds := u.flds, fabric := u.fabric, fresh := u.fresh, sync := u.sync, barrierGens := u.barrierGens
               crowns := u.crowns, lstep := u.lstep, outbox := u.outbox, step := u.step, cores := u.cores } ∧
    (if s.objReached .mgmt br.release = true then ObjSet s u br.release k else u.sync = s.sync) ∧
    (∀ c, ∃ f h, u.core c = { s.core c with arrF := { (s.core c).arrF with fuller := f }
                                            arrB := { (s.core c).arrB with fuller := h } } ∧
      WaitsNow (s.core c).arrF.fuller f ∧ WaitsNow (s.core c).arrB.fuller h) ∧
    SameFields s u [Reg.PWR_LSTEP_COUNT, Reg.SYN_STATUS_BAR_TIMED, Reg.SYN_CNT_BAR_TIMED] ∧
    u.rd Reg.SYN_STATUS_BAR_TIMED = (if short then 1 else s.rd Reg.SYN_STATUS_BAR_TIMED) ∧
    u.rd Reg.SYN_CNT_BAR_TIMED = (if short then satAdd 16 (s.rd Reg.SYN_CNT_BAR_TIMED) 1 else s.rd Reg.SYN_CNT_BAR_TIMED) ∧
    u.step = s.step.map (fun r => { r with flags := if short then r.flags ||| 4 else r.flags }) ∧
    (u.injectQ 0).map (fun q => (q.pkt.dst, q.pkt.kind, (q.pkt.hdr.drop 32).take 12)) =
      (s.injectQ 0).map (fun q => (q.pkt.dst, q.pkt.kind, (q.pkt.hdr.drop 32).take 12)) ++
        (s.childrenOf g s.logSelf g.root).map fun c =>
          (s.physOf (c % 16384) % 16384, 0x14, leBytes 4 gi ++ leBytes 4 k ++ leBytes 4 n)

/-! ### Host queues and urgent work -/

/-- Neither port has an event queue, so recording an event writes no entry. -/
def State.noEvents (s : State) : Prop := (s.host 0).events = [] ∧ (s.host 1).events = []

/-- A completion entry has been written to its queue's ring, and CQTAIL advanced, where the queue has been enabled ever since
the command was taken, its port is in D0 and its interrupts are off; nothing is written where it has been disabled (R432,
R439). -/
def Posted (s u : State) (t : Ticket) (status flags op info : Nat) : Prop :=
  let q := (s.host t.port).queue t.queue
  let tail := s.rd (Reg.HQ_Q_STATUS_CQTAIL t.port t.queue)
  (s.rd (Reg.HQ_Q_CFG_EN t.port t.queue) = 1 → q.epoch = t.epoch → (s.host t.port).d3hot = false →
      s.rd (Reg.HQ_Q_CFG_IEN t.port t.queue) = 0 →
    u.outbox = s.outbox ++ [.hostWrite t.port (s.rd (Reg.HQ_CQ_BASE_ADDR t.port t.queue) * 4096 + tail * 16)
      ((leBytes 2 t.slot ++ leBytes 2 t.sqHead ++ leBytes 1 status ++ leBytes 1 flags ++ leBytes 1 q.phase.toNat ++
        leBytes 1 op ++ leBytes 4 info ++ leBytes 4 0).map some)] ∧
    u.rd (Reg.HQ_Q_STATUS_CQTAIL t.port t.queue) =
      if s.rd (Reg.HQ_Q_CFG_CQSZM1 t.port t.queue) ≤ tail then 0 else (tail + 1) % 65536) ∧
  (s.rd (Reg.HQ_Q_CFG_EN t.port t.queue) = 0 ∨ q.epoch ≠ t.epoch →
    u.outbox = s.outbox ∧ u.rd (Reg.HQ_Q_STATUS_CQTAIL t.port t.queue) = tail)

/-- The descriptor fields of a core's tile slots (R119). -/
def slotFields (c : Nat) : List Fld :=
  [Arr.F, .B].flatMap fun a => (List.range 16).flatMap fun sl =>
    let (v, m, r, b) := tileFlds c a sl
    [v, m, r, b]

/-- An urgent command runs on its cores: thread U of each has started at the unit's entry with the six arguments, and threads
F and B are suspended; an array that an earlier urgent unit left set aside has no valid slot, and every other slot is as it was;
nothing else has changed but what LSTEP_N does ahead of the cores (R137, R376, R377). -/
def UrgentStarted (s u : State) (cmd : UrgentCmd) (d : UrgentDesc) : Prop :=
  u = { s with cores := u.cores, crowns := u.crowns, lstep := u.lstep, outbox := u.outbox, flds := u.flds
               urgentRuns := s.urgentRuns ++ [⟨cmd, d.cores, false⟩] } ∧
    SameFields s u (Reg.PWR_LSTEP_COUNT :: d.cores.flatMap slotFields) ∧
    (∀ c ∈ d.cores, ∀ a, ∀ sl < 16, u.slot c a sl =
      if (s.arr c a).saved.isSome = true ∧ (s.arr c a).preempting = false then ⟨false, 0, 0, 0⟩ else s.slot c a sl) ∧ (∀ c, c ∉ d.cores → u.core c = s.core c) ∧
    ∀ c ∈ d.cores,
      (u.thr c .F).suspended = true ∧ (u.thr c .B).suspended = true ∧ (u.thr c .U).running = true ∧
        (u.thr c .U).pc = d.entry ∧ (u.thr c .U).wait = none ∧
        (∀ k < 6, (u.thr c .U).reg (k + 1) = cmd.args.getD k 0 % 2 ^ 64) ∧
        ∀ k, 7 ≤ k → (u.thr c .U).reg k = 0

/-- The two objects that an urgent command of a unit without code adds to are plain, and the dispatcher reaches them. -/
def State.atOnce (s : State) (cmd : UrgentCmd) (d : UrgentDesc) : Prop :=
  s.plainObj cmd.signal ∧ s.plainObj d.signal ∧ s.objReached .mgmt cmd.signal = true ∧ s.objReached .mgmt d.signal = true

/-- An urgent command of a unit without code has completed at once: the unit's SIGNAL and the command's completion object have
gained 1, and the completion entry is written (R360, R376, R432). -/
def UrgentDone (s u : State) (cmd : UrgentCmd) (d : UrgentDesc) : Prop :=
  u = { s with sync := u.sync, flds := u.flds, hosts := u.hosts, outbox := u.outbox, heldOut := u.heldOut } ∧
    (∀ o, u.obj o =
      if o = cmd.signal ∨ (o = d.signal ∧ o ≠ 0x1FFFF) then
        (s.obj o + (if o = cmd.signal then 1 else 0) + (if o = d.signal ∧ o ≠ 0x1FFFF then 1 else 0)) % 2 ^ 32
      else s.obj o) ∧
    u.rd Reg.SHP_URG_URG_DONE = (s.rd Reg.SHP_URG_URG_DONE + 1) % 2 ^ 32 ∧ Posted s u cmd.ticket 0 0 2 cmd.unit

/-! ### Power and temperature -/

/-- Of power and thermal control, only what is kept for one crown has changed. -/
def OnlyCrownPower (s u : State) (n : Nat) : Prop :=
  u.power = { s.power with crowns := u.power.crowns } ∧ ∀ k, k ≠ n → u.crownPower k = s.crownPower k

/-- The estimate has left calibrated mode, with every gain at 1, and the event is recorded (R391). -/
def FellBack (s u : State) : Prop :=
  u.rd Reg.PWR_STATUS_MODE = 1 ∧ u.rd Reg.PWR_STATUS_CAL_LOST = 1 ∧ u.power.gains = [] ∧ u.power.good = [] ∧
    (∀ d < 7, u.rd (Reg.PWR_DOM_GAIN d) = 0x4000 ∧ u.rd (Reg.PWR_DOM_MEAS d) = 0) ∧
    Logs s u .estimateFallback (powerSource 0 0) []

/-- The estimate has returned to calibrated mode, and the event is recorded (R391). -/
def CameBack (s u : State) : Prop :=
  u.rd Reg.PWR_STATUS_MODE = 0 ∧ u.power.gains = [] ∧ Logs s u .estimateCalibrated (powerSource 0 0) []

/-- EFF as R392 and R416 give it, with the ALARM_CAP of the last 100 ms step (R417). -/
def State.capNow (s : State) : Nat :=
  let eff := clampNat 900 3600 (s.rd Reg.PCAP_CAP_REQ)
  (if s.rd Reg.PCAP_STATUS_ALARM_LIM = 0 then eff else min eff s.power.coolant.alarmCap) % 65536

/-! ### The control token -/

/-- The token has a new holder: EPOCH has gone on by one, the heartbeat timeout has started again, the change is recorded, every
control-token event queue is then given the epoch, the holder and the cause, and nothing else has changed (R433, R435, R436). -/
def TokenMoved (s u : State) (holder cause : Nat) : Prop :=
  let epoch := (s.rd Reg.MGT_TOKEN_EPOCH + 1) % 65536
  let but := [Reg.MGT_TOKEN_HOLDER, Reg.MGT_TOKEN_EPOCH, Reg.MGT_TOKEN_TIMEOUT_MS]
  let s₁ : State := { s with tokenTimer := s.tokenTimer + 1, latch := u.latch }
  OnlyLogged s₁ u but ∧ u.rd Reg.MGT_TOKEN_HOLDER = holder ∧ u.rd Reg.MGT_TOKEN_EPOCH = epoch ∧
    Logs s u .tokenChange (source 0 0 2) [] ∧
    ∃ t : State, OnlyLogged s₁ t but ∧
      u = t.eqBroadcast (fun t p e => t.rd (Reg.HQ_EQ_CFG_SRC p e) == 2) (leBytes 2 epoch ++ leBytes 1 holder ++ leBytes 1 cause)

/-- The token has not moved. -/
def TokenKept (s u : State) : Prop :=
  u.rd Reg.MGT_TOKEN_HOLDER = s.rd Reg.MGT_TOKEN_HOLDER ∧ u.rd Reg.MGT_TOKEN_EPOCH = s.rd Reg.MGT_TOKEN_EPOCH ∧
    u.tokenTimer = s.tokenTimer

/-! ### Firmware and management messages -/

/-- An update operation has started (R455). -/
def OpStarted (u : State) (o : UpdOp) : Prop :=
  u.boot.op = some o ∧ u.boot.session = none ∧ u.rd Reg.SEC_UPD_STATUS_BUSY = 1 ∧ u.rd Reg.SEC_UPD_STATUS_LAST_OP = o.op % 16 ∧
    u.rd Reg.SEC_UPD_STATUS_SOURCE = if o.from_.isSome then 1 else 0

/-- The bank of a type that is not active holds an image in both brims, not yet VALID, pending or staged (R453). -/
def Stored (s u : State) (k : Nat) (b : List Byte) : Prop :=
  let o := 1 - (s.fwType k).active
  u.bank_ 0 k o = b ∧ u.bank_ 1 k o = b ∧ u.fwType k =
    { s.fwType k with valid := (s.fwType k).valid.filter (· != o), pending := false } ∧
    bit (u.rd Reg.SEC_UPD_STATUS_STAGED) k = false ∧
    ∀ c j d, c < 2 → j < 3 → d < 2 → ¬(j = k ∧ d = o) → u.bank_ c j d = s.bank_ c j d

/-- Floors and revocations are as COMMIT programs them (R458). -/
def Committed (s u : State) : Prop :=
  (∀ k < 3, Sparse.get 0 u.boot.floors k = max (Sparse.get 0 s.boot.floors k) (s.svn k)) ∧
    ∀ j < 4, bit u.boot.revoked j = (bit s.boot.revoked j || (bit (mRevoke (s.manifest 0)) j && !s.signs j))

/-- The response to an Irhal message: type, vendor, command, instance with the response bit, status and data, in packets of the
path's size (R462). -/
def replyOf (path cmd inst status : Nat) (data : List Byte) : Out :=
  .mctp path (mctpPackets path
    ([0x7E, 0x1F, 0x8C] ++ leBytes 1 cmd ++ leBytes 1 (0x80 + inst) ++ leBytes 1 status ++ [0, 0] ++ data))

/-- A request has only been answered. -/
def Replied (s u : State) (path cmd inst status : Nat) (data : List Byte) : Prop :=
  u = { s with outbox := s.outbox ++ [replyOf path cmd inst status data], fresh := u.fresh }

/-! ### Frames of links -/

/-- Of the fabric, only one link has changed. -/
def OnlyLink (s t : State) (l : Nat) : Prop :=
  t.fabric = { s.fabric with links := t.fabric.links } ∧ ∀ k, k ≠ l → t.link k = s.link k

/-- A frame whose four codewords decoded and whose FCRC holds, of a type, next in sequence, with no NAK and no credits to
return, on a link whose replay buffer has room for an answer and on which no frame waits (R284, R285). -/
def GoodFrame (s : State) (l ty : Nat) (frame : List Byte) : Prop :=
  frame.length = 2570 ∧ crc32 (frame.take 2566) = fieldNat frame 2566 4 ∧ frameType frame = ty ∧
    bits (fieldNat frame 0 6) 14 3 = (s.link l).rxSeq ∧ bit (fieldNat frame 0 6) 27 = false ∧
    bits (fieldNat frame 0 6) 44 33 = 0 ∧ (s.link l).waiting = [] ∧
    ((s.link l).ackTo (bits (fieldNat frame 0 6) 26 15)).replay.length < 512

/-- A frame that carries no flit has gone out, with a sequence number to acknowledge, as NAK or not, and the first credits
owed. -/
def Answered (s t : State) (l ack : Nat) (nak : Bool) : Prop :=
  let c := (s.link l).owed.headD (31, 0)
  t.outbox = s.outbox ++ [.frame l (mkFrame (frameCtl 0 (s.link l).txSeq ack nak c.1 (min c.2 4095)) [])] ∧
    (t.link l).txSeq = ((s.link l).txSeq + 1) % 4096

/-! ### Accesses that complete -/

/-- Nothing holds an access to any tower back (R22, R23, R25). -/
def State.allUp (s : State) : Prop :=
  ∀ t < 4, (s.tower t).horizonReset = [] ∧ (s.tower t).cacheReset = false ∧ (s.tower t).sleep = .awake ∧ (s.tower t).trained = true

/-- An originator can read bytes at once, and they hold these values. -/
def Readable (s : State) (o : Orig) (a : Nat) (bs : List Byte) : Prop :=
  s.accessFault a bs.length false = false ∧ s.inRegion a = false ∧ s.rangePathLost o a bs.length = false ∧
    s.rangeHolder o a bs.length = none ∧ s.upsets = [] ∧
    s.failedWords a bs.length = [] ∧ s.readBytes a bs.length = bs.map some

/-- An originator can write bytes at once: no path to them is lost and no channel failed, also once the EMPTY pages among them
have taken their places (R245). -/
def Writable (s : State) (o : Orig) (a n : Nat) : Prop :=
  s.inRegion a = false ∧ s.accessFault a n true = false ∧ s.rangePathLost o a n = false ∧ s.rangeHolder o a n = none ∧
    (s.openRange a n).rangePathLost o a n = false ∧ (s.openRange a n).failedWords a n = []

/-- Storage is as a write of some bytes by an originator leaves it. -/
def Wrote (s t : State) (o : Orig) (a : Nat) (bs : List Byte) : Prop :=
  t.mem = (s.memWrite o a (bs.map some)).2.mem ∧ t.poison = (s.memWrite o a (bs.map some)).2.poison

end Sys2Proof.Machine
end

