-- ==== Sys2Proof/Certificates/Slice0/Obligations.lean ====
section
/-! DEFINITION. The statements about the model. -/

open Sys2Proof Sys2Proof.Machine

/-- A step runs the command at the front of the queue on the state with the rest of the queue; an empty queue idles,
but for a request that waits for a signature (log entries 1, 27 and 29). -/
def Obligations.StepTakesTheFrontCommand : Prop :=
  (∀ (s : State) (c : Instr) (rest : List Instr), s.pending = c :: rest → step s = exec c { s with pending := rest }) ∧
    ∀ s : State, s.pending = [] → step s = .next s.idle ∧ (s.boot.signing = [] → s.idle = s)

/-- Reset: every register field at its Reset value, and nothing else going on. The values of the fields that MRAM, the fuses and the
package give, CROWN_OK among them, and the empty memory are the model's choice (log entries 3 to 7). -/
def Obligations.ResetHoldsWhatTheTablesGive : Prop :=
  (∀ f : Fld, State.reset.rd f = f.reset) ∧ State.reset.canonical ∧ State.reset.mem = [] ∧ State.reset.poison = [] ∧ State.reset.sync = [] ∧ State.reset.stepQueue = [] ∧
    State.reset.held = [] ∧ State.reset.pending = [] ∧ State.reset.step = none ∧ ∀ p, (State.reset.host p).linkUp = false

/-- The canonical form of storage is an invariant of every step, from every state that has it. -/
def Obligations.StorageStaysCanonical : Prop :=
  ∀ s t : State, s.canonical → step s = .next t → t.canonical

/-- No bit of an encoding is dropped: decode of encode is the identity on well-formed instructions. -/
def Obligations.EncodedInstructionsDecodeBack : Prop :=
  (∀ i : CInsn, i.wf = true → decodeInsn (encodeInsn i) = some i ∧ encodeInsn i < 2 ^ 32) ∧
    (∀ c : ArrCmd, c.wf = true → decodeArr (encodeArr c) = some c ∧ encodeArr c < 2 ^ 64) ∧
    ∀ v : VopCmd, v.wf = true → decodeVop (encodeVop v) = some v ∧ encodeVop v < 2 ^ 64

/-- Words written out from the tables of R358, R93, R145 and R172. -/
def Obligations.WordsOfTheManualDecode : Prop :=
  decodeInsn 0b00000001000011000101000111000001 = some (.alu 3 5 7 1) ∧
    decodeInsn 0b00000010000011000101111111111111 = some (.addi 3 5 4095) ∧
    decodeInsn 0b00000110000011000101010000000101 = some (.br 3 5 2 5) ∧
    decodeInsn 0b00001111000000000000000000000000 = some .endUnit ∧
    decodeInsn 0 = none ∧ decodeInsn 0x10000000 = none ∧
    decodeArr 0x2800000000000000 = some (.swap 1) ∧
    decodeArr 0x5285030000000000 = some (.qparam 0 0 1 0x85 0x03) ∧
    decodeVop 0x8100002000800000 = some ⟨1, 0, 2, 2, 0, 0, false⟩

/-- A register write field by field (R7, R11, R509); what a lost path, a die in reset and a tower asleep do to it is the reading of log
entries 2 and 20. -/
def Obligations.RegisterWriteFollowsAccessCodes : Prop :=
  ∀ (port : Port) (off size value : Nat) (s : State) (fam : Family) (ro : Nat) (part : RegPart),
    let acc : RegAccess := ⟨port, part, value⟩
    regAccess off size = some (fam, ro, part) → s.bar0Open ro = true → s.postedHolder port.val = none →
    (s.regPathLost (.port port) ro = true → exec (.registerWrite port off size value) s = .next s) ∧
    (∀ h, s.regPathLost (.port port) ro = false → s.regHolder (.port port) ro = some h →
      exec (.registerWrite port off size value) s = .next (HeldWrite s h acc false ro)) ∧
    (ro = 0x600000 → s.resetBits acc = 0 →
      Completes (.registerWrite port off size value) s fun u => Rejected s u port 0x600000) ∧
    (ro = 0x500000 → 1 < s.tokenBits acc → exec (.registerWrite port off size value) s = .next s) ∧
    (s.reaches port ro = true → ¬(ro = 0x600000 ∧ s.resetBits acc = 0) → ¬(ro = 0x500000 ∧ 1 < s.tokenBits acc) → Completes (.registerWrite port off size value) s fun u =>
      (∀ r ∈ fam.fields, ∀ v, r.own = false →
        writtenValue s (homeOff fam port.val ro) (rowFld fam port.val ro r) part value = some v →
        let f := rowFld fam port.val ro r
        (r.acc = .rw → u.rd f = r.clamped v % 2 ^ r.width) ∧
          (r.acc = .rwt → s.holds port.val = true → u.rd f = r.clamped v % 2 ^ r.width) ∧
          (r.acc = .rwt → s.holds port.val = false → u.rd f = s.rd f) ∧
          (r.acc = .rw1c → u.rd f = s.rd f &&& (2 ^ r.width - 1 - v)) ∧
          (r.acc ≠ .rw ∧ r.acc ≠ .rwt ∧ r.acc ≠ .rw1c → u.rd f = s.rd f ∨ f.key ∈ logFields.map Fld.key)) ∧
      (let rejects := !s.holds port.val && rwtDiffers s fam port.val ro part value
       (rejects = true → Logs s u .rejectedWrite (portSource port.val) [pv4 ro, pv1 port.val] ∧
          SameFields s u (logFields ++ fam.fields.map (rowFld fam port.val ro)) ∧
          u = { s with flds := u.flds, latch := u.latch, recorder := u.recorder, hosts := u.hosts, outbox := u.outbox
                       heldOut := u.heldOut }) ∧
       (rejects = false → u = { s with flds := u.flds, latch := u.latch } ∧
          SameFields s u (fam.fields.map (rowFld fam port.val ro)))))

/-- A field in both halves takes effect when its upper half is written (R11). -/
def Obligations.TwoHalvesWriteTheWhole : Prop :=
  ∀ (port : Port) (off value : Nat) (s : State) (fam : Family),
    regAccess off 8 = some (fam, off, .whole) → regAccess off 4 = some (fam, off, .lower) →
    regAccess (off + 4) 4 = some (fam, off, .upper) → s.reaches port off = true → s.holds port.val = true →
    (off = 0x500000 → s.tokenBits ⟨port, .whole, value % 2 ^ 64⟩ ≤ 1) →
    fam.fields.all (·.acc != .rw1c) = true →
    ∃ t u v, exec (.registerWrite port off 4 (value % 2 ^ 32)) s = .next t ∧
      exec (.registerWrite port (off + 4) 4 (value / 2 ^ 32 % 2 ^ 32)) t = .next u ∧
      exec (.registerWrite port off 8 (value % 2 ^ 64)) s = .next v ∧
      (∀ r ∈ fam.fields, u.rd (rowFld fam port.val off r) = v.rd (rowFld fam port.val off r)) ∧
      ∀ r ∈ fam.fields, r.lo < 32 → 32 < r.lo + r.width →
        t.rd (rowFld fam port.val off r) = s.rd (rowFld fam port.val off r)

/-- Accesses that BAR0 does not accept (R422, R451, R482). -/
def Obligations.WriteOutsideRegistersIsDiscarded : Prop :=
  ∀ (port : Port) (off size value : Nat) (s : State),
    s.postedHolder port.val = none →
    (((size ≠ 4 ∧ size ≠ 8) ∨ off % size ≠ 0) →
      exec (.registerWrite port off size value) s = .next s ∧
        ∀ tag, exec (.readClear port tag off size) s = .next (s.emit (.completion port.val tag [] 1))) ∧
    (familyAt off = none → familyAt (off - 4) = none → exec (.registerWrite port off size value) s = .next s) ∧
    (∀ fam ro part, regAccess off size = some (fam, ro, part) → s.bar0Open ro = false →
      exec (.registerWrite port off size value) s = .next s)

/-- Reads with an effect (R7, R478). -/
def Obligations.ReadClearReturnsThenClears : Prop :=
  ∀ (port : Port) (tag off size : Nat) (s : State) (fam : Family) (ro : Nat) (part : RegPart),
    regAccess off size = some (fam, ro, part) → s.bar0Open off = true → s.postedHolder port.val = none →
    (∀ h, s.regPathLost (.port port) off = false → s.regHolder (.port port) off = some h → exec (.readClear port tag off size) s =
      .next (s.holdReq ⟨h, .port port, .hostRead port.val tag, 0x6000000000 + off, size, []⟩)) ∧
    (s.regPathLost (.port port) off = true → exec (.readClear port tag off size) s =
      .next (s.emit (.completion port.val tag (List.replicate size none) 0))) ∧
    (s.reaches port off = true → Completes (.readClear port tag off size) s fun u =>
      let v := s.regVal port.val fam ro
      let out := match part with
        | .whole => v
        | .lower => v % 2 ^ 32
        | .upper => v / 2 ^ 32
      u = { s with flds := u.flds, outbox := s.outbox ++ [.completion port.val tag ((leBytes size out).map some) 0] } ∧
        (∀ r ∈ fam.fields, r.acc = .rc →
          (part = .whole ∨ (part = .lower ∧ r.lo < 32) ∨ (part = .upper ∧ 32 < r.lo + r.width)) →
          u.rd (rowFld fam port.val ro r) = 0) ∧
        SameFields s u ((fam.fields.filter fun r => r.acc == .rc).map (rowFld fam port.val ro) ++
          if ro = 0x401F8 then [Reg.EVR_CURSOR_SEQ port.val] else []) ∧
        (ro = 0x401F8 → part ≠ .lower → s.rdB (Reg.EVR_CURSOR_AUTO port.val) = true →
          u.rd (Reg.EVR_CURSOR_SEQ port.val) = (s.rd (Reg.EVR_CURSOR_SEQ port.val) + 8) % 2 ^ 48))

/-- The clocks (R501). Reason 1 for the links of a brim whose reference stops, and which states count as trained or up, are the reading
of log entry 28. -/
def Obligations.ClockLossAndReturn : Prop :=
  (∀ (b : Tower) (s : State), Completes (.serdesReferenceLoss b) s fun u =>
      u = { s with flds := u.flds, fabric := u.fabric, refLost := u.refLost } ∧ b.val ∈ u.refLost ∧
        (∀ k, k ≠ b.val → (k ∈ u.refLost ↔ k ∈ s.refLost)) ∧
        ∀ l < 14, (linkBrim l = b.val → 2 ≤ s.linkState l → s.linkState l ≤ 8 →
            u.linkState l = 9 ∧ u.rd (Reg.HB_LINK_STATUS_REASON l) = 1) ∧
          (linkBrim l ≠ b.val ∨ s.linkState l < 2 ∨ 8 < s.linkState l → u.linkState l = s.linkState l)) ∧
    (∀ (p : Port) (s : State), Completes (.pcieReferenceLoss p) s fun u =>
      (u.host p.val).linkUp = false ∧ { u.host p.val with linkUp := (s.host p.val).linkUp } = s.host p.val ∧
        u.rd (Reg.HQ_PORT_RATE p.val) = 0 ∧ u.rd (Reg.HQ_PORT_WIDTH p.val) = 0 ∧ (4 + p.val) ∈ u.refLost ∧
        SameFields s u [Reg.HQ_PORT_RATE p.val, Reg.HQ_PORT_WIDTH p.val] ∧
        u = { s with flds := u.flds, hosts := u.hosts, refLost := u.refLost }) ∧
    (∀ (b : Tower) (s : State), Completes (.alwaysOnClockLoss b) s fun u =>
      b.val ∈ u.boot.oscillator ∧ u = { s with boot := { s.boot with oscillator := u.boot.oscillator } } ∧
        ∀ k, k ≠ b.val → (k ∈ u.boot.oscillator ↔ k ∈ s.boot.oscillator)) ∧
    (∀ (k : Fin 10) (s : State), 6 ≤ k.val → Completes (.clockReturn k) s fun u =>
      (k.val - 6) ∉ u.boot.oscillator ∧ u = { s with boot := { s.boot with oscillator := u.boot.oscillator } }) ∧
    (∀ (k : Fin 10) (s : State), k.val < 6 → k.val ∈ s.refLost → Completes (.clockReturn k) s fun u =>
      k.val ∉ u.refLost ∧ u = { s with flds := u.flds, refLost := u.refLost } ∧
        ∀ l < 14, (linkBrim l = k.val → s.linkState l = 9 → u.linkState l = 2) ∧
          (linkBrim l ≠ k.val ∨ s.linkState l ≠ 9 → u.linkState l = s.linkState l)) ∧
    (∀ (k : Fin 10) (s : State), k.val < 6 → k.val ∉ s.refLost → exec (.clockReturn k) s = .next s)

/-- Warm resets (R482) and what starts them. Memory that the reset loses reads as zero by log entry 7's choice, and a warm reset while a
power-on reset is still in progress is carried out (log entry 26). -/
def Obligations.WarmResetsEmptyThePackage : Prop :=
  ∀ s : State, s.canonical →
    (∀ (acc : RegAccess) facts, s.postedHolder acc.port.val = none → s.accessBits acc Reg.RST_CTL_WARM = 1 →
      s.holds acc.port.val = true → s.accessBits acc Reg.RST_CTL_TOWER = 0 → s.accessBits acc Reg.RST_CTL_JOB = 0 →
      s.accessBits acc Reg.RST_CTL_CONFIRM = 0x5E7A → Completes (.warmReset acc facts) s fun u => AfterWarmReset s u 4) ∧
    (∀ (acc : RegAccess) facts, s.postedHolder acc.port.val = none → s.bar0Open 0x600000 = true → s.resetBits acc = 0 →
      Completes (.warmReset acc facts) s fun u => Rejected s u acc.port 0x600000) ∧
    (∀ (acc : RegAccess) facts, s.postedHolder acc.port.val = none → s.accessBits acc Reg.RST_CTL_WARM = 1 →
      (s.holds acc.port.val = false ∨ s.accessBits acc Reg.RST_CTL_TOWER = 1 ∨ s.accessBits acc Reg.RST_CTL_JOB = 1 ∨
        s.accessBits acc Reg.RST_CTL_CONFIRM ≠ 0x5E7A) →
      Completes (.warmReset acc facts) s fun u => Rejected s u acc.port 0x600000) ∧
    (∀ (rail : Fin 10) facts, rail.val < 9 → s.poweringDown = true →
      exec (.supplyBelowResetLevel rail facts) s = .next s) ∧
    (∀ (rail : Fin 10) facts, 4 ≤ rail.val → rail.val < 9 → s.poweringDown = false →
      Completes (.supplyBelowResetLevel rail facts) s fun u => AfterWarmReset s u 1) ∧
    (∀ facts, s.recorder.closed = true → Completes (.pwrfailNDeassert facts) s fun u => AfterWarmReset s u 5) ∧
    (∀ facts, (s.fwType 0).trial = true → s.rd Reg.MGT_STATUS_PHASE ≠ 8 →
      Completes (.trialWatchdog facts) s fun u => AfterWarmReset s u 2) ∧
    (∀ start facts, start = s.boot.standbyTimer → s.rdB Reg.MGT_STATUS_STBY_OK = false →
      Completes (.failover start facts) s fun u => AfterWarmReset s u 3)

/-- Tower resets (R483, R486). What the reset loses reads as zero by log entry 7's choice. -/
def Obligations.TowerResetsLoseTheTower : Prop :=
  ∀ s : State, s.canonical →
    (∀ acc : RegAccess, s.postedHolder acc.port.val = none → s.accessBits acc Reg.RST_CTL_TOWER = 1 → s.holds acc.port.val = true →
      s.accessBits acc Reg.RST_CTL_WARM = 0 → s.accessBits acc Reg.RST_CTL_JOB = 0 →
      s.accessBits acc Reg.RST_CTL_CONFIRM = 0x5E7A →
      let ts := [0, 1, 2, 3].filter fun t => bit (s.accessBits acc Reg.RST_CTL_TMASK) t
      (s.rd Reg.MGT_STATUS_PHASE = 8 → ts ≠ [] → Completes (.towerReset acc) s fun u => AfterTowerReset s u ts 4) ∧
        (s.rd Reg.MGT_STATUS_PHASE ≠ 8 → exec (.towerReset acc) s = .next s)) ∧
    (∀ acc : RegAccess, s.postedHolder acc.port.val = none → s.accessBits acc Reg.RST_CTL_TOWER = 1 → s.holds acc.port.val = false →
      Completes (.towerReset acc) s fun u => Rejected s u acc.port 0x600000) ∧
    (∀ (rail : Fin 10) facts, rail.val < 4 → s.poweringDown = false →
      Completes (.supplyBelowResetLevel rail facts) s fun u =>
        u.rd Reg.PWR_DIP_RESETS = satAdd 16 (s.rd Reg.PWR_DIP_RESETS) 1 ∧
          (s.rd Reg.MGT_STATUS_PHASE = 8 → AfterTowerReset s u [rail.val] 1) ∧
          (s.rd Reg.MGT_STATUS_PHASE ≠ 8 → Records s u .supplyReset (powerSource rail.val 7) [] [Reg.PWR_DIP_RESETS]))

/-- Job resets (R333, R483, R486). That the arrays lose what CRN_ARR_STATUS shows is the reading of log entry 26. -/
def Obligations.JobResetKeepsTheImage : Prop :=
  ∀ (acc : RegAccess) (s : State), s.canonical → s.postedHolder acc.port.val = none → s.accessBits acc Reg.RST_CTL_JOB = 1 →
    (s.holds acc.port.val = true → s.accessBits acc Reg.RST_CTL_WARM = 0 → s.accessBits acc Reg.RST_CTL_TOWER = 0 →
      s.step = none → s.urgentRuns = [] →
      (s.rd Reg.MGT_STATUS_PHASE ≠ 8 ∨ ∃ t < 4, (s.tower t).cacheReset = true) → exec (.jobReset acc) s = .next s) ∧
    (s.holds acc.port.val = true → s.accessBits acc Reg.RST_CTL_WARM = 0 → s.accessBits acc Reg.RST_CTL_TOWER = 0 →
      s.step = none → s.urgentRuns = [] → s.rd Reg.MGT_STATUS_PHASE = 8 → (∀ t < 4, (s.tower t).cacheReset = false) →
      Completes (.jobReset acc) s fun u =>
        u.sync = [] ∧ (∀ c, (u.core c).jobs = [] ∧ (u.core c).bindings = [] ∧
          ∀ a, u.arr c a = { file := (u.arr c a).file } ∧ (s.noneEntering → (u.arr c a).file = (s.arr c a).file)) ∧
          (∀ r ∈ s.regions, (r.cls = 2 ∨ r.cls = 3) → ∀ i < r.count, (u.page (r.page + i)).state = .empty) ∧
          u.rd Reg.RST_CAUSE_KIND = 4 ∧ u.rd Reg.RST_CAUSE_CAUSE = 4 ∧
          u.rd Reg.RST_CNT_JOB = satAdd 16 (s.rd Reg.RST_CNT_JOB) 1 ∧ u.units = s.units ∧ u.regions = s.regions ∧
          (∀ b < 4, (u.brimRed b).passed = []) ∧ u.sleepSettled ∧ u.boot = s.boot ∧ u.pending = s.pending ∧
          (s.noneEntering → u.mem = s.mem ∧ u.poison = s.poison ∧ u.fabric = { s.fabric with brims := u.fabric.brims } ∧
            ResetsFields s u .J (inBlocks jobBlocks)
              (logFields ++ [Reg.RST_CAUSE_KIND, Reg.RST_CAUSE_CAUSE, Reg.RST_CAUSE_SEQ, Reg.RST_CNT_JOB]))) ∧
    (s.holds acc.port.val = false ∨ s.step.isSome = true ∨ s.urgentRuns ≠ [] →
      Completes (.jobReset acc) s fun u => Rejected s u acc.port 0x600000)

/-- Power-on reset (R442, R443, R480, R486). Boot within one step is log entry 25's choice; that storage reads as zero afterwards is log
entry 7's. -/
def Obligations.PowerOnResetBoots : Prop :=
  (∀ (facts : BootFacts) (s : State), Completes (.powerOnReset facts) s fun u => AfterPowerOn s u facts 6) ∧
    ∀ (facts : BootFacts) (s : State), Completes (.supplyBelowResetLevel 9 facts) s fun u => AfterPowerOn s u facts 1

/-- Package standby (R484, R487). That RST_LP.STANDBY, the request, may outlast the standby across a warm reset is the reading of log
entry 26. -/
def Obligations.PackageStandbyEntersAndLeaves : Prop :=
  ∀ (acc : RegAccess) (s : State), s.postedHolder acc.port.val = none → s.bar0Open 0x600008 = true →
    let on := s.accessVal acc 0x600008 Reg.RST_LP_STANDBY
    let kept (u : State) : Prop := u = { s with flds := u.flds, latch := u.latch, towers := u.towers } ∧
      (∀ t, { u.tower t with idle := (s.tower t).idle } = s.tower t) ∧
      SameFields s u [Reg.RST_LP_SLEEP_MS, Reg.RST_LP_SLEEP_EN, Reg.RST_LP_STANDBY] ∧ u.rd Reg.RST_LP_STANDBY = on
    (s.holds acc.port.val = true →
      (on = 1 → s.standby = false → s.rd Reg.SHP_STATUS_STATE = 0 →
        (∀ p < 2, ∀ c < 8, Sparse.get none (s.host p).dma c = none) →
        Completes (.packageStandbyEntry acc) s fun u =>
          u.rd Reg.RST_LP_STANDBY = 1 ∧ u.standby = true ∧ (s.held = [] → u.sync = []) ∧ ∀ t < 4, (u.tower t).sleep ≠ .awake) ∧
      (on = 1 → s.standby = true → Completes (.packageStandbyEntry acc) s kept) ∧
      (on = 0 → s.standby = true → Completes (.packageStandbyExit acc) s fun u =>
        u.rd Reg.RST_LP_STANDBY = 0 ∧ u.standby = false ∧
          ∀ t < 4, (u.tower t).sleep = .awake ∨ (u.tower t).sleep = .leaving) ∧
      (on = 0 → s.standby = false → Completes (.packageStandbyExit acc) s kept)) ∧
    (on = 1 → s.holds acc.port.val = false ∨ (s.standby = false ∧ (s.rd Reg.SHP_STATUS_STATE ≠ 0 ∨
        ∃ p < 2, ∃ c < 8, ∃ j, Sparse.get none (s.host p).dma c = some j)) →
      Completes (.packageStandbyEntry acc) s fun u => Rejected s u acc.port 0x600008) ∧
    (on = 0 → s.holds acc.port.val = false →
      Completes (.packageStandbyExit acc) s fun u => Rejected s u acc.port 0x600008)

/-- Resets of a die's logic (R22, R23, R498). -/
def Obligations.DieResetsHoldRequests : Prop :=
  (∀ (t : Tower) (h : Horizon) (s : State), h.val ∉ (s.tower t.val).horizonReset →
      Completes (.singleHorizonLogicReset t h) s fun u =>
        u = { s with towers := u.towers } ∧ h.val ∈ (u.tower t.val).horizonReset ∧
          { u.tower t.val with horizonReset := (s.tower t.val).horizonReset } = s.tower t.val ∧
          (∀ n, n ≠ t.val → u.tower n = s.tower n) ∧
          ∀ o a, s.dieOf a = some (t.val, .horizon h.val) → (s.tower t.val).cacheReset = false →
            (s.tower t.val).sleep = .awake → (s.tower t.val).trained = true → u.holderOf o a = some (.horizon t.val h.val)) ∧
    (∀ (t : Tower) (h : Horizon) (s : State), h.val ∈ (s.tower t.val).horizonReset →
      (s.horizonsUnpowered = true → exec (.horizonResetEnds t h) s = .next s) ∧
      (s.horizonsUnpowered = false → (∀ r ∈ s.held, r.holder ≠ .horizon t.val h.val) →
        Completes (.horizonResetEnds t h) s fun u =>
          u = { s with towers := u.towers, tiers := u.tiers } ∧ h.val ∉ (u.tower t.val).horizonReset ∧
            (∀ e ∈ (u.tower t.val).refreshDue, e.1 / 64 ≠ h.val) ∧
            (∀ c n, (s.tower t.val).refreshDue = [(c, n)] → c / 64 = h.val →
              Sparse.get 0 (u.tier t.val).refreshes c = Sparse.get 0 (s.tier t.val).refreshes c + n)) ∧
      ∀ o p tag a len, s.horizonsUnpowered = false → Waits s (.horizon t.val h.val) o p tag a len →
        Completes (.horizonResetEnds t h) s fun u => ServedRead s u p tag a len) ∧
    ∀ (t : Tower) (s : State), (s.tower t.val).cacheReset = true →
      (s.cacheUnpowered t.val = true → exec (.cacheDieLeavesReset t) s = .next s) ∧
      (s.cacheUnpowered t.val = false → (∀ r ∈ s.held, r.holder ≠ .cacheDie t.val) →
        Completes (.cacheDieLeavesReset t) s fun u => u = { s with towers := u.towers } ∧
          u.tower t.val = { s.tower t.val with cacheReset := false } ∧ ∀ n, n ≠ t.val → u.tower n = s.tower n) ∧
      ∀ o p tag a len, s.cacheUnpowered t.val = false → Waits s (.cacheDie t.val) o p tag a len → (s.tower t.val).sleep = .awake →
        (s.tower t.val).trained = true → (s.tower t.val).horizonReset = [] →
        Completes (.cacheDieLeavesReset t) s fun u => ServedRead s u p tag a len

/-- Tower sleep (R25, R26, R480, R484, R485). What the drain loses reads as zero by log entry 7's choice. -/
def Obligations.TowerSleepLosesTheNearTier : Prop :=
  ∀ (t : Tower) (s : State),
    (s.maySleep t.val = true → Completes (.towerIdle t) s fun u =>
      u = { s with towers := u.towers } ∧ u.tower t.val = { s.tower t.val with idle := true } ∧
        ∀ n, n ≠ t.val → u.tower n = s.tower n) ∧
    (∀ a n, let u := s.countAccess a n
      u = { s with towers := u.towers } ∧ ∀ k < 4, u.tower k =
        if (rangeWords a n).any (fun w => (s.place w).inTiers k) then { s.tower k with idle := false } else s.tower k) ∧
    ((s.tower t.val).idle = true → s.maySleep t.val = true → Completes (.towerSleepEntry t) s fun u =>
      (u.tower t.val).sleep = .entering ∧ (u.tower t.val).idle = false ∧
        ((s.tower t.val).horizonReset = [] → (s.tower t.val).cacheReset = false → ∀ n, n ≠ t.val → u.tower n = s.tower n) ∧
        (∀ c < 144, u.core (144 * t.val + c) = {}) ∧
        ∀ o a e, u.dieOf a = some (t.val, e) → ¬(e = .crown ∧ origInCrown o = true ∧ origTower o = t.val) →
          (s.tower t.val).cacheReset = false → u.holderOf o a = some (.sleep t.val)) ∧
    (s.canonical → (s.tower t.val).sleep = .entering → Completes (.drainEnd t) s fun u =>
      (u.tower t.val).sleep = (if s.sleepHeld t.val then .leaving else .asleep) ∧ (u.tower t.val).trained = false ∧ (∀ n, n ≠ t.val → u.tower n = s.tower n) ∧
        (∀ k < 0x30000000, u.byteAt (nearKey t.val k) = 0) ∧
        (∀ c < 144, ∀ k < 0x100000, u.byteAt (sramKey (144 * t.val + c) k) = 0) ∧
        (∀ k < 0x4000000000, u.byteAt k = s.byteAt k) ∧
        (∀ o, u.obj o = if o / 32768 = t.val then 0 else s.obj o) ∧ u.crown t.val = {} ∧ Sparse.get {} u.upd t.val = {} ∧
        Logs s u .lowPowerEntry (source t.val 0 0) [] ∧
        ResetsFields s u .S (inTower t.val) logFields) ∧
    ((s.tower t.val).sleep = .entering → (∀ r ∈ s.held, r.holder ≠ .sleep t.val) →
      Completes (.sleepEntryAbandoned t) s fun u =>
        u.tower t.val = { s.tower t.val with sleep := .awake } ∧ (∀ n, n ≠ t.val → u.tower n = s.tower n) ∧
          Records { s with towers := u.towers } u .sleepEntryAbandoned (source t.val 0 0) [] []) ∧
    ((s.tower t.val).sleep = .asleep → Completes (.towerSleepExit t) s fun u =>
      u = { s with towers := u.towers } ∧ u.tower t.val = { s.tower t.val with sleep := .leaving, trained := false } ∧
        ∀ n, n ≠ t.val → u.tower n = s.tower n) ∧
    ((s.tower t.val).sleep = .leaving → (∀ r ∈ s.held, r.holder ≠ .sleep t.val) →
      Completes (.laneTrainingComplete t) s fun u =>
        u.tower t.val = { s.tower t.val with sleep := .awake, trained := true } ∧ (∀ n, n ≠ t.val → u.tower n = s.tower n) ∧
          Records { s with towers := u.towers } u .lowPowerExit (source t.val 0 0) [] []) ∧
    ∀ o p tag a len, (s.tower t.val).sleep = .leaving → Waits s (.sleep t.val) o p tag a len →
      (s.tower t.val).horizonReset = [] → Completes (.laneTrainingComplete t) s fun u => ServedRead s u p tag a len

/-- The loss of a through domain and its one restoration (R28 to R32, R253). -/
def Obligations.LostDomainsLoseTheirPaths : Prop :=
  ∀ (t : Tower) (p : Fin 7) (s : State), (s.tower t.val).sleep ≠ .asleep ∨ p.val = 0 →
    (p.val ∉ (s.tower t.val).lost → p.val ∉ (s.tower t.val).lostOnce → s.held = [] → ∀ cuts,
      Completes (.throughDomainLost t p cuts) s fun u =>
        p.val ∈ (u.tower t.val).lost ∧ p.val ∈ (u.tower t.val).lostOnce ∧ (u.tower t.val).staysOff = (s.tower t.val).staysOff ∧
          Logs s u .throughDomainLost (source t.val p.val 1) [] ∧
          (∀ o a, (t.val, p.val) ∈ u.domains o a → u.pathLost o a = true) ∧
          ((∀ c ∈ cuts, c.outcome = .old ∨ (t.val, p.val) ∉ s.domains c.orig c.addr) →
            u.mem = s.mem ∧ u.poison = s.poison) ∧
          (∀ c, cuts = [c] → (t.val, p.val) ∈ s.domains c.orig c.addr → c.outcome = .new → s.pages = [] →
            u.mem = (s.writeBytes c.addr (c.data.map some)).mem ∧ u.poison = (s.writeBytes c.addr (c.data.map some)).poison) ∧
          (∀ c, cuts = [c] → (t.val, p.val) ∈ s.domains c.orig c.addr → c.outcome = .poison → s.pages = [] →
            s.failedWords c.addr c.data.length = [] →
            ∀ i < c.data.length, ∀ k, s.keyOf (c.addr + i) = some k → u.poisoned k = true) ∧
          ∀ c q b tag, cuts = [c] → (t.val, p.val) ∈ s.domains c.orig c.addr → c.sink = .fabric b q tag →
            Sent s u b.val q 0x82 (leBytes 2 tag ++ [0, 0, 1]) [] []) ∧
    (p.val ∉ (s.tower t.val).lost → p.val ∈ (s.tower t.val).lostOnce → s.held = [] →
      Completes (.throughDomainLost t p []) s fun u =>
        p.val ∈ (u.tower t.val).lost ∧ p.val ∈ (u.tower t.val).staysOff ∧ (p.val ≠ 0 → (u.tower t.val).isolated = true)) ∧
    (p.val ∈ (s.tower t.val).lost → p.val ∉ (s.tower t.val).staysOff →
      (Completes (.throughDomainRestore t p true) s fun u =>
        p.val ∉ (u.tower t.val).lost ∧ { u.tower t.val with lost := (s.tower t.val).lost } = s.tower t.val ∧
          Records { s with towers := u.towers, tiers := u.tiers } u .throughDomainRestored (source t.val p.val 1) [] [] ∧
          (∀ pg, pg ∈ u.homeLostPages t.val → ∃ m ∈ (u.tier t.val).queue, m.page = pg) ∧
          (s.homeLostPages t.val = [] → u.tiers = s.tiers)) ∧
      Completes (.throughDomainRestore t p false) s fun u =>
        p.val ∈ (u.tower t.val).lost ∧ p.val ∈ (u.tower t.val).staysOff ∧
          (p.val ≠ 0 → (u.tower t.val).isolated = true) ∧ u.mem = s.mem)

/-- Silt frames received (R34 to R36). That a DEST which names another tower is routed by its position code is the choice of log entry
20, and so is what the channel carries in recovery. -/
def Obligations.SiltFramesAreAcknowledged : Prop :=
  ∀ (t : Tower) (p : Pos) (dir : SiltDir) (f : List Byte) (s : State),
    let ack := Out.silt t.val p.val (siltBack dir)
      (siltFrame (siltAddr t.val (siltNext p.val (siltBack dir))) (siltAddr t.val p.val) 6 [])
    let here := fieldNat f 0 1 % 32 = siltAddr t.val p.val
    let onward : SiltDir := if p.val < fieldNat f 0 1 % 8 then .up else .down
    (s.rd Reg.MGT_STATUS_PHASE < 8 ∨ (s.tower t.val).untrained = true → s.siltCarries t.val f = true) ∧
    (s.rd Reg.MGT_STATUS_PHASE = 8 → s.boot.siltTest = false → (s.tower t.val).untrained = false → s.siltOnly t.val (fieldNat f 0 1 % 8) = false →
      s.siltOnly t.val (fieldNat f 1 1 % 8) = false → s.siltOpen t.val f = false) ∧
    (siltOk f = true → s.siltCarries t.val f = true →
      (∀ c ∈ [(Instr.siltRegisterWrite t p dir f, 2), (Instr.siltReadResponse t p dir f, 3), (Instr.siltBulkData t p dir f, 4),
          (Instr.siltLogRecord t p dir f, 5)], fieldNat f 2 1 = c.2 → here → Completes c.1 s fun u =>
        u = { s with outbox := s.outbox ++ [ack]
                     siltTaken := s.siltTaken ++ [(siltAddr t.val p.val, (f.drop 4).take (fieldNat f 3 1))] }) ∧
      (fieldNat f 2 1 = 1 → here → Completes (.siltRegisterRead t p dir f) s fun u =>
        ack ∈ u.outbox ∧ u.siltTaken = s.siltTaken ∧ u = { s with outbox := u.outbox, silt := u.silt, fresh := s.fresh + 1 } ∧
          let back : SiltDir := if p.val < fieldNat f 1 1 % 8 then .up else .down
          ∃ g, (some g = (u.siltSender t.val p.val back).waiting ∨ g ∈ (u.siltSender t.val p.val back).queue) ∧
            siltOk g = true ∧ fieldNat g 0 1 = fieldNat f 1 1 ∧ fieldNat g 1 1 = siltAddr t.val p.val ∧ fieldNat g 2 1 = 3) ∧
      (∀ c ∈ [(Instr.siltRegisterRead t p dir f, 1), (Instr.siltRegisterWrite t p dir f, 2),
          (Instr.siltReadResponse t p dir f, 3), (Instr.siltBulkData t p dir f, 4), (Instr.siltLogRecord t p dir f, 5)],
        fieldNat f 2 1 = c.2 → ¬here → Completes c.1 s fun u =>
          u = { s with outbox := u.outbox, silt := u.silt } ∧
            ((s.siltSender t.val p.val onward).waiting = none →
              u.outbox = s.outbox ++ [ack, .silt t.val p.val onward f] ∧
                (u.siltSender t.val p.val onward).waiting = some f) ∧
            (∀ w, (s.siltSender t.val p.val onward).waiting = some w →
              u.outbox = s.outbox ++ [ack] ∧
                u.siltSender t.val p.val onward = { s.siltSender t.val p.val onward with
                  queue := (s.siltSender t.val p.val onward).queue ++ [f] }))) ∧
    (siltOk f = true → s.siltOpen t.val f = true →
      (fieldNat f 2 1 = 0 ∨ 7 ≤ fieldNat f 2 1 → Completes (.reservedTypeFrame t p dir f) s fun u =>
        u = { s with outbox := s.outbox ++ [ack] }) ∧
      (s.siltCarries t.val f = false →
        ∀ c ∈ [(Instr.siltRegisterRead t p dir f, 1), (Instr.siltRegisterWrite t p dir f, 2),
            (Instr.siltReadResponse t p dir f, 3), (Instr.siltBulkData t p dir f, 4), (Instr.siltLogRecord t p dir f, 5)],
          fieldNat f 2 1 = c.2 → Completes c.1 s fun u => u = { s with outbox := s.outbox ++ [ack] })) ∧
    (siltOk f = false ∨ s.siltOpen t.val f = false → ∀ c ∈ [Instr.siltRegisterRead t p dir f, Instr.siltRegisterWrite t p dir f,
        Instr.siltReadResponse t p dir f, Instr.siltBulkData t p dir f, Instr.siltLogRecord t p dir f,
        Instr.reservedTypeFrame t p dir f], exec c s = .next s) ∧
    (siltOk f = false → exec (.siltAcknowledge t p dir f) s = .next s)

/-- The sending side of a silt link (R36). -/
def Obligations.SiltSendersResendEightTimes : Prop :=
  ∀ (t : Tower) (p : Pos) (dir : SiltDir) (f w : List Byte) (s : State),
    (siltOk f = true → fieldNat f 2 1 = 6 → (s.siltSender t.val p.val (siltBack dir)).waiting = some w →
      Completes (.siltAcknowledge t p dir f) s fun u =>
        u = { s with silt := u.silt, outbox := u.outbox } ∧
          match (s.siltSender t.val p.val (siltBack dir)).queue with
          | [] => u.siltSender t.val p.val (siltBack dir) = {} ∧ u.outbox = s.outbox
          | g :: r => u.siltSender t.val p.val (siltBack dir) = { waiting := some g, resends := 0, queue := r } ∧
            u.outbox = s.outbox ++ [.silt t.val p.val (siltBack dir) g]) ∧
    ((s.siltSender t.val p.val dir).waiting = some w →
      ((s.siltSender t.val p.val dir).resends < 8 → Completes (.siltAckTimeout t p dir) s fun u =>
        u = { s with silt := u.silt, outbox := s.outbox ++ [.silt t.val p.val dir w] } ∧
          u.siltSender t.val p.val dir = { s.siltSender t.val p.val dir with
            resends := (s.siltSender t.val p.val dir).resends + 1 }) ∧
      (8 ≤ (s.siltSender t.val p.val dir).resends → (s.siltSender t.val p.val dir).queue = [] →
        Completes (.siltAckTimeout t p dir) s fun u =>
          Records { s with silt := u.silt } u .siltLinkFailure (source t.val p.val 0) [] [] ∧
            u.siltSender t.val p.val dir = {}))

/-- Bridges (R38, R39). That diagonal traffic whose relay needs the failed bridge takes the other relay is the choice of log entry 20. -/
def Obligations.BridgeFailureReroutes : Prop :=
  ∀ (b : Fin 4) (s : State),
    (b.val ∉ s.bridgesFailed → Completes (.bridgeFailure b) s fun u =>
      Records { s with bridgesFailed := s.bridgesFailed ++ [b.val] } u .bridgeFailure
        (source (bridgeTowers b.val).1 0 1) [] [] ∧
        (s.bridgesFailed = [] → ∀ x < 4, ∀ y < 4, x ≠ y → ∀ k < 2,
          let r := u.route x y k
          r.head? = some x ∧ r.getLast? = some y ∧ r.Nodup ∧ (r.zip r.tail).all (fun e => u.bridgeOk e.1 e.2) = true)) ∧
    (b.val ∈ s.bridgesFailed → exec (.bridgeFailure b) s = .next s)

/-- Array commands that fail to decode (R93, R132, R145). -/
def Obligations.BadArrayCommandsAreDiscarded : Prop :=
  ∀ (c : Core) (a : Arr) (e : ArrEntry) (s : State), AtHead s c.val a e none →
    ((s.arr c.val a).stream.any (·.next == 0)) = false → (∀ th, (s.thr c.val th).ops = []) →
    ∀ i ∈ [Instr.load c a [], .swap c a, .stream c a, .drain c a [], .qparam c a],
      bits e.word 63 60 = (match i with
        | .load .. => 1
        | .swap .. => 2
        | .stream .. => 3
        | .drain .. => 4
        | _ => 5) →
      Completes i s fun u =>
        Records { s with cores := u.cores } u .arrayCommandError (coreSource c.val) [pv2 c.val] [] ∧
          OnlyArr s u c.val a ∧
          u.arr c.val a = ({ s.arr c.val a with fill := (s.arr c.val a).fill.filter (!·.ahead) } : ArraySt).pop

/-- Zero points, loads and swaps (R89 to R91, R146). -/
def Obligations.ZeroPointsAndStationaries : Prop :=
  ∀ (c : Core) (a : Arr) (e : ArrEntry) (s : State),
    (∀ zsEn zaEn zs za, AtHead s c.val a e (some (.qparam (arrBit a) zsEn zaEn zs za)) →
      Completes (.qparam c a) s fun u =>
        u = { s with cores := u.cores, flds := u.flds } ∧ OnlyArr s u c.val a ∧ u.arr c.val a = (s.arr c.val a).pop ∧
          u.zpGet c.val a = [zaEn, za, zsEn, zs] ∧
          SameFields s u [(zpFlds c.val a).1, (zpFlds c.val a).2.1, (zpFlds c.val a).2.2.1, (zpFlds c.val a).2.2.2]) ∧
    (∀ fmt part tr crows ccols base stride mxs f cls,
      let cmd := ArrCmd.load (arrBit a) fmt part tr crows ccols base stride mxs
      let reg := s.cmdReg c.val e
      AtHead s c.val a e (some cmd) → loadOk a (reg stride) cmd = true → Fmt.ofCode fmt = some f → fmtClass f = some cls →
      ((s.arr c.val a).shadowValid = true ∨ (s.arr c.val a).loading.isSome = true ∨ (s.arr c.val a).saving = true ∨
        (s.arr c.val a).preempting = true → exec (.load c a []) s = .next s) ∧
      ((s.arr c.val a).shadowValid = false → (s.arr c.val a).loading = none → (s.arr c.val a).saving = false →
        (s.arr c.val a).preempting = false →
      (∀ r ∈ loadRanges cmd [reg base, reg stride, reg mxs, reg (base + 1)], CleanSram s c.val r.1 r.2) →
      Completes (.load c a []) s fun u =>
        u = { s with cores := u.cores } ∧ OnlyArr s u c.val a ∧
          ∃ st, u.arr c.val a = { (s.arr c.val a).pop with loading := some st } ∧ st.cmd = cmd ∧ st.fmt = f ∧ st.cls = cls ∧
            st.crows = crows ∧ st.elems.length = arrRows a * perWord cls ∧
            (∀ i n, i < arrRows a * perWord cls → n < 64 → crows * perWord cls ≤ i ∨ ccols ≤ n →
              (st.elems.getD i []).getD n none = some (.fin false 0 0)) ∧
            (f.width = 8 → tr = 0 → ∀ i < crows * perWord cls, ∀ n < ccols,
              let el (b : Nat) : Val := (s.readByte (b + n * reg stride + i)).map fun x => edgeVal f part (s.zs c.val a) x.toNat
              (st.elems.getD i []).getD n none =
                (if part = 3 then gaussSum f (el (reg base)) (el (reg (base + 1))) else el (reg base))) ∧
            (f.isMx = true → ∀ n < ccols, ∀ b < crows * perWord cls / 32, ((st.scales.getD n []).getD b 0) =
              ((s.readByte (reg mxs + n * (reg stride / blockBytes f) + b)).getD 0).toNat))) ∧
    (∀ st, (s.arr c.val a).loading = some st → s.power.stopped = false → Completes (.shadowValid c a) s fun u =>
      u = { s with cores := u.cores } ∧ OnlyArr s u c.val a ∧
        u.arr c.val a = { s.arr c.val a with loading := none, shadow := some st, shadowValid := true }) ∧
    (AtHead s c.val a e (some (.swap (arrBit a))) →
      ((s.arr c.val a).loading = none → (s.arr c.val a).stream = none → Completes (.swap c a) s fun u =>
        u = { s with cores := u.cores } ∧ OnlyArr s u c.val a ∧
          u.arr c.val a = ({ s.arr c.val a with live := (s.arr c.val a).shadow, shadow := (s.arr c.val a).live
                                                shadowValid := false } : ArraySt).pop) ∧
      ((s.arr c.val a).loading.isSome = true ∨ (s.arr c.val a).stream.isSome = true → exec (.swap c a) s = .next s))

/-- STREAM, TRANSPOSE_FILL, WORK_ROW and FILLER_ROW (R81, R82, R85, R101, R115, R199 to R201). -/
def Obligations.StreamsIssueTheirRows : Prop :=
  ∀ (c : Core) (a : Arr) (e : ArrEntry) (s : State), s.power.stopped = false →
    (∀ fmt part tr first neg dual rows tile tile2 neg2 base stride mxs,
      let cmd := ArrCmd.stream (arrBit a) fmt part tr first neg dual rows tile tile2 neg2 base stride mxs
      let reg := s.cmdReg c.val e
      AtHead s c.val a e (some cmd) → s.streamOk c.val a (reg stride) (reg mxs) cmd = true →
      ((s.arr c.val a).stream.isSome = true ∨ (s.arr c.val a).preempting = true → exec (.stream c a) s = .next s) ∧
      ((s.arr c.val a).stream = none → (s.arr c.val a).preempting = false → Completes (.stream c a) s fun u =>
        u = { s with cores := u.cores } ∧ OnlyArr s u c.val a ∧ ∃ x : StreamSt, u.arr c.val a = { s.arr c.val a with stream := some x } ∧ x.cmd = cmd ∧
          x.thread = e.thread ∧ x.base = reg base ∧ x.stride = reg stride ∧ x.mxs = reg mxs ∧ x.base2 = reg (base + 1) ∧
          x.za = s.za c.val a ∧ x.next = 0)) ∧
    (∀ j i, let y := (s.arr c.val a).dropBlocks
      let n := min 64 (j.rows - 64 * i)
      (s.setArr c.val a y).fillNext c.val a = some (j, i) →
      (∀ m < j.ks, CleanSram s c.val (j.base + m * j.stride) (((64 * i + n) * j.fmt.width + 7) / 8)) →
      (j.part = 3 → ∀ m < j.ks, CleanSram s c.val (j.base2 + m * j.stride) (((64 * i + n) * j.fmt.width + 7) / 8)) →
      Completes (.transposeFill ⟨c, a⟩ []) s fun u =>
        u = { s with cores := u.cores } ∧ OnlyArr s u c.val a ∧ ∃ b : FillBlock,
          u.arr c.val a = { y with fill := y.fill ++ [b] } ∧ b.ahead = j.ahead ∧ b.index = i ∧ b.rows.length = j.ks ∧
          (j.fmt.width = 8 → ∀ m < j.ks, ∀ k < n, (b.rows.getD m []).getD k none =
            (s.readByte (j.base + m * j.stride + 64 * i + k)).map (·.toNat)) ∧
          (j.fmt.width = 8 → j.part = 3 → ∀ m < j.ks, ∀ k < n, (b.rows2.getD m []).getD k none =
            (s.readByte (j.base2 + m * j.stride + 64 * i + k)).map (·.toNat))) ∧
    (∀ x st fmt part tr first neg dual rows tile tile2 neg2 base stride mxs f,
      (s.arr c.val a).stream = some x → (s.arr c.val a).live = some st →
      x.cmd = .stream (arrBit a) fmt part tr first neg dual rows tile tile2 neg2 base stride mxs → Fmt.ofCode fmt = some f →
      (s.arr c.val a).workReady = true → (s.arr c.val a).fuller.mayIssue = true → Tidy (s.arr c.val a) →
      let row := readStreamRow c x f part (innerLen a st) x.next (if tr = 1 then (s.arr c.val a).blockFor x else none)
        { s, met := x.met }
      row.2.2.fault = false → row.2.2.held = false → row.2.2.s = s →
      Completes (.workRow c a [] []) s fun u =>
        u.mem = s.mem ∧ u.poison = s.poison ∧ OnlyCore s u c.val ∧
          u.rd (cntWork c.val a) = (s.rd (cntWork c.val a) + 1) % 2 ^ 40 ∧ SameFields s u [cntWork c.val a] ∧
          (u.arr c.val a).live = (s.arr c.val a).live ∧ (u.arr c.val a).shadow = (s.arr c.val a).shadow ∧
          (u.arr c.val a).queue = (if x.next = 0 then (s.arr c.val a).pop.queue else (s.arr c.val a).queue) ∧
          (if x.next + 1 ≥ rows then (u.arr c.val a).stream = none
           else ((u.arr c.val a).stream.map (·.next)) = some (x.next + 1))) ∧
    (∀ delayed, (s.arr c.val a).fuller.mayIssue = true → ((s.arr c.val a).workReady = false ∨ delayed = true) →
      Completes (.fillerRow ⟨c, a⟩ delayed) s fun u =>
        u = { s with cores := u.cores, flds := u.flds } ∧ OnlyArr s u c.val a ∧
          u.arr c.val a = { s.arr c.val a with fuller := (u.arr c.val a).fuller } ∧
          u.rd (cntFill c.val a) = (s.rd (cntFill c.val a) + 1) % 2 ^ 24 ∧
          ((s.arr c.val a).swapPending = false → SameFields s u [cntFill c.val a]) ∧
          ((s.arr c.val a).swapPending = true →
            u.rd (cntStall c.val a) = (s.rd (cntStall c.val a) + 1) % 2 ^ (cntStall c.val a).width ∧
              SameFields s u [cntFill c.val a, cntStall c.val a]) ∧
          ((s.arr c.val a).fuller.phase = .full → (u.arr c.val a).fuller.phase = .hold))

/-- What a row does to the file (R82, R117, R123 to R126). -/
def Obligations.RowsAccumulateColumnByColumn : Prop :=
  (∀ (y : ArraySt) (sl : Slot) (st : Stationary) (x : StreamSt) (ccols row : Nat) (first neg loA mx : Bool) (xs : List Val)
      (sc : List (Option Nat)), ccols ≤ 64 →
      let z := (tileRow y sl st x ccols row first neg loA mx xs sc).1
      let at_ (n : Nat) : Nat := sl.base * 1024 + (64 * row + n) * sl.width
      z = { y with file := z.file } ∧
        (∀ n < ccols, let i := columnInput sl st x loA mx xs sc n
          z.accGet (at_ n) sl.width = ((accStep sl.mode first neg (y.accGet (at_ n) sl.width) i.1 i.2).1.map
            (· % 256 ^ sl.width))) ∧
        ∀ k, k < at_ 0 ∨ at_ ccols ≤ k → Sparse.get (some 0) z.file k = Sparse.get (some 0) y.file k) ∧
    ∀ (first neg : Bool) (old : Nat) (ts : List Machine.Num),
      let t := ((if neg then ts.map Machine.Num.neg else ts).map Machine.Num.toInt).sum
      let v := if first then t else signed 40 old + t
      (sumStep 1 first neg old ts).1 = wrapInt 40 (max (-(2 ^ 39)) (min (2 ^ 39 - 1) v)) ∧
        ((sumStep 1 first neg old ts).2 = true ↔ v < -(2 ^ 39) ∨ 2 ^ 39 - 1 < v)

/-- The fuller (R101 to R105, R109, R114). -/
def Obligations.FullersRampInStepsUnderQuotas : Prop :=
  (∀ (c : Core) (a : Arr) (s : State), s.power.stopped = false →
    let f := (s.arr c.val a).fuller
    ((s.arr c.val a).workReady = true → f.phase = .idle → f.granted = false → Completes (.upSlotRequest c a) s fun u =>
      u = { s with cores := u.cores, crowns := u.crowns } ∧ OnlyArr s u c.val a ∧ (u.arr c.val a).fuller.phase = .waitUp ∧
        ∃ q, (u.crown (crownOf c.val)).requests = (s.crown (crownOf c.val)).requests ++ [q] ∧ q.core = c.val ∧ q.arr = a ∧
          q.up = true) ∧
    ((s.arr c.val a).workReady = true → f.phase = .rampDown → Completes (.upSlotRequest c a) s fun u =>
      u = { s with cores := u.cores, crowns := u.crowns } ∧ OnlyArr s u c.val a ∧
        (u.arr c.val a).fuller = { f with phase := .waitUp } ∧
        ∃ q, (u.crown (crownOf c.val)).requests = (s.crown (crownOf c.val)).requests ++ [q] ∧ q.core = c.val ∧ q.arr = a ∧
          q.up = true) ∧
    (f.phase = .hold → (s.crown (crownOf c.val)).holdCycles ≤ f.held → Completes (.downSlotRequest c a) s fun u =>
      u = { s with cores := u.cores, crowns := u.crowns } ∧ OnlyArr s u c.val a ∧ (u.arr c.val a).fuller.phase = .waitDown ∧
        (u.crown (crownOf c.val)).requests = (s.crown (crownOf c.val)).requests ++ [⟨c.val, a, false, false⟩]) ∧
    (∀ hold, f.granted = true → f.later = false → f.phase = .waitUp ∨ f.phase = .waitDown →
      Completes (.rampStep ⟨c, a⟩ hold) s fun u =>
        u = { s with cores := u.cores } ∧ OnlyArr s u c.val a ∧ (u.arr c.val a).fuller.granted = false ∧
          (f.phase = .waitUp → (u.arr c.val a).fuller.phase = .rampUp ∧ (u.arr c.val a).fuller.step = f.step + 1) ∧
          (f.phase = .waitDown → (u.arr c.val a).fuller.phase = .rampDown ∧ (u.arr c.val a).fuller.step = f.step - 1)) ∧
    (∀ hold, f.granted = false → f.phase = .rampUp → f.stepOver = true → f.step < 8 → Completes (.rampStep ⟨c, a⟩ hold) s fun u =>
      u = { s with cores := u.cores } ∧ OnlyArr s u c.val a ∧ (u.arr c.val a).fuller.step = f.step + 1 ∧
        (u.arr c.val a).fuller.phase = .rampUp) ∧
    (∀ hold, f.granted = false → f.phase = .rampDown → (s.arr c.val a).workReady = true →
      exec (.rampStep ⟨c, a⟩ hold) s = .next s) ∧
    (∀ hold, f.granted = false → f.phase = .rampDown → f.stepOver = true → 0 < f.step → (s.arr c.val a).workReady = false →
      Completes (.rampStep ⟨c, a⟩ hold) s fun u =>
      u = { s with cores := u.cores } ∧ OnlyArr s u c.val a ∧ (u.arr c.val a).fuller.step = f.step - 1 ∧
        (u.arr c.val a).fuller.phase = .rampDown) ∧
    (f.phase = .rampUp → f.stepOver = true → f.step = 8 → Completes (.rampEnd c a) s fun u =>
      u = { s with cores := u.cores, crowns := u.crowns } ∧ OnlyArr s u c.val a ∧ (u.arr c.val a).fuller.phase = .full ∧
        ∀ n, { u.crown n with starting := (s.crown n).starting } = s.crown n) ∧
    (f.phase = .rampDown → f.stepOver = true → f.step = 0 → (s.arr c.val a).workReady = false → Completes (.rampEnd c a) s fun u =>
      u = { s with cores := u.cores } ∧ OnlyArr s u c.val a ∧ (u.arr c.val a).fuller = {})) ∧
  (∀ (n : Tower) (elapsed : Bool) (s : State), s.power.stopped = false → Completes (.slotBoundary n elapsed) s fun u =>
    (u.crown n.val).upQuota = s.rd (Reg.CRN_FULLER_CFG_UP_QUOTA n.val) ∧
      (u.crown n.val).downQuota = s.rd (Reg.CRN_FULLER_CFG_DOWN_QUOTA n.val) ∧
      (u.crown n.val).holdCycles = s.rd (Reg.CRN_FULLER_CFG_HOLD n.val) ∧
      (∀ q ∈ (u.crown n.val).requests, q ∈ (s.crown n.val).requests) ∧ u.mem = s.mem ∧ u.sync = s.sync ∧
      ∀ l < 144, ∀ a, let y := s.arr (144 * n.val + l) a
        y.fuller.phase = .waitDown → 8 ≤ y.fuller.step → y.fuller.granted = false → y.workReady = true →
          (u.arr (144 * n.val + l) a).fuller.phase = .full ∧
            ∀ q ∈ (u.crown n.val).requests, ¬(q.core = 144 * n.val + l ∧ q.arr = a)) ∧
  (∀ (held : List Nat) (reqs : List SlotReq) (nu nd : Nat),
    let g := grants held reqs [] [] nu nd
    g.Sublist reqs ∧ ((g.filter (·.up)).map (·.core)).eraseDups.length ≤ nu ∧
      ((g.filter (!·.up)).map (·.core)).eraseDups.length ≤ nd ∧ ∀ q ∈ g, q.up = true → q.core ∉ held) ∧
  ∀ (n : Tower) (acc : RegAccess) (s : State), acc.part ≠ .upper → s.reaches acc.port (0x1000100 + n.val * 0x400000) = true →
    s.holds acc.port.val = true → Completes (.crnFullerCfgWrite n acc) s fun u =>
      u.rd (Reg.CRN_FULLER_CFG_UP_QUOTA n.val) ≤ 9 ∧ u.rd (Reg.CRN_FULLER_CFG_DOWN_QUOTA n.val) ≤ 48 ∧
        u.crowns = s.crowns ∧ SameFields s u [Reg.CRN_FULLER_CFG_UP_QUOTA n.val, Reg.CRN_FULLER_CFG_DOWN_QUOTA n.val,
          Reg.CRN_FULLER_CFG_HOLD n.val]

/-- Slot descriptors (R119, R120). That a refused write still sets MODE, RSZ and BASE is the choice of log entry 10. -/
def Obligations.SlotDescriptorsAreCheckedAsWritten : Prop :=
  ∀ (c : Core) (a : Arr) (sl : Fin 16) (acc : RegAccess) (s : State),
    let x := Slot.ofNat acc.value
    let fs := [(tileFlds c.val a sl.val).1, (tileFlds c.val a sl.val).2.1, (tileFlds c.val a sl.val).2.2.1,
      (tileFlds c.val a sl.val).2.2.2]
    (s.reaches acc.port (slotOff c.val a sl.val) = true →
      (s.step = none → (x.valid = false ∨ s.slotRefused c.val a sl.val x = false) →
        Completes (.slotDescriptorWrite c a sl acc) s fun u => u.slot c.val a sl.val = x ∧ OnlyFields s u fs) ∧
      (s.step = none → x.valid = true → s.slotRefused c.val a sl.val x = true →
        Completes (.slotDescriptorWrite c a sl acc) s fun u =>
          u.slot c.val a sl.val = { x with valid := false } ∧ u.rd (descErr c.val a) = 1 ∧
            Records s u .accumulatorDescriptorError (coreSource c.val) [pv2 c.val] (descErr c.val a :: fs)) ∧
      (s.step.isSome = true → Completes (.slotDescriptorWrite c a sl acc) s fun u =>
        Rejected s u acc.port (slotOff c.val a sl.val))) ∧
    ∀ v th, (s.arr c.val a).deferred = [(sl.val, v, th)] → (s.arr c.val a).slotBusy th sl.val = false →
      s.power.stopped = false → (s.thr c.val th).wait = some .slot →
      (∀ b, b ≠ a → (s.arr c.val b).deferred = []) →
      (Slot.ofNat v).valid = false ∨ s.slotRefused c.val a sl.val (Slot.ofNat v) = false →
      Completes (.deferredDescriptorWrite c a) s fun u =>
        u.slot c.val a sl.val = Slot.ofNat v ∧ (u.arr c.val a).deferred = [] ∧ (u.thr c.val th).wait = none ∧
          (u.arr c.val a).file = (s.arr c.val a).file ∧ OnlyCore s u c.val ∧ SameFields s u fs ∧ u.mem = s.mem

/-- Drains, preemption, save and restore (R110, R132, R133, R137 to R140, R148). -/
def Obligations.DrainsAndPreemption : Prop :=
  ∀ (c : Core) (a : Arr) (s : State), s.power.stopped = false →
    (∀ e tile epi ebc efmt chain ebase estride,
      AtHead s c.val a e (some (.drain (arrBit a) tile epi ebc efmt chain ebase estride)) →
      (s.arr c.val a).drain = none → (s.arr c.val a).preempting = false →
      s.drainOk c.val a (arrBit a) tile epi ebc efmt chain = true →
      let reg := fun r => ((s.thr c.val e.thread).snapshot).getD r 0
      let stages := s.chainStages c.val chain
      let blocks := stageBlocks 64 reg stages ++ columnVectors reg stages
      (∀ b ∈ blocks, CleanSram s c.val b.1 b.2) →
      badTables 64 reg stages (blocks.map fun b => (b.1, s.readBytes b.1 b.2)) = false →
      (∀ k ∈ stages, stKind k = 15 → CleanSram s c.val (reg (stRreg k)) 768 ∧
        (let r := Rescale.ofBytes ((readRecord c e.thread (reg (stRreg k)) { s }).1.map (·.getD 0))
         r.ok ((Fmt.ofCode (stFmt k)).getD .fp32) (stVreg k) = true ∧
           (r.zw = true ∨ r.rowz = true → CleanSram s c.val (reg (stVreg k)) 8))) →
      Completes (.drain c a []) s fun u =>
        u = { s with cores := u.cores } ∧ OnlyCore s u c.val ∧
          ∃ d, (u.arr c.val a) = { (s.arr c.val a).pop with drain := some d } ∧
            d.cmd = .drain (arrBit a) tile epi ebc efmt chain ebase estride ∧ d.thread = e.thread ∧
            d.tileBase = (s.slot c.val a tile).base ∧ d.mode = (s.slot c.val a tile).mode ∧
            d.rows = (s.slot c.val a tile).rows ∧ d.next = 0 ∧ d.seq = (s.core c.val).drainNo ∧ d.sampled.stages = stages) ∧
    (∀ d t met, (s.arr c.val a).drain = some d → s.drainRows c a d [] d.next d.rows = some (t, met) →
      (s.core c.val).drainWaits a d = false →
      Completes (.drainComplete c a [] []) s fun u =>
        (u.arr c.val a).drain = none ∧ (u.arr c.val a).live = (s.arr c.val a).live ∧ u.mem = t.mem ∧ u.poison = t.poison) ∧
    ((s.core c.val).urgent = true → (s.arr c.val a).saved = none → (s.arr c.val a).drain = none →
      Completes (.arrayPreemption ⟨c, a⟩ 0 []) s fun u =>
        u = { s with cores := u.cores, crowns := u.crowns, flds := u.flds } ∧ OnlyArr s u c.val a ∧
          ((u.arr c.val a).saved.map fun v => (v.live, v.queue, v.zp)) =
            some ((s.arr c.val a).live, (s.arr c.val a).queue ++ (s.arr c.val a).entering, s.zpGet c.val a) ∧
          (u.arr c.val a).queue = [] ∧ (u.arr c.val a).stream = none ∧ (u.arr c.val a).preempting = true ∧
          (u.arr c.val a).file = (s.arr c.val a).file ∧ u.zpGet c.val a = [0, 0, 0, 0]) ∧
    (∀ d rows t met, let n := clampNat d.next d.rows rows
      (s.core c.val).urgent = true → (s.arr c.val a).saved = none → (s.arr c.val a).drain = some d →
      (s.core c.val).drainWaits a d = false → n ≠ d.next →
      s.drainRows c a d [] d.next n = some (t, met) → Completes (.arrayPreemption ⟨c, a⟩ rows []) s fun u =>
        u.mem = t.mem ∧ u.poison = t.poison ∧ (u.arr c.val a).drain = none ∧ (u.arr c.val a).queue = [] ∧
          ((u.arr c.val a).saved.bind (·.drain)) = some { d with next := n, met }) ∧
    (∀ w, (s.arr c.val a).preempting = true → (s.arr c.val a).saving = false → (s.arr c.val a).fuller.phase = .idle →
      s.urgentDesc c.val = some w → ((List.range 16).map (s.slot c.val a)).any (·.valid) = true →
      Completes (.accumulatorSave c a []) s fun u =>
        (u.arr c.val a).saving = true ∧ (∀ k < 16, (u.slot c.val a k).valid = false) ∧
          (u.arr c.val a).file = (s.arr c.val a).file ∧
          let st := match a with | .F => w.footF | .B => w.footB
          let len := match a with | .F => w.lenF | .B => w.lenB
          let rec_ := (padBytes 128 ((((List.range 16).map (s.slot c.val a)).flatMap fun x => leBytes 4 x.toNat) ++
            (leBytes 4 st ++ leBytes 4 len))).map some ++ (s.arr c.val a).fileGet (st * 1024) (len * 1024)
          u.mem = (s.writeBytes (s.saveBase c.val a) rec_).mem ∧ u.poison = (s.writeBytes (s.saveBase c.val a) rec_).poison) ∧
    ((s.arr c.val a).saving = true → Completes (.saveComplete c a) s fun u =>
      u = { s with cores := u.cores } ∧ OnlyArr s u c.val a ∧ (u.arr c.val a).saving = false ∧
        (u.arr c.val a).preempting = false ∧
        (u.arr c.val a).saved = (s.arr c.val a).saved.map fun v => { v with record := true }) ∧
    ∀ v slots st len, (s.arr c.val a).saved = some v → v.record = true →
      (∀ x ∈ v.live.toList ++ v.shadow.toList, ∀ r ∈ loadRanges x.cmd x.regs, CleanSram s c.val r.1 r.2) →
      (s.thr c.val .U).running = false → (s.core c.val).urgent = true → (s.arr c.val a).queue = [] →
      (s.arr c.val a).stream = none → (s.arr c.val a).drain = none → (s.arr c.val a).preempting = false →
      recordSlots a (s.readBytes (s.saveBase c.val a) 128) = some (slots, st, len) → (∃ w x y z, v.zp = [w, x, y, z] ∧ w < 2 ∧ x < 256 ∧ y < 2 ∧ z < 256) →
      Completes (.accumulatorRestore c a []) s fun u =>
        (u.arr c.val a).saved = none ∧ (u.arr c.val a).queue = v.queue.take 8 ∧ u.zpGet c.val a = v.zp ∧
          (u.arr c.val a).drain = v.drain ∧ (u.arr c.val a).stream = v.stream ∧
          (let th : Thr := match a with | .F => .F | .B => .B
           (u.arr c.val a).live = (reloadStationary c a th v.live { s }).1 ∧
             (u.arr c.val a).shadow = (reloadStationary c a th v.shadow { s }).1) ∧
          (∀ k < 16, u.slot c.val a k = slots.getD k ⟨false, 0, 0, 0⟩) ∧
          (u.arr c.val a).fileGet (st * 1024) (len * 1024) = s.readBytes (s.saveBase c.val a + 128) (len * 1024) ∧
          u.mem = s.mem

/-- VOP and VOP_END (R172 to R175, R190, R192). -/
def Obligations.VectorOperationsCommitAtTheirEnd : Prop :=
  ∀ (c : Core) (s : State), s.power.stopped = false →
    (∀ q rest, (s.core c.val).vecQueue = q :: rest → (s.core c.val).vop = none → (s.arr c.val .F).drain = none →
      ((decodeVop q.word = none → (∀ th, (s.thr c.val th).ops = []) →
        Completes (.vop c [] []) s fun u =>
          Records { s with cores := u.cores } u .vectorCommandError (coreSource c.val) [pv2 c.val]
            [Reg.CRN_VEC_STATUS_CMD_ERR (crownOf c.val) (localOf c.val)] ∧
          u.rd (Reg.CRN_VEC_STATUS_CMD_ERR (crownOf c.val) (localOf c.val)) = 1 ∧ OnlyCore s u c.val ∧
          u.core c.val = { s.core c.val with vecQueue := rest }) ∧
      ∀ cmd k f, decodeVop q.word = some cmd → cmd.fence = false → Fmt.ofCode cmd.ifmt = some f → f.isMx = false →
        s.chainStages c.val cmd.chain = [k] → stKind k = 7 → stToscal k = true → vopOk cmd (s.chainHdr c.val cmd.chain) [k] = true →
        (s.chainHdr c.val cmd.chain).ssreg = 0 →
        CleanSram s c.val ((s.thr c.val q.thread).reg cmd.src)
          ((cmd.count + cmd.cols - 1) / cmd.cols * packedBytes f.width cmd.cols + 1) →
        Completes (.vop c [] []) s fun u =>
          u.mem = s.mem ∧ u.poison = s.poison ∧ OnlyCore s u c.val ∧ u.sync = s.sync ∧
            ∃ v t, u.core c.val = { s.core c.val with vecQueue := rest, vop := some v } ∧ v.thread = q.thread ∧
              v.fence = none ∧ v.stores = [] ∧ v.toscal = some t ∧ t.reg = stSreg k)) ∧
    (∀ q rest cmd d, (s.core c.val).vecQueue = q :: rest → (s.core c.val).vop = none → (s.arr c.val .F).drain = none →
      (s.arr c.val .B).drain = some d → d.seq < (s.core c.val).drainNo → decodeVop q.word = some cmd → cmd.fence = true →
      vopOk cmd (s.chainHdr c.val cmd.chain) (s.chainStages c.val cmd.chain) = true →
      ((s.chainStages c.val cmd.chain).all fun k => stKind k != 9 && stKind k != 13 && stKind k != 14) = true →
      Completes (.vop c [] []) s fun u =>
        u = { s with cores := u.cores } ∧ OnlyCore s u c.val ∧ ∃ v w,
          u.core c.val = { s.core c.val with vecQueue := rest, vop := some v } ∧ v.fence = some w ∧
            w.before = (s.core c.val).drainNo ∧ w.sampled.regs = (s.thr c.val q.thread).snapshot) ∧
    (∀ v w d, (s.core c.val).vop = some v → v.fence = some w → (s.arr c.val .B).drain = some d → d.seq < w.before → exec (.vop c [] []) s = .next s) ∧
    (∀ v, (s.core c.val).vop = some v → v.fence.isSome = true → exec (.vopEnd c) s = .next s) ∧
    (∀ v, (s.core c.val).vop = some v → v.fence = none →
      (v.stores = [] → v.counts = [] → (∀ th, (s.thr c.val th).ops = []) →
        (v.toscal = none → Completes (.vopEnd c) s fun u => u.mem = s.mem ∧ OnlyCore s u c.val ∧
          u.core c.val = { s.core c.val with vop := none }) ∧
        ∀ r x, v.toscal = some ⟨r, some x, none⟩ → Completes (.vopEnd c) s fun u =>
          u.mem = s.mem ∧ OnlyCore s u c.val ∧ (u.core c.val).vop = none ∧
            (u.thr c.val v.thread).reg r = (if r = 0 then 0 else x % 2 ^ 64) ∧
            ∀ r', r' ≠ r → (u.thr c.val v.thread).reg r' = (s.thr c.val v.thread).reg r') ∧
      (∀ a bs, v.stores = [(a, bs)] → v.counts = [] → v.toscal = none → (∀ th, (s.thr c.val th).ops = []) →
        s.accessFault a bs.length true = false → s.inRegion a = false → s.rangePathLost (.core c) a bs.length = false →
        s.failedWords a bs.length = [] → s.storesHeld (.core c) v.stores = false → Completes (.vopEnd c) s fun u =>
          u.mem = (s.writeBytes a bs).mem ∧ u.poison = (s.writeBytes a bs).poison ∧ (u.core c.val).vop = none))

/-- Chain descriptors (R195) and counter banks (R193, R194, R279). -/
def Obligations.ChainsAndCounterBanks : Prop :=
  (∀ (c : Core) (d : Fin 16) (st : Option (Fin 8)) (acc : RegAccess) (s : State),
    s.reaches acc.port (chainOff c.val d.val st) = true →
      (s.step.isSome = true → Completes (.chainDescriptorWrite c d st acc) s fun u =>
        Rejected s u acc.port (chainOff c.val d.val st)) ∧
      (s.step = none → Completes (.chainDescriptorWrite c d st acc) s fun u =>
        u = { s with flds := u.flds, latch := u.latch } ∧
          (u.rdB (Reg.CRN_VEC_HDR_VALID (crownOf c.val) (localOf c.val) d.val) = true →
            chainRules (u.chainStages c.val d.val) (u.chainHdr c.val d.val).smask = true) ∧
          (∀ i : Fin 8, st = some i → acc.part = .whole → i.val ≤ (s.chainHdr c.val d.val).nst →
            (u.chainStages c.val d.val).getD i.val 0 = acc.value % 2 ^ 64) ∧
          ∀ d' < 16, d' ≠ d.val → u.chainHdr c.val d' = s.chainHdr c.val d' ∧
            u.chainStages c.val d' = s.chainStages c.val d')) ∧
  ∀ (b : Bank) (acc : RegAccess) (s : State), partLow acc.part = true →
    let sel := bankFlds b
    let latched := [sel.2.2.1, sel.2.2.2.1, sel.2.2.2.2] ++ (match b with
      | .update t => [Reg.UPD_CNT_TOT_COUNT t.val]
      | _ => [])
    (s.reaches acc.port (bankOff b) = true → Completes (.cntSel b acc) s fun u =>
      OnlyFields s u ([sel.1, sel.2.1] ++ latched) ∧ u.rd sel.1 = bits acc.value 12 8 ∧ u.rd sel.2.1 = bits acc.value 2 0 ∧
        (bits acc.value 12 8 ≤ 0x11 → let i := (bits acc.value 12 8 * 8 + bits acc.value 2 0) * 3
          u.rd sel.2.2.1 = Sparse.get 0 (s.bank b) i % 2 ^ sel.2.2.1.width ∧
            u.rd sel.2.2.2.1 = Sparse.get 0 (s.bank b) (i + 1) % 2 ^ sel.2.2.2.1.width ∧
            u.rd sel.2.2.2.2 = Sparse.get 0 (s.bank b) (i + 2) % 2 ^ sel.2.2.2.2.width) ∧
        (0x11 < bits acc.value 12 8 → ∀ f ∈ latched, u.rd f = 0)) ∧
    (s.reaches acc.port (bankClear b) = true → bit acc.value 1 = true → Completes (.clrAll b acc) s fun u =>
      u.bank b = [] ∧ (∀ f ∈ latched, u.rd f = 0) ∧ SameFields s u latched ∧ u.mem = s.mem ∧
        ∀ b', b' ≠ b → u.bank b' = s.bank b') ∧
    (s.reaches acc.port (bankClear b) = true → bit acc.value 0 = true → s.rd sel.1 ≤ 0x11 → Completes (.clrSel b acc) s fun u =>
      (∀ k < 3, Sparse.get 0 (u.bank b) ((s.rd sel.1 * 8 + s.rd sel.2.1) * 3 + k) = 0) ∧ (∀ f ∈ latched, u.rd f = 0) ∧
        SameFields s u latched ∧ u.mem = s.mem ∧ ∀ b', b' ≠ b → u.bank b' = s.bank b')

/-- Flex jobs (R206, R207, R209, R222). -/
def Obligations.FlexJobsArePostedAndAssigned : Prop :=
  ∀ (c : Core) (s : State),
    let n := crownOf c.val
    let l := localOf c.val
    (isFlex c.val = false → (∀ th v, exec (.flexPost c (.thread th) v) s = .next s) ∧
      ∀ (p : Port) v, s.postedHolder p.val = none → exec (.flexPost c (.host p) v) s = .next s) ∧
    (isFlex c.val = true →
      (∀ p v, s.reaches p (0x1010048 + n * 0x400000 + l * 0x1000) = true → Completes (.flexPost c (.host p) v) s fun u =>
        Rejected s u p (0x1010048 + n * 0x400000 + l * 0x1000)) ∧
      (∀ th v (bs : List Byte), s.rdB (Reg.CRN_FLEX_CFG_EN n l) = true → (s.core c.val).jobs.length < 16 →
        ((List.range 192).map fun i =>
          s.readByte (0x5000000000 + c.val * 0x100000 + (bits v 19 6 * 64 + i) % 0x100000)) = bs.map some →
        (∀ j, jobOf th bs = some j → Completes (.flexPost c (.thread th) v) s fun u =>
          u = { s with cores := u.cores } ∧ OnlyCore s u c.val ∧
            u.core c.val = { s.core c.val with jobs := (s.core c.val).jobs ++ [j] }) ∧
        (jobOf th bs = none → Completes (.flexPost c (.thread th) v) s fun u =>
          Records s u .flexJobError (coreSource c.val) [pv2 c.val] [Reg.CRN_FLEX_STAT_JOB_ERR n l] ∧
            u.rd (Reg.CRN_FLEX_STAT_JOB_ERR n l) = 1)) ∧
      s.power.stopped = false → (∀ a, Tidy (s.arr c.val a)) →
      ((s.core c.val).jobs = [] → Completes (.jobAssignment c) s fun u =>
        u = { s with cores := u.cores } ∧ OnlyCore s u c.val ∧
          u.core c.val = ((s.core c.val).setArr .F (s.arr c.val .F).refill).setArr .B (s.arr c.val .B).refill) ∧
      ∀ j, s.rdB (Reg.CRN_FLEX_CFG_EN n l) = true → (s.core c.val).urgent = false →
        (s.core c.val).jobs = [j] → (s.core c.val).bindings = [] → j.group = 0 → j.arrSel = 0 →
        j.conds.all s.condHolds = true → (s.arr c.val .F).canTake = true → (s.arr c.val .B).canTake = true →
        Completes (.jobAssignment c) s fun u =>
          let a : Arr := if j.kind = 1 ∨ j.kind = 2 then .B else .F
          let cnt := match a with | .F => Reg.CRN_FLEX_CNT_F_JOBS n l | .B => Reg.CRN_FLEX_CNT_B_JOBS n l
          let es := j.cmds.map fun w => ({ word := withArr a w, thread := j.thread, job := some j.operands } : ArrEntry)
          u = { s with cores := u.cores, flds := u.flds } ∧ OnlyCore s u c.val ∧ (u.core c.val).jobs = [] ∧
            (∀ b, b ≠ a → u.arr c.val b = s.arr c.val b) ∧ u.arr c.val a = { s.arr c.val a with entering := es } ∧
            u.rd cnt = (s.rd cnt + 1) % 2 ^ cnt.width ∧ SameFields s u [cnt])

/-- The arithmetic and branch instructions (R358). The program counter of a branch is the model's reading of R358: the
offset counts from the branch itself (log entry 9); bits changed in the instruction's own word are log entry 8's. -/
def Obligations.ComputeAndBranchInstructions : Prop :=
  ∀ (c : Core) (th : Thr) (s : State),
    let t := s.thr c.val th
    let s' := s.fetched c.val th
    (∀ rd ra rb fn, s.issuing c.val th = some (.alu rd ra rb fn) → Completes (.alu c th) s fun u =>
      let a := t.reg ra
      let b := t.reg rb
      WritesReg s' u c.val th rd (match fn with
        | 0 => a + b
        | 1 => (BitVec.ofNat 64 a - BitVec.ofNat 64 b).toNat
        | 2 => (BitVec.ofNat 64 a &&& BitVec.ofNat 64 b).toNat
        | 3 => (BitVec.ofNat 64 a ||| BitVec.ofNat 64 b).toNat
        | 4 => (BitVec.ofNat 64 a ^^^ BitVec.ofNat 64 b).toNat
        | 5 => (BitVec.ofNat 64 a <<< (b % 64)).toNat
        | 6 => a / 2 ^ (b % 64)
        | 7 => ((BitVec.ofNat 64 a).sshiftRight (b % 64)).toNat
        | 8 => a * b
        | _ => (BitVec.ofInt 64 ((BitVec.ofNat 64 a).toInt * (BitVec.ofNat 64 b).toInt / 2 ^ 64)).toNat)) ∧
    (∀ rd ra imm, s.issuing c.val th = some (.addi rd ra imm) → Completes (.addi c th) s fun u =>
      WritesReg s' u c.val th rd (BitVec.ofNat 64 (t.reg ra) + (BitVec.ofNat 12 imm).signExtend 64).toNat) ∧
    (∀ rd imm, s.issuing c.val th = some (.lix rd imm) → Completes (.lix c th) s fun u =>
      WritesReg s' u c.val th rd (t.reg rd * 2 ^ 18 + imm)) ∧
    (∀ ra rb cond off, s.issuing c.val th = some (.br ra rb cond off) → Completes (.br c th) s fun u =>
      let a := BitVec.ofNat 64 (t.reg ra)
      let b := BitVec.ofNat 64 (t.reg rb)
      let holds : Prop := match cond with
        | 0 => t.reg ra = t.reg rb
        | 1 => t.reg ra ≠ t.reg rb
        | 2 => a.slt b = true
        | 3 => a.slt b = false
        | 4 => t.reg ra < t.reg rb
        | _ => t.reg rb ≤ t.reg ra
      u = { s' with cores := u.cores } ∧ OnlyThread s' u c.val th ∧ u.thr c.val th = { t with pc := (u.thr c.val th).pc } ∧
        (holds → (u.thr c.val th).pc = ((t.pc + 4 * signed 9 off) % 2 ^ 32).toNat) ∧
        (¬holds → (u.thr c.val th).pc = t.pc + 4)) ∧
    (∀ off, s.issuing c.val th = some (.jmp off) → Completes (.jmp c th) s fun u =>
      u = { s' with cores := u.cores } ∧ OnlyThread s' u c.val th ∧
        u.thr c.val th = { t with pc := ((t.pc + 4 * signed 24 off) % 2 ^ 32).toNat }) ∧
    (s.upsets = [] → s' = s)

/-- LD, ST, ACMD and VCMD (R357, R358). That the immediate of a load or store is sign-extended is the model's reading (log
entry 9). -/
def Obligations.MemoryAndEngineInstructions : Prop :=
  ∀ (c : Core) (th : Thr) (s : State),
    let t := s.thr c.val th
    s.fetched c.val th = s →
    (∀ rd ra imm, s.issuing c.val th = some (.ld rd ra imm) →
      let a := ((t.reg ra + 8 * signed 12 imm) % 2 ^ 64).toNat
      CleanSram s c.val a 8 → Completes (.ld c th []) s fun u =>
        WritesReg s u c.val th rd (leNat ((List.range 8).map fun i => s.byteAt (a + i)))) ∧
    (∀ rd ra imm, s.issuing c.val th = some (.ld rd ra imm) →
      let a := ((t.reg ra + 8 * signed 12 imm) % 2 ^ 64).toNat
      (∀ h, s.rangeHolder (.core c) a 8 = some h → Completes (.ld c th []) s fun u =>
        u.held = s.held ++ [⟨h, .core c, .load c.val (thrIndex th) rd, a, 8, []⟩] ∧ u.mem = s.mem ∧ OnlyThread s u c.val th ∧
          u.thr c.val th = { t with pc := t.pc + 4, wait := some .load }) ∧
      (s.rangeHolder (.core c) a 8 = none → ∀ st bs x, s.memRead (.core c) a 8 = (st, bs, x) →
        (∀ w : List Byte, st ≠ stAddrFault → bs = w.map some → Completes (.ld c th []) s fun u =>
          WritesReg x u c.val th rd (leNat w)) ∧
        (st = stAddrFault ∨ bs.any (·.isNone) = true → th ≠ .U → s.step.isSome = true → Completes (.ld c th []) s fun u =>
          (u.thr c.val th).running = false ∧ u.mem = s.mem ∧ ∃ r, u.step = some r ∧ r.failed ≠ 0))) ∧
    (∀ rd ra imm, s.issuing c.val th = some (.st rd ra imm) →
      let a := ((t.reg ra + 8 * signed 12 imm) % 2 ^ 64).toNat
      CleanSram s c.val a 8 → Completes (.st c th) s fun u =>
        u = { s with cores := u.cores, mem := u.mem } ∧ OnlyThread s u c.val th ∧ u.thr c.val th = { t with pc := t.pc + 4 } ∧
          (∀ i < 8, u.readByte (a + i) = some (BitVec.ofNat 8 (t.reg rd / 256 ^ i))) ∧
          ∀ k, ¬(a ≤ k ∧ k < a + 8) → u.byteAt k = s.byteAt k) ∧
    (∀ rd ra imm, s.issuing c.val th = some (.st rd ra imm) →
      let a := ((t.reg ra + 8 * signed 12 imm) % 2 ^ 64).toNat
      let bs := (leBytes 8 (t.reg rd)).map some
      (∀ off, s.place a = .reg off →
        (s.storeWaits c.val th off (t.reg rd) = true → exec (.st c th) s = .next s) ∧
        (s.storeWaits c.val th off (t.reg rd) = false →
          (regionFault off 8 true = true → th ≠ .U → s.step.isSome = true → Completes (.st c th) s fun u =>
            (u.thr c.val th).running = false ∧ u.mem = s.mem ∧ ∃ r, u.step = some r ∧ r.failed ≠ 0) ∧
          (regionFault off 8 true = false → Completes (.st c th) s fun u =>
            u = ((s.advance c.val th).coreStore c (some th) a bs).2))) ∧
      ((∀ off, s.place a ≠ .reg off) →
        (∀ h, s.rangeHolder (.core c) a 8 = some h → Completes (.st c th) s fun u =>
          u.held = s.held ++ [⟨h, .core c, .store c.val (thrIndex th), a, 8, bs⟩] ∧ u.mem = s.mem ∧ OnlyThread s u c.val th ∧
            u.thr c.val th = { t with pc := t.pc + 4, wait := some .load }) ∧
        (s.rangeHolder (.core c) a 8 = none → ∀ st x, s.memWrite (.core c) a bs = (st, x) →
          (st ≠ stAddrFault → Completes (.st c th) s fun u => u = { x with cores := u.cores } ∧ OnlyThread x u c.val th ∧
            u.thr c.val th = { x.thr c.val th with pc := (x.thr c.val th).pc + 4 }) ∧
          (st = stAddrFault → th ≠ .U → s.step.isSome = true → Completes (.st c th) s fun u =>
            (u.thr c.val th).running = false ∧ u.mem = s.mem ∧ ∃ r, u.step = some r ∧ r.failed ≠ 0)))) ∧
    (∀ ra fn, s.issuing c.val th = some (.acmd ra fn) →
      let arr : Arr := if fn = 0 then .F else .B
      let y := s.arr c.val arr
      let flex := s.rdB (Reg.CRN_FLEX_CFG_EN (crownOf c.val) (localOf c.val))
      let op := bits (t.reg ra) 63 60
      (th ≠ .U → flex = true → Completes (.acmd c th) s fun u =>
        Records { s with cores := u.cores } u .arrayCommandError (coreSource c.val) [pv2 c.val] [] ∧ OnlyThread s u c.val th ∧
          u.thr c.val th = { t with pc := t.pc + 4 }) ∧
      (th = .U ∨ flex = false →
        (8 ≤ y.queue.length ∨ y.entering ≠ [] ∨ (th = .U ∧ y.saved = none) → exec (.acmd c th) s = .next s) ∧
        (y.queue.length < 8 → y.entering = [] → (th = .U → y.saved.isSome = true) → Tidy y →
          (y.queue ≠ [] ∨ (1 ≤ op ∧ op ≤ 5) → Completes (.acmd c th) s fun u =>
            u = { s with cores := u.cores } ∧ OnlyCore s u c.val ∧
              u.core c.val = ((s.core c.val).setArr arr { y with queue := y.queue ++ [{ word := t.reg ra, thread := th }] }).setThr
                th { t with pc := t.pc + 4 }) ∧
          (y.queue = [] → ¬(1 ≤ op ∧ op ≤ 5) → Completes (.acmd c th) s fun u =>
            Records { s with cores := u.cores } u .arrayCommandError (coreSource c.val) [pv2 c.val] [] ∧ OnlyCore s u c.val ∧
              u.core c.val = (s.core c.val).setThr th { t with pc := t.pc + 4 })))) ∧
    ∀ ra, s.issuing c.val th = some (.vcmd ra) →
      (8 ≤ (s.core c.val).vecQueue.length → exec (.vcmd c th) s = .next s) ∧
      ((s.core c.val).vecQueue.length < 8 → Completes (.vcmd c th) s fun u =>
        u = { s with cores := u.cores } ∧ OnlyCore s u c.val ∧
          u.core c.val = ({ s.core c.val with vecQueue := (s.core c.val).vecQueue ++ [⟨t.reg ra, th⟩] } : CoreSt).setThr th
            { t with pc := t.pc + 4 })

/-- The synchronisation instructions (R358, R366, R369 to R372). What a lost path and a die in reset do to them is the reading of log
entry 20. -/
def Obligations.SyncInstructionsAndUnitEnds : Prop :=
  ∀ (c : Core) (th : Thr) (s : State),
    let t := s.thr c.val th
    let quiet := (s.core c.val).quiet th
    s.fetched c.val th = s →
    (∀ ra rb, quiet = false →
      (s.issuing c.val th = some (.sadd ra rb) → Completes (.sadd c th) s fun u =>
        u = { s with cores := u.cores } ∧ OnlyThread s u c.val th ∧ u.thr c.val th = { t with
          pc := t.pc + 4, ops := t.ops ++ [⟨false, t.reg ra % 2 ^ 17, t.reg rb % 2 ^ 32⟩] }) ∧
      (s.issuing c.val th = some (.sset ra rb) → Completes (.sset c th) s fun u =>
        u = { s with cores := u.cores } ∧ OnlyThread s u c.val th ∧ u.thr c.val th = { t with
          pc := t.pc + 4, ops := t.ops ++ [⟨true, t.reg ra % 2 ^ 17, t.reg rb % 2 ^ 32⟩] })) ∧
    (∀ ra rb h, quiet = true → t.ops = [] → let o := t.reg ra % 2 ^ 17
      s.objHolder (coreOrig c.val) o = some h →
      (s.issuing c.val th = some (.sadd ra rb) → Completes (.sadd c th) s fun u =>
        u.held = s.held ++ [⟨h, coreOrig c.val, .sync .add o (t.reg rb % 2 ^ 32), 0, 0, []⟩] ∧ u.sync = s.sync ∧
          OnlyThread s u c.val th ∧ u.thr c.val th = { t with pc := t.pc + 4 }) ∧
      (s.issuing c.val th = some (.sset ra rb) → Completes (.sset c th) s fun u =>
        u.held = s.held ++ [⟨h, coreOrig c.val, .sync .set o (t.reg rb % 2 ^ 32), 0, 0, []⟩] ∧ u.sync = s.sync ∧
          OnlyThread s u c.val th ∧ u.thr c.val th = { t with pc := t.pc + 4 })) ∧
    (∀ ra rb, quiet = true → t.ops = [] → s.crownPathLost (coreOrig c.val) (t.reg ra % 2 ^ 17 / 2 ^ 15) = true →
      (s.issuing c.val th = some (.sadd ra rb) → Completes (.sadd c th) s fun u =>
        u = { s with cores := u.cores } ∧ OnlyThread s u c.val th ∧ u.thr c.val th = { t with pc := t.pc + 4 }) ∧
      (s.issuing c.val th = some (.sset ra rb) → Completes (.sset c th) s fun u =>
        u = { s with cores := u.cores } ∧ OnlyThread s u c.val th ∧ u.thr c.val th = { t with pc := t.pc + 4 })) ∧
    (∀ ra rb, quiet = true → t.ops = [] → s.plainObj (bits (t.reg ra) 16 0) →
      s.objReached (coreOrig c.val) (bits (t.reg ra) 16 0) = true →
      (s.issuing c.val th = some (.sadd ra rb) → Completes (.sadd c th) s fun u =>
        u = { s with cores := u.cores, sync := u.sync } ∧ OnlyThread s u c.val th ∧ u.thr c.val th = { t with pc := t.pc + 4 } ∧
          ObjSet s u (bits (t.reg ra) 16 0) (s.obj (bits (t.reg ra) 16 0) + t.reg rb % 2 ^ 32)) ∧
      (s.issuing c.val th = some (.sset ra rb) → Completes (.sset c th) s fun u =>
        u = { s with cores := u.cores, sync := u.sync } ∧ OnlyThread s u c.val th ∧ u.thr c.val th = { t with pc := t.pc + 4 } ∧
          ObjSet s u (bits (t.reg ra) 16 0) (t.reg rb))) ∧
    (∀ ra rb fn, s.issuing c.val th = some (.swait ra rb fn) → Completes (.swait c th) s fun u =>
      u = { s with cores := u.cores } ∧ OnlyThread s u c.val th ∧
        u.thr c.val th = { t with pc := t.pc + 4, wait := some (.sync (t.reg ra % 2 ^ 17) (t.reg rb % 2 ^ 32) (fn == 1)) }) ∧
    (∀ o v eq, t.wait = some (.sync o v eq) → s.power.stopped = false →
      ((if eq then s.obj o = v else v ≤ s.obj o) → Completes (.syncWaitSatisfied c th) s fun u =>
        u = { s with cores := u.cores } ∧ OnlyThread s u c.val th ∧ u.thr c.val th = { t with wait := none }) ∧
      (¬(if eq then s.obj o = v else v ≤ s.obj o) → exec (.syncWaitSatisfied c th) s = .next s)) ∧
    (∀ ra rb, s.issuing c.val th = some (.radd ra rb) → Completes (.radd c th) s fun u =>
      let obj := t.reg ra % 2 ^ 17
      let dst := t.reg ra / 2 ^ 17 % 2 ^ 14
      let op := s.nextOp % 2 ^ 32
      let cut := s.cutOff (.core c)
      u = { s with cores := u.cores, fabric := u.fabric, fresh := if cut then s.fresh else s.fresh + 1, nextOp := s.nextOp + 1,
                   remoteAdds := s.remoteAdds ++ [⟨op, c.val, thrIndex th, dst, obj⟩] } ∧
        OnlyThread s u c.val th ∧ u.thr c.val th = { t with pc := t.pc + 4 } ∧
        (cut = true → u.fabric = s.fabric) ∧
        (cut = false → Sent s u (crownOf c.val) dst 0x11 [] (leBytes 4 obj ++ leBytes 4 (t.reg rb) ++ leBytes 4 op) [])) ∧
    (s.issuing c.val th = some .fence →
      (quiet = false → exec (.fence c th) s = .next s) ∧
      (quiet = true → Completes (.fence c th) s fun u =>
        u = { s with cores := u.cores } ∧ OnlyThread s u c.val th ∧ u.thr c.val th = { t with pc := t.pc + 4 })) ∧
    (s.issuing c.val th = some .endUnit →
      (∀ r ∈ s.remoteAdds, r.core = c.val → r.thread = thrIndex th → exec (.endUnit c th) s = .next s) ∧
      (∀ r, th = .U → quiet = true → t.ops = [] → (s.core c.val).jobs = [] → s.remoteAdds = [] →
        s.urgentRuns.find? (·.cores.contains c.val) = some r → r.cores.erase c.val ≠ [] → Completes (.endUnit c th) s fun u =>
          u = { s with cores := u.cores, urgentRuns := u.urgentRuns } ∧ OnlyThread s u c.val .U ∧
            u.thr c.val .U = { t with running := false, wait := none } ∧
            u.urgentRuns = s.urgentRuns.map fun x => if x = r then { x with cores := x.cores.erase c.val } else x) ∧
      ∀ d, th ≠ .U → quiet = true → t.ops = [] → (s.core c.val).jobs = [] → s.remoteAdds = [] → s.units[t.unit]? = some d →
        d.slotEnd = false → s.plainObj d.signal → s.objReached (coreOrig d.core) d.signal = true → Completes (.endUnit c th) s fun u =>
          u = { s with cores := u.cores, sync := u.sync } ∧ OnlyThread s u c.val th ∧
            u.thr c.val th = { t with running := false, wait := none } ∧ Signalled s u d.signal) ∧
    (∀ r, s.insn c.val th = some none → th = .U → s.urgentRuns.find? (·.cores.contains c.val) = some r →
      r.cores.erase c.val ≠ [] → poisonWords (sramBase c.val + t.pc) (s.fetch c.val t.pc).1 = [] → Completes (.reservedOpcode c th) s fun u =>
        u = { s with cores := u.cores, fresh := u.fresh, urgentRuns := u.urgentRuns } ∧ OnlyCore s u c.val ∧
          (u.thr c.val .U).running = false ∧ ∀ a, ∀ e ∈ (u.arr c.val a).queue, e.thread ≠ .U) ∧
    (∀ r, s.insn c.val th = some none → th ≠ .U → s.step = some r → poisonWords (sramBase c.val + t.pc) (s.fetch c.val t.pc).1 = [] →
      Completes (.reservedOpcode c th) s fun u =>
        u.step = some { r with failed := if r.failed = 0 then 1 else r.failed } ∧
          (∀ d, (u.thr d .F).running = false ∧ (u.thr d .B).running = false ∧ ∀ a, ∀ e ∈ (u.arr d a).queue, e.thread = .U) ∧
          u = { s with step := u.step, cores := u.cores, fresh := u.fresh }) ∧
    ∀ r w, s.insn c.val th = some none → th ≠ .U → s.step = some r →
      poisonWords (sramBase c.val + t.pc) (s.fetch c.val t.pc).1 = [w] → Completes (.reservedOpcode c th) s fun u =>
        u.step = some { r with failed := if r.failed = 0 then 1 else r.failed, flags := r.flags ||| 16 } ∧
          u.rd (Reg.TIER_ECC_POISON_USE (crownOf c.val)) =
            satAdd (Reg.TIER_ECC_POISON_USE (crownOf c.val)).width (s.rd (Reg.TIER_ECC_POISON_USE (crownOf c.val))) 1 ∧
          Logs s u .poisonConsumed (coreSource c.val) [] ∧ (u.thr c.val th).running = false

/-- PAGE_ENGINE_START, STAGE_IN_COMMIT, WRITE_BACK_COMMIT and FRAME_ZEROING (R243 to R247, R253). That LEFT counts a page that leaves
without a copy is the reading of log entry 7. -/
def Obligations.ManagedPagesMove : Prop :=
  (∀ (t : Tower) (s : State) (m n : PageMove), (s.tier t.val).queue = [n, m] → m.kind.rank < n.kind.rank →
    s.moveStale n = false → s.moveStale m = false →
    ((m.kind = .stateOut ∨ m.kind = .leave) → (s.page m.page).state = .resident →
      Completes (.pageEngineStart t) s fun u =>
        u = { s with tiers := u.tiers, pages := u.pages } ∧ (∀ k, k ≠ t.val → u.tier k = s.tier k) ∧
          u.tier t.val = { s.tier t.val with queue := [n], rateInForce := s.rd (Reg.TIER_CFG_RATE t.val) } ∧
          u.page m.page = { s.page m.page with state := .leaving } ∧ ∀ p, p ≠ m.page → u.page p = s.page p) ∧
    (∀ r f, (m.kind = .stateIn ∨ m.kind = .stage) → (s.page m.page).state = .absent → s.regionOf m.page = some r →
      s.freeFrame t.val r.cls = some f → Completes (.pageEngineStart t) s fun u =>
        u = { s with tiers := u.tiers, pages := u.pages } ∧ (∀ k, k ≠ t.val → u.tier k = s.tier k) ∧
          (u.tier t.val).queue = [n] ∧ Sparse.get .free (u.tier t.val).frames f = FrameSt.used ∧
          u.page m.page = { state := .arriving, frame := f } ∧ ∀ p, p ≠ m.page → u.page p = s.page p)) ∧
  (∀ (pg : Nat) (s : State) (t ta : Nat), s.canonical → s.pageHome pg = (t, ta) →
    let lost := s.failedBlocks t ta
    let x := s.page pg
    let near := nearKey t (frameOff x.frame)
    let deep := deepKey t ta
    (x.state = .arriving → s.movePathLost t ta = false → s.moveHeld t ta = false → Completes (.stageInCommit ⟨pg, []⟩) s fun u =>
      (u.page pg).state = .resident ∧ (u.page pg).dirty = false ∧ (u.page pg).frame = x.frame ∧
        (∀ i < 65536, (i / 512 ∈ lost → u.poisoned (near + i) = true) ∧
          (i / 512 ∉ lost → u.byteAt (near + i) = s.byteAt (deep + i) ∧ u.poisoned (near + i) = s.poisoned (deep + i)) ∧
          u.byteAt (deep + i) = s.byteAt (deep + i)) ∧
        (∀ p, p ≠ pg → u.page p = s.page p) ∧
        SameFields s u (logFields ++ [Reg.TIER_PAGE_CNT_STAGED t, Reg.TIER_ECC_POISON_USE t, Reg.TIER_ERR_ADDR_VALID t,
          Reg.TIER_ERR_ADDR_KIND t, Reg.TIER_ERR_ADDR_ADDR t]) ∧
        (lost = [] → (∀ i < 65536, s.poisoned (deep + i) = false) → SameFields s u [Reg.TIER_PAGE_CNT_STAGED t]) ∧
        u.rd (Reg.TIER_PAGE_CNT_STAGED t) = (s.rd (Reg.TIER_PAGE_CNT_STAGED t) + 1) % 2 ^ 24) ∧
    (x.state = .arriving → s.movePathLost t ta = true → Completes (.stageInCommit ⟨pg, []⟩) s fun u =>
      u.page pg = {} ∧ Sparse.get .free (u.tier t).frames x.frame = FrameSt.unzeroed ∧ u.mem = s.mem ∧
        ∀ p, p ≠ pg → u.page p = s.page p) ∧
    (x.state = .leaving →
      (x.dirty = false → Completes (.writeBackCommit ⟨pg, []⟩) s fun u =>
        u = { s with tiers := u.tiers, pages := u.pages, flds := u.flds, towers := u.towers } ∧ u.page pg = {} ∧
          (∀ k, { u.tower k with idle := (s.tower k).idle } = s.tower k) ∧
          Sparse.get .free (u.tier t).frames x.frame = FrameSt.unzeroed ∧ (∀ p, p ≠ pg → u.page p = s.page p) ∧
          SameFields s u [Reg.TIER_PAGE_CNT_LEFT t] ∧
          u.rd (Reg.TIER_PAGE_CNT_LEFT t) = (s.rd (Reg.TIER_PAGE_CNT_LEFT t) + 1) % 2 ^ 24) ∧
      (x.dirty = true → s.movePathLost t ta = false → s.moveHeld t ta = false → Completes (.writeBackCommit ⟨pg, []⟩) s fun u =>
        u.page pg = {} ∧ Sparse.get .free (u.tier t).frames x.frame = FrameSt.unzeroed ∧
          (∀ i < 65536, (i / 512 ∈ lost → u.byteAt (deep + i) = s.byteAt (deep + i)) ∧
            (i / 512 ∉ lost → u.byteAt (deep + i) = s.byteAt (near + i) ∧ u.poisoned (deep + i) = s.poisoned (near + i))) ∧
          ∀ p, p ≠ pg → u.page p = s.page p) ∧
      (x.dirty = true → s.movePathLost t ta = true → Completes (.writeBackCommit ⟨pg, []⟩) s fun u =>
        u = { s with tiers := u.tiers, pages := u.pages, flds := u.flds, towers := u.towers } ∧
          (∀ k, { u.tower k with idle := (s.tower k).idle } = s.tower k) ∧ u.page pg = { x with state := .homeLost } ∧
          (∀ p, p ≠ pg → u.page p = s.page p) ∧
          SameFields s u [Reg.TIER_ERR_ADDR_VALID t, Reg.TIER_ERR_ADDR_KIND t, Reg.TIER_ERR_ADDR_ADDR t] ∧
          ∀ p, p ∈ u.homeLostPages t ↔ p = pg ∨ p ∈ s.homeLostPages t)) ∧
    (∀ hits, (x.state ≠ .arriving ∨ s.moveHeld t ta = true) → exec (.stageInCommit ⟨pg, hits⟩) s = .next s) ∧
    (∀ hits, (x.state ≠ .leaving ∨ x.dirty = true ∧ s.moveHeld t ta = true) →
      exec (.writeBackCommit ⟨pg, hits⟩) s = .next s)) ∧
  ∀ (t : Tower) (s : State) (f : Nat) (rest : List (Nat × FrameSt)), s.stored →
    (s.tier t.val).frames = (f, .unzeroed) :: rest → Completes (.frameZeroing t) s fun u =>
      let near := nearKey t.val (frameOff f)
      u = { s with tiers := u.tiers, mem := u.mem, poison := u.poison } ∧
        Sparse.get .free (u.tier t.val).frames f = FrameSt.free ∧
        (∀ i < 65536, u.byteAt (near + i) = 0 ∧ u.poisoned (near + i) = false) ∧
        ∀ k, ¬(near ≤ k ∧ k < near + 65536) → u.byteAt k = s.byteAt k ∧ u.poisoned k = s.poisoned k

/-- The maintenance of the tiers (R22, R237, R248 to R252, R255, R485). -/
def Obligations.TiersAreMaintained : Prop :=
  (∀ (t : Tower) (s : State),
    let m := s.tier t.val
    let onlyTier (u : State) : Prop := u = { s with tiers := u.tiers } ∧ ∀ k, k ≠ t.val → u.tier k = s.tier k
    (∀ c : Fin 320,
      ((s.tower t.val).horizonReset.contains (c.val / 64) = false → Completes (.dramRefresh t c) s fun u =>
        onlyTier u ∧ u.tier t.val = { m with refreshes := (u.tier t.val).refreshes } ∧
          ∀ d, Sparse.get 0 (u.tier t.val).refreshes d = Sparse.get 0 m.refreshes d + if d = c.val then 1 else 0) ∧
      ((s.tower t.val).horizonReset.contains (c.val / 64) = true → Completes (.dramRefresh t c) s fun u =>
        u = { s with towers := u.towers } ∧ (∀ k, k ≠ t.val → u.tower k = s.tower k) ∧
          u.tower t.val = { s.tower t.val with refreshDue := (u.tower t.val).refreshDue } ∧
          ∀ d, Sparse.get 0 (u.tower t.val).refreshDue d =
            Sparse.get 0 (s.tower t.val).refreshDue d + if d = c.val then 1 else 0)) ∧
    (let ta := m.scrubDeep * 16
     let d := deepPlace ta
     let a := deepAddress (s.rd Reg.TIER_LOCAL_LOCAL) t.val ta
     let on := if m.scrubDeep % 32 = 0 then s.rdB (Reg.TIER_CFG_SCRUB_EN t.val) else m.scrubInForce
     (s.tower t.val).cacheReset = false → (s.tower t.val).sleep = .awake →
      (∀ e, on = false → Completes (.patrolScrub t true e) s fun u =>
        onlyTier u ∧ u.tier t.val = { m with scrubInForce := false }) ∧
      ∀ (i j : Fin 36) (x y : BitVec 4), on = true → m.scrubDeep + 1 < 20 * 2 ^ 30 / 16 → m.failedChannels = [] →
      (s.tower t.val).lost = [] → (s.tower t.val).horizonReset.contains d.horizon = false →
      s.poisoned (deepKey t.val ta) = false → i ≠ j → x ≠ 0 → y ≠ 0 →
      (Completes (.patrolScrub t true 0) s fun u =>
        onlyTier u ∧ u.tier t.val = { m with scrubInForce := true, scrubDeep := m.scrubDeep + 1 }) ∧
      (Completes (.patrolScrub t true (symbolError i x)) s fun u =>
        u = { s with tiers := u.tiers, flds := u.flds } ∧ SameFields s u [Reg.TIER_ECC_CORR t.val] ∧
          u.rd (Reg.TIER_ECC_CORR t.val) = (s.rd (Reg.TIER_ECC_CORR t.val) + 1) % 2 ^ 32 ∧
          (u.tier t.val).scrubDeep = m.scrubDeep + 1 ∧ (u.tier t.val).correctedPending = m.correctedPending ++ [a]) ∧
      (Completes (.patrolScrub t true (symbolError i x ^^^ symbolError j y)) s fun u =>
        Records { s with mem := u.mem, poison := u.poison, tiers := u.tiers } u .storageUncorrectable
          (source t.val (5 - d.horizon) 0) [pv6 a, pv1 t.val, pv1 (5 - d.horizon)]
          [Reg.TIER_ECC_UNCORR t.val, Reg.TIER_STATUS_UNCORR t.val, Reg.TIER_ERR_ADDR_VALID t.val,
            Reg.TIER_ERR_ADDR_KIND t.val, Reg.TIER_ERR_ADDR_ADDR t.val] ∧
          u.poisoned (deepKey t.val ta) = true ∧ u.rd (Reg.TIER_STATUS_UNCORR t.val) = 1 ∧
          u.rd (Reg.TIER_ECC_UNCORR t.val) = min (s.rd (Reg.TIER_ECC_UNCORR t.val) + 1) 65535 ∧
          (u.tier t.val).scrubDeep = m.scrubDeep + 1 ∧
          ∀ k, k / 16 ≠ deepKey t.val ta / 16 → u.byteAt k = s.byteAt k ∧ u.poisoned k = s.poisoned k)) ∧
    (∀ a rest, m.correctedPending = a :: rest →
      (s.storageHeld t.val a = false → Completes (.correctedWriteBack t) s fun u =>
        onlyTier u ∧ u.tier t.val = { m with correctedPending := rest }) ∧
      (s.storageHeld t.val a = true → exec (.correctedWriteBack t) s = .next s)) ∧
    (∀ r rest, m.rowUncorrectable = r :: rest →
      let bank := r / 2048
      let src := source t.val (5 - bank / 16 / 64) 0
      let used := Sparse.get 0 m.sparesUsed bank
      let blocked := s.horizonHeld t.val (bank / 16 / 64) || ((PathEnd.horizon (bank / 16 / 64)).inner t.val).any s.domainLost
      (∀ errors, blocked = true → exec (.rowSparing ⟨t, errors⟩) s = .next s) ∧
      (blocked = false →
      (used < 16 → Completes (.rowSparing ⟨t, []⟩) s fun u =>
        Records { s with tiers := u.tiers } u .rowSpared src [] [] ∧ (u.tier t.val).rowUncorrectable = rest ∧
          (u.tier t.val).sparedRows = m.sparedRows ++ [r] ∧ Sparse.get 0 (u.tier t.val).sparesUsed bank = used + 1) ∧
      (16 ≤ used → Completes (.rowSparing ⟨t, []⟩) s fun u =>
        Records { s with tiers := u.tiers } u .rowSpareExhausted src [] [Reg.TIER_STATUS_SPARE_LOW t.val] ∧
          u.rd (Reg.TIER_STATUS_SPARE_LOW t.val) = 1 ∧ (u.tier t.val).sparedRows = m.sparedRows))) ∧
    (∀ (g : Fin 544) (l : Fin 148),
      let x := Sparse.get {} m.lanes g.val
      let after (u : State) : LaneGroup := Sparse.get {} (u.tier t.val).lanes g.val
      (x.failed.contains l.val = false → x.takingOver = none →
        (x.failed.length < 4 → Completes (.laneHealthCheck t g l true) s fun u =>
          onlyTier u ∧ after u = { x with takingOver := some l.val }) ∧
        (x.failed.length = 4 → Completes (.laneHealthCheck t g l true) s fun u =>
          Records { s with tiers := u.tiers } u .laneGroupFailed (source t.val 6 0) []
            [Reg.TIER_STATUS_LANE_FAIL t.val, Reg.TIER_STATUS_CHAN_FAIL t.val] ∧
            u.rd (Reg.TIER_STATUS_LANE_FAIL t.val) = 1 ∧ after u = { x with failed := x.failed ++ [l.val] } ∧
            (g.val < 320 → (u.tier t.val).failedChannels = m.failedChannels ++ [g.val] ∧
              u.rd (Reg.TIER_STATUS_CHAN_FAIL t.val) = 1) ∧
            (320 ≤ g.val → (u.tier t.val).failedChannels = m.failedChannels))) ∧
      (exec (.laneHealthCheck t g l false) s = .next s) ∧
      (x.takingOver = some l.val → Completes (.laneTakeover t g) s fun u =>
        onlyTier u ∧ after u = { failed := x.failed ++ [l.val], takingOver := none })) ∧
    ∀ acc : RegAccess, acc.part ≠ .upper → s.reaches acc.port (0x100000 + t.val * 0x1000) = true →
      (s.holds acc.port.val = true → Completes (.tierCfgWrite t acc) s fun u =>
        u = { s with flds := u.flds, latch := u.latch } ∧
          SameFields s u [Reg.TIER_CFG_RATE t.val, Reg.TIER_CFG_SCRUB_EN t.val] ∧
          u.rd (Reg.TIER_CFG_RATE t.val) = max 1 (min 32 (acc.value % 64)) ∧
          u.rd (Reg.TIER_CFG_SCRUB_EN t.val) = acc.value / 2 ^ 16 % 2) ∧
      (s.holds acc.port.val = false → acc.value % 64 ≠ s.rd (Reg.TIER_CFG_RATE t.val) →
        Completes (.tierCfgWrite t acc) s fun u =>
          Rejected { s with latch := u.latch } u acc.port (0x100000 + t.val * 0x1000))) ∧
  ∀ s : State, Completes .telemetrySnapshot s fun u =>
    u = { s with telemetry := s.telemetry + 1, telemetryInBrim := u.telemetryInBrim } ∧
      (u.telemetryInBrim = true ↔ (s.tower 0).sleep ≠ .awake)

/-- CHUNK_TAKEN, CHUNK_COMMIT and the pre-passes (R262 to R270). That a free lane which finds no ready chunk counts one lane-cycle
of IDLE for each CHUNK_TAKEN is log entry 13's choice (DESIGN CHOICE). -/
def Obligations.SweepsTakeAndCommitChunks : Prop :=
  (∀ (t : Tower) (s : State),
    let un := s.updUnit t.val
    (∀ lane, un.sweeping = false ∨ un.laneFree lane.val = false → exec (.chunkTaken ⟨t, lane⟩ []) s = .next s) ∧
    (∀ lane i e c, un.sweeping = true → un.laneFree lane.val = true → s.planChunks t.val = [(i, e, c)] →
      s.landedFor i c = false → (s.entry i).taken.contains c = false → Completes (.chunkTaken ⟨t, lane⟩ []) s fun u =>
        OnlyFields s u [Reg.UPD_STALL_IDLE t.val] ∧ u.rd (Reg.UPD_STALL_IDLE t.val) =
          (s.rd (Reg.UPD_STALL_IDLE t.val) + 1) % 2 ^ (Reg.UPD_STALL_IDLE t.val).width) ∧
    (un.sweeping = false → exec (.measuringPrePass t []) s = .next s ∧
      exec (.statisticsPrePass t []) s = .next s) ∧
    (un.sweeping = true → ∀ (lane : Fin 32) i e c n, un.laneFree lane.val = true → s.planChunks t.val = [(i, e, c)] → s.staged e c = true → (s.entry i).cnt c = some n →
      let takes (u : State) (r : ChunkRun) : Prop :=
        u.entry i = { s.entry i with taken := (s.entry i).taken ++ [c] } ∧ (∀ j, j ≠ i → u.entry j = s.entry j) ∧
          (u.updUnit t.val).runs = un.runs ++ [r] ∧ ∀ k, k ≠ t.val → u.updUnit k = s.updUnit k
      s.landedFor i c = true →
      ((n = 0 ∨ e.contrib < n) → Completes (.chunkTaken ⟨t, lane⟩ []) s fun u =>
        Records { s with entries := u.entries, upd := u.upd } u .contributionCount (source t.val 6 0) []
          [Reg.UPD_STALL_PASSED t.val, Reg.UPD_GRAD_OVERCOUNT t.val, Reg.UPD_STATUS_OVERCOUNT t.val] ∧
          (e.contrib < n → u.rd (Reg.UPD_STATUS_OVERCOUNT t.val) = 1) ∧ takes u ⟨lane.val, i, c, [], []⟩) ∧
      (0 < n → n < e.contrib → e.short = 2 → Completes (.chunkTaken ⟨t, lane⟩ []) s fun u =>
        u = { s with entries := u.entries, upd := u.upd, flds := u.flds } ∧
          SameFields s u [Reg.UPD_STALL_PASSED t.val, Reg.UPD_GRAD_SHORT t.val, Reg.UPD_STATUS_SHORT t.val] ∧
          u.rd (Reg.UPD_STATUS_SHORT t.val) = 1 ∧ takes u ⟨lane.val, i, c, [], []⟩) ∧
      (∀ gb wb : List Byte, n = e.contrib → 0 < n → e.rule = 0 → e.nrow = 1 → e.ncol = 1 → gb.length = 4 → wb.length = 2 →
        Readable s (.update t) e.gbuf gb → Readable s (.update t) e.master wb →
        let g := fMul (ofF32 e.gscale) (ofF32 (leNat gb))
        let w := decodeElem .bf16 (leNat wb)
        let x := fSub w (fMul (ofF32 (s.entry i).lr) (fAdd g (fMul (ofF32 e.wd) w)))
        let code := (convert .bf16 (Ctl.ofNat e.ctlw)
          (updRnd e.ctlw (s.rd Reg.SHP_SEED_SEED) e.streamW (s.rd (Reg.UPD_STATUS_STEP t.val)) e.index 0) x).1
        g.finite = true → Completes (.chunkTaken ⟨t, lane⟩ []) s fun u =>
          u = { s with entries := u.entries, upd := u.upd, flds := u.flds } ∧
            SameFields s u [Reg.UPD_STALL_PASSED t.val] ∧
            takes u ⟨lane.val, i, c, [(e.master, (leBytes 2 code).map some)], if code = leNat wb then [] else [0]⟩)) ∧
    (un.sweeping = true → s.pages = [] →
      (∀ i e c, s.planChunks t.val = [(i, e, c)] → e.lamb = true → s.staged e c = true → Writable s (.update t) (e.srec + 12) 4 → (s.entry i).prepared = false →
        (s.entry i).cnt c = some 0 → (s.entry i).measured = [] →
        (1 < e.chunks → Completes (.measuringPrePass t []) s fun u =>
          u = { s with entries := u.entries } ∧ u.entry i = { s.entry i with measured := [(c, 0, 0)] } ∧
            ∀ j, j ≠ i → u.entry j = s.entry j) ∧
        (e.chunks = 1 → Completes (.measuringPrePass t []) s fun u =>
          u = { s with entries := u.entries, upd := u.upd, flds := u.flds, mem := u.mem, poison := u.poison } ∧
            Wrote s u (.update t) (e.srec + 12) [0, 0, 0x80, 0x3F] ∧ SameFields s u [Reg.UPD_STATUS_PHASE t.val] ∧
            u.entry i = { s.entry i with measured := [(c, 0, 0)], prepared := true, ratio := 0x3F800000 })) ∧
      (∀ i e rb cb, s.towerEntries t.val = [(i, e)] → e.owner = true → e.factored = true → e.nrow = 1 → e.ncol = 1 →
        (s.entry i).prepared = false → (s.entry i).cnt 0 = some 0 → rb.length = 4 → cb.length = 4 →
        Readable s (.update t) e.m2 rb → Readable s (.update t) e.m2s cb → Writable s (.update t) e.m2 4 →
        Writable s (.update t) e.m2s 4 →
        let zero : Machine.Num := .fin false 0 0
        let mean := fDiv (fAdd zero (fAdd (fMul zero zero) (ofF32 e.eps))) (Num.ofInt 1)
        let new (old : List Byte) : Machine.Num := fAdd (fMul (ofF32 e.beta2) (ofF32 (leNat old)))
          (fMul (fSub one32 (ofF32 e.beta2)) mean)
        Completes (.statisticsPrePass t []) s fun u =>
          ∃ m : State, Wrote s m (.update t) e.m2 (leBytes 4 (toF32 (new rb))) ∧ m = { s with mem := m.mem, poison := m.poison } ∧
            Wrote m u (.update t) e.m2s (leBytes 4 (toF32 (new cb))) ∧ (u.entry i).prepared = true ∧
            (u.entry i).rbar = toF32 (fDiv (fAdd zero (new rb)) (Num.ofInt 1)) ∧ SameFields s u [Reg.UPD_STATUS_PHASE t.val]))) ∧
  ∀ (t : Tower) (i c : Nat) (s : State) (r : ChunkRun) (e : PlanEntry),
    ((s.updUnit t.val).runs.find? fun x => x.entry == i && x.chunk == c) = some r → s.planAt i = some e →
    (s.entry i).committed.length + 1 < e.chunks → s.storesHeld (.update t) r.stores = false →
    let done (u : State) : Prop := (u.updUnit t.val).runs = (s.updUnit t.val).runs.erase r ∧
      (u.entry i).committed = (s.entry i).committed ++ [c] ∧
      u.rd (Reg.UPD_PROGRESS_DONE t.val) = (s.rd (Reg.UPD_PROGRESS_DONE t.val) + 1) % 2 ^ (Reg.UPD_PROGRESS_DONE t.val).width
    (∀ a bs, r.stores = [(a, bs.map some)] → Completes (.chunkCommit t i c) s fun u => done u ∧ Wrote s u (.update t) a bs) ∧
    (r.stores = [] → Completes (.chunkCommit t i c) s fun u =>
      u = { s with upd := u.upd, entries := u.entries, pages := u.pages, tiers := u.tiers, flds := u.flds } ∧ done u ∧
        SameFields s u [Reg.UPD_PROGRESS_DONE t.val, Reg.UPD_STATUS_PHASE t.val] ∧
        ∀ pg ∈ pagesOf (e.gradRange c), ∀ q, s.regionOf pg = some q → q.cls = 3 → (s.page pg).state = .resident →
          (∀ f d, (f, d) ∈ u.uncommitted → pg ∉ pagesOf (f.gradRange d)) → u.page pg = {})

/-- COPY_REGENERATION, ENTRY_COMPLETE and REGEN (R265, R273 to R277, R280). Which step's draws a copy takes (R276) is log entry
13's reading (DEDUCED). -/
def Obligations.CopiesDigestsAndRegeneration : Prop :=
  (∀ (i : Nat) (s : State) (e : PlanEntry), s.planAt i = some e →
    let x := s.entry i
    let o : Orig := .update (Fin.ofNat 4 e.tower)
    (x.copying = true → exec (.copyRegeneration i []) s = .next s) ∧
    (x.regen = false → x.complete = true → exec (.copyRegeneration i []) s = .next s) ∧
    (x.regen = false → e.owner = true → x.committed.length < e.chunks → exec (.copyRegeneration i []) s = .next s) ∧
    (x.regen = false → e.owner = false → x.arrived = false ∨ s.step = none → exec (.copyRegeneration i []) s = .next s) ∧
    (x.regen = true → x.copying = false →
      (s.fabric.copies.getD i [] = [] → Completes (.copyRegeneration i []) s fun u =>
        u = { s with entries := u.entries, upd := u.upd, flds := u.flds } ∧
          u.entry i = { x with copying := true, drawn := some (s.copyStep i e) } ∧
          SameFields s u [Reg.UPD_STATUS_PHASE e.tower]) ∧
      (∀ (d : CopyDesc) (f : Fmt) (wb : List Byte), s.fabric.copies.getD i [] = [d] → e.nrow = 1 → e.ncol = 1 → d.kind = 0 → d.olist = 0 → Fmt.ofCode d.fmt = some f → wb.length = 2 →
        Readable s o e.master wb → s.rangeHolder o d.dst (f.width / 8) = none →
        let code := (convert f (Ctl.ofNat d.ctl) (updRnd d.ctl (s.rd Reg.SHP_SEED_SEED) d.stream
          (s.copyStep i e) e.index 0) ((ofF32 d.prescale).mul (decodeElem .bf16 (leNat wb)))).1
        Completes (.copyRegeneration i []) s fun u =>
          Wrote s u o d.dst (leBytes (f.width / 8) code) ∧
            u.entry i = { x with copying := true, drawn := some (s.copyStep i e) } ∧
            ∀ j, j ≠ i → u.entry j = s.entry j)) ∧
    (s.copyStep i e = if e.owner = true then s.rd (Reg.UPD_STATUS_STEP e.tower)
      else if x.regen = true then x.drawn.getD (s.rd (Reg.UPD_STATUS_STEP e.tower)) else s.rd Reg.SHP_STEP_STEP) ∧
    (x.copying = false ∨ s.digestHeld e = true → exec (.entryComplete i) s = .next s) ∧
    (x.copying = true → s.digestHeld e = false →
      (x.regen = true → s.rd Reg.RED_RECOVER_STATE ≠ 3 → Completes (.entryComplete i) s fun u =>
        u = { s with entries := u.entries, upd := u.upd, flds := u.flds } ∧
          u.entry i = { x with copying := false, regen := false } ∧ SameFields s u [Reg.UPD_STATUS_PHASE e.tower]) ∧
      (x.regen = false → e.owner = false → s.plainObj e.done → s.objReached o e.done = true → Completes (.entryComplete i) s fun u =>
        u = { s with entries := u.entries, upd := u.upd, flds := u.flds, sync := u.sync } ∧
          u.entry i = { x with copying := false, complete := true, landed := [] } ∧ ObjSet s u e.done (s.obj e.done + 1) ∧
          SameFields s u [Reg.UPD_STATUS_PHASE e.tower]) ∧
      (∀ bs : List Byte, x.regen = false → e.owner = true → s.plainObj e.done → s.objReached o e.done = true → s.pages = [] →
        bs.length = 2 * e.params → Readable s o e.master bs → Writable s o (e.srec + 16) 8 → Completes (.entryComplete i) s fun u =>
          Wrote s u o (e.srec + 16) (leBytes 8 (crc64 bs)) ∧ ObjSet s u e.done (s.obj e.done + 1) ∧
            u.entry i = { x with copying := false, complete := true, landed := [], digest := crc64 bs, digestValid := true } ∧
            SameFields s u [Reg.UPD_STATUS_PHASE e.tower]))) ∧
  ∀ (acc : RegAccess) (s : State), s.bar0Open 0x404008 = true → s.postedHolder acc.port.val = none →
    (acc.part = .upper → exec (.regen acc) s = .next s) ∧
    (acc.part ≠ .upper →
    (bit acc.value 0 = false → exec (.regen acc) s = .next s) ∧
    (bit acc.value 0 = true → s.holds acc.port.val = true → (∀ t < 4, s.rd (Reg.UPD_STATUS_PHASE t) = 0) →
      Completes (.regen acc) s fun u =>
        u = { s with entries := u.entries, upd := u.upd, flds := u.flds } ∧
          (∀ i e, s.planAt i = some e → u.entry i = { s.entry i with regen := true, copying := false, drawn := none }) ∧
          SameFields s u [Reg.UPD_STATUS_PHASE 0, Reg.UPD_STATUS_PHASE 1, Reg.UPD_STATUS_PHASE 2, Reg.UPD_STATUS_PHASE 3]) ∧
    (bit acc.value 0 = true → (s.holds acc.port.val = false ∨ ∃ t < 4, s.rd (Reg.UPD_STATUS_PHASE t) ≠ 0) →
      Completes (.regen acc) s fun u => Rejected s u acc.port 0x404008))

/-- The four frame types (R284 to R287, R295, R304, R305). -/
def Obligations.FramesAreTakenInSequence : Prop :=
  ∀ (link : Link) (s : State) (n : Nat),
    let l := link.val
    let k := s.link l
    let state (u : State) : Prop := u = { s with fabric := u.fabric, flds := u.flds, outbox := u.outbox }
    (s.linkActive l = true →
      (∀ frame, k.replay.length < 512 → k.waiting = [] → Completes (.dataFrame link false n frame) s fun u =>
        state u ∧ OnlyLink s u l ∧ Answered s u l k.rxSeq true ∧ (u.link l).rxSeq = k.rxSeq ∧ (u.link l).ingress = k.ingress ∧
          SameFields s u [Reg.HB_LINK_ERR_CORR_CW l, Reg.HB_LINK_ERR_BAD_FRAME l] ∧
          u.rd (Reg.HB_LINK_ERR_BAD_FRAME l) = min (s.rd (Reg.HB_LINK_ERR_BAD_FRAME l) + 1) 65535) ∧
      (∀ frame : List Byte, frame.length = 2570 → crc32 (frame.take 2566) = fieldNat frame 2566 4 → frameType frame = 0 →
        bits (fieldNat frame 0 6) 14 3 ≠ k.rxSeq → Completes (.dataFrame link true n frame) s fun u =>
          OnlyFields s u [Reg.HB_LINK_ERR_CORR_CW l]) ∧
      (∀ (frame hdr : List Byte), GoodFrame s l 0 frame → k.partialPkt = [] → hdr.length = 64 → hdr.all (· == 0) = false →
        fieldNat hdr 6 2 % 8192 = 0 → (frame.drop 6).take 2560 = hdr ++ List.replicate 2496 0 →
        Completes (.dataFrame link true n frame) s fun u =>
          state u ∧ OnlyLink s u l ∧ Answered s u l k.rxSeq false ∧ (u.link l).rxSeq = (k.rxSeq + 1) % 4096 ∧
            (∃ own pool, own + pool = 1 ∧ (u.link l).ingress = k.ingress ++ [⟨⟨hdr, []⟩, own, pool⟩]) ∧
            SameFields s u [Reg.HB_LINK_ERR_CORR_CW l] ∧
            u.rd (Reg.HB_LINK_ERR_CORR_CW l) = (s.rd (Reg.HB_LINK_ERR_CORR_CW l) + n) % 2 ^ 32)) ∧
    (s.linkUp l = true →
      (∀ (frame x : List Byte), GoodFrame s l 1 frame → x.length = 8 → fieldNat x 4 1 ≠ 0 →
        (frame.drop 6).take 64 = x ++ List.replicate 56 0 → Completes (.noticeFrame link true n frame) s fun u =>
          state u ∧ u.fabric.noticeIn = s.fabric.noticeIn ++ [(l, x)] ∧ u.fabric.notices = s.fabric.notices ∧
            Answered s u l k.rxSeq false ∧ (u.link l).rxSeq = (k.rxSeq + 1) % 4096 ∧ (u.link l).ingress = k.ingress ∧
            SameFields s u [Reg.HB_LINK_ERR_CORR_CW l]) ∧
      (∀ frame : List Byte, GoodFrame s l 2 frame → Completes (.fenceFrame link true n frame) s fun u =>
        u = { s with fabric := u.fabric, flds := u.flds, outbox := u.outbox } ∧ OnlyLink s u l ∧ u.linkState l = 11 ∧
          (∃ ctl, ctl % 8 = 2 ∧ u.outbox = s.outbox ++ [.frame l (mkFrame ctl [])]) ∧ u.rd (Reg.HB_LINK_STATUS_REASON l) = 4 ∧ u.rd (Reg.HB_LINK_STATUS_FENCED_EV l) = 1 ∧ (u.link l).replay = [] ∧
          SameFields s u [Reg.HB_LINK_ERR_CORR_CW l, Reg.HB_LINK_STATUS_STATE l, Reg.HB_LINK_STATUS_REASON l,
            Reg.HB_LINK_STATUS_FENCED_EV l]) ∧
      ∀ why : Fin 3, Completes (.linkDown link why) s fun u =>
        u = { s with fabric := u.fabric, flds := u.flds } ∧ OnlyLink s u l ∧ u.linkState l = 9 ∧
          u.rd (Reg.HB_LINK_STATUS_REASON l) = why.val + 1 ∧ u.rd (Reg.HB_LINK_STATUS_DOWN_EV l) = 1 ∧
          (u.link l).replay = [] ∧
          SameFields s u [Reg.HB_LINK_ERR_LOST_PKT l, Reg.HB_LINK_STATUS_STATE l, Reg.HB_LINK_STATUS_REASON l,
            Reg.HB_LINK_STATUS_DOWN_EV l]) ∧
    (s.linkUp l = false → ∀ why, exec (.linkDown link why) s = .next s) ∧
    (s.linkState l = 11 → ∀ ok frame, Completes (.dataFrame link ok n frame) s fun u =>
      ∃ ctl, ctl % 8 = 2 ∧ u = { s with outbox := s.outbox ++ [.frame l (mkFrame ctl [])] }) ∧
    (exec (.trainingFrame link none) s = .next s) ∧
    ∀ b, ((s.linkState l = 4 ∨ s.linkState l = 5) → Completes (.trainingFrame link (some b)) s fun u =>
        u = { s with fabric := u.fabric, flds := u.flds } ∧ OnlyLink s u l ∧ u.link l = { k with partnerPlane := b.plane } ∧
          u.rd (Reg.HB_PARTNER_COORD l) = b.coord % 2 ^ 14 ∧ u.rd (Reg.HB_PARTNER_LINK l) = b.link % 16 ∧
          u.rd (Reg.HB_PARTNER_PRODUCT l) = b.product % 2 ^ 16 ∧
          SameFields s u [Reg.HB_PARTNER_VERMAX l, Reg.HB_PARTNER_VERMIN l, Reg.HB_PARTNER_COORD_VALID l,
            Reg.HB_PARTNER_COORD l, Reg.HB_PARTNER_LINK l, Reg.HB_PARTNER_STEPPING l, Reg.HB_PARTNER_PRODUCT l]) ∧
      (s.linkState l ≠ 4 → s.linkState l ≠ 5 → exec (.trainingFrame link (some b)) s = .next s)

/-- Link bring-up (R294 to R297, R501). -/
def Obligations.LinksComeUpInOrder : Prop :=
  ∀ (link : Link) (s : State),
    let l := link.val
    let st := Reg.HB_LINK_STATUS_STATE l
    let why := Reg.HB_LINK_STATUS_REASON l
    let tries := Reg.HB_LINK_STATUS_ATTEMPTS l
    let moves (i : Instr) (v : Nat) (but : List Fld) : Prop := Completes i s fun u => OnlyFields s u (st :: but) ∧ u.rd st = v
    (if s.linkState l = 1 then moves (.partnerDetected link) 2 [] else exec (.partnerDetected link) s = .next s) ∧
    (s.linkState l = 3 → Completes (.alignComplete link) s fun u =>
      u = { s with flds := u.flds, outbox := s.outbox ++ [.training l (s.ownBlock l)] } ∧ SameFields s u [st] ∧ u.rd st = 4) ∧
    (s.linkState l ≠ 3 → exec (.alignComplete link) s = .next s) ∧
    (∀ il, (s.linkState l ≠ 2 → exec (.trainComplete link il) s = .next s) ∧
      (s.linkState l = 2 → il < 1024 → 0 < s.rd Reg.HB_FAB_CFG_PERM → Completes (.trainComplete link il) s fun u =>
        OnlyFields s u [st, Reg.HB_LINK_MEAS_IL l, Reg.HB_LINK_MEAS_LEN_EST l] ∧ u.rd st = 3 ∧
          u.rd (Reg.HB_LINK_MEAS_IL l) = il ∧
          u.rd (Reg.HB_LINK_MEAS_LEN_EST l) =
            (il - s.rd Reg.HB_FAB_CFG_ALLOW) * 10 / s.rd Reg.HB_FAB_CFG_PERM % 1024)) ∧
    (∀ (b : Capability) (flight : Nat),
      let lo := max Config.linkVerMin.toNat b.verMin
      let hi := min Config.linkVerMax.toNat b.verMax
      (s.linkState l ≠ 4 → exec (.capabilityExchange link b flight) s = .next s) ∧
      (s.linkState l = 4 → Completes (.capabilityExchange link b flight) s fun u =>
        u = { s with fabric := u.fabric, flds := u.flds } ∧ OnlyLink s u l ∧
          u.rd (Reg.HB_LINK_MEAS_FLIGHT l) = flight % 2 ^ 16 ∧ u.rd (Reg.HB_PARTNER_COORD l) = b.coord % 2 ^ 14 ∧
          (b.product = 0xD032 → lo ≤ hi → u.rd st = 5 ∧ u.rd (Reg.HB_LINK_STATUS_LINKVER l) = hi ∧ u.rd why = s.rd why) ∧
          ((b.product ≠ 0xD032 ∨ hi < lo) → u.rd st = 10 ∧ u.rd why = 5 ∧ u.rd (Reg.HB_LINK_STATUS_REFUSED l) = 1))) ∧
    ((s.linkState l = 5 ∨ s.linkState l = 6) → s.coordsValid = true →
      (s.wiringOk l = true → Completes (.verify link) s fun u =>
        u = { s with fabric := u.fabric, flds := u.flds } ∧ OnlyLink s u l ∧ SameFields s u [st, tries] ∧
          (u.link l).rxSeq = 0 ∧ (u.link l).txSeq = 0 ∧ (u.link l).replay = [] ∧ (u.link l).vcUsed = [] ∧
          (s.rd Reg.SHP_STATUS_STATE = 0 → u.rd st = 8 ∧ u.rd tries = 0) ∧
          (s.rd Reg.SHP_STATUS_STATE ≠ 0 → u.rd st = 7 ∧ u.rd tries = s.rd tries)) ∧
      (s.wiringOk l = false → Completes (.verify link) s fun u =>
        Records s u .miswire (linkSource l) [pv2 s.physSelf, pv2 (s.rd (Reg.HB_PARTNER_COORD l)), pv1 l,
          pv1 (s.rd (Reg.HB_PARTNER_LINK l))] [st, why, Reg.HB_LINK_STATUS_MISWIRE l] ∧
          u.rd st = 10 ∧ u.rd why = 6 ∧ u.rd (Reg.HB_LINK_STATUS_MISWIRE l) = 1)) ∧
    (s.coordsValid = false → exec (.verify link) s = .next s) ∧
    (∀ ratio, ((s.linkState l = 2 ∨ s.linkState l = 3 ∨ s.linkState l = 4) → Completes (.linkStateTimeout link ratio) s fun u =>
        u = { s with fabric := u.fabric, flds := u.flds } ∧ OnlyLink s u l ∧ u.rd st = 9 ∧
          u.rd why = (if s.linkState l = 3 ∧ ratio = true then 8 else 7) ∧ u.rd (Reg.HB_LINK_STATUS_DOWN_EV l) = 1) ∧
      (s.linkState l ≠ 2 → s.linkState l ≠ 3 → s.linkState l ≠ 4 → exec (.linkStateTimeout link ratio) s = .next s)) ∧
    (s.linkState l = 9 → s.refLost.contains (linkBrim l) = false →
      (s.rd tries < 3 → Completes (.downIdleExpiry link) s fun u =>
        OnlyFields s u [st, tries] ∧ u.rd st = 2 ∧ u.rd tries = s.rd tries + 1) ∧
      (3 ≤ s.rd tries → moves (.downIdleExpiry link) 10 [])) ∧
    ((s.linkState l ≠ 9 ∨ s.refLost.contains (linkBrim l) = true) → exec (.downIdleExpiry link) s = .next s)

/-- Link registers (R310, R311) and the router (R299 to R301). That a packet whose way between two brims is lost is discarded without a
count is log entry 20's reading of R30 (DEDUCED). -/
def Obligations.LinkRegistersAndTheRouter : Prop :=
  (∀ (link : Link) (acc : RegAccess) (s : State), s.bar0Open (0x200000 + link.val * 0x1000) = true →
    s.postedHolder acc.port.val = none →
    (acc.part = .upper → exec (.linkActivate link acc) s = .next s ∧ exec (.retrain link acc) s = .next s) ∧
    (acc.part ≠ .upper →
    let l := link.val
    let st := Reg.HB_LINK_STATUS_STATE l
    let tries := Reg.HB_LINK_STATUS_ATTEMPTS l
    let toState (i : Instr) (v : Nat) : Prop := Completes i s fun u => OnlyFields s u [st, tries] ∧ u.rd st = v ∧ u.rd tries = 0
    (bit acc.value 2 = true → s.holds acc.port.val = true → s.linkState l = 7 → toState (.linkActivate link acc) 8) ∧
    (bit acc.value 1 = true → s.holds acc.port.val = true → (s.linkState l = 10 ∨ s.linkState l = 11) →
      toState (.retrain link acc) 2) ∧
    ((bit acc.value 2 = false ∨ s.holds acc.port.val = true ∧ s.linkState l ≠ 7) →
      exec (.linkActivate link acc) s = .next s) ∧
    ((bit acc.value 1 = false ∨ s.holds acc.port.val = true ∧ s.linkState l ≠ 10 ∧ s.linkState l ≠ 11) →
      exec (.retrain link acc) s = .next s) ∧
    (bit acc.value 2 = true → s.holds acc.port.val = false → Completes (.linkActivate link acc) s fun u =>
      Rejected s u acc.port (0x200000 + l * 0x1000)) ∧
    (bit acc.value 1 = true → s.holds acc.port.val = false → Completes (.retrain link acc) s fun u =>
      Rejected s u acc.port (0x200000 + l * 0x1000)) ∧
    (s.holds acc.port.val = true → Completes (.linkEn link acc) s fun u =>
      u = { s with fabric := u.fabric, flds := u.flds, latch := u.latch } ∧ OnlyLink s u l ∧
        SameFields s u [st, Reg.HB_LINK_CTL_EN l] ∧ u.rd (Reg.HB_LINK_CTL_EN l) = acc.value % 2 ∧
        (acc.value % 2 = 0 → u.rd st = 0) ∧
        (acc.value % 2 = 1 → u.rd st = if s.rd st = 0 ∧ s.boot.serdes = true then 1 else s.rd st)))) ∧
  (∀ (acc : RegAccess) (s : State), s.bar0Open 0x20F000 = true → s.bar0Open 0x20F008 = true →
    s.postedHolder acc.port.val = none →
    ((s.rd Reg.SHP_STATUS_STATE ≠ 0 ∨ ∃ l < 14, s.linkActive l = true) →
      (Completes (.hbCoordWrite acc) s fun u => Rejected s u acc.port 0x20F000) ∧
      Completes (.hbPlaneWrite acc) s fun u => Rejected s u acc.port 0x20F008) ∧
    (s.rd Reg.SHP_STATUS_STATE = 0 → (∀ l < 14, s.linkActive l = false) → s.holds acc.port.val = true →
      let goOn (u : State) : Prop := ∀ l < 14, u.linkState l =
        if u.coordsValid = true ∧ s.linkState l = 5 then 6 else s.linkState l
      let blocks (u : State) : List Out := ((List.range 14).filter fun l => s.linkState l == 4 || s.linkState l == 5).map
        fun l => .training l (u.ownBlock l)
      (Completes (.hbCoordWrite acc) s fun u =>
        u = { s with flds := u.flds, latch := u.latch, outbox := s.outbox ++ blocks u } ∧
          u.rd Reg.HB_COORD_COORD = (if acc.part = .upper then s.rd Reg.HB_COORD_COORD else acc.value % 2 ^ 14) ∧
          u.rd Reg.HB_COORD_VALID = (match acc.part with
            | .whole => acc.value / 2 ^ 63 % 2
            | .lower => s.rd Reg.HB_COORD_VALID
            | .upper => acc.value / 2 ^ 31 % 2) ∧ u.rd Reg.HB_PLANE_DIMX = s.rd Reg.HB_PLANE_DIMX ∧ goOn u) ∧
      Completes (.hbPlaneWrite acc) s fun u =>
        u = { s with flds := u.flds, latch := u.latch, outbox := s.outbox ++ blocks u } ∧
          [Reg.HB_PLANE_DIMX, Reg.HB_PLANE_DIMY, Reg.HB_PLANE_DIMZ, Reg.HB_PLANE_TWIN].map u.rd =
            (if acc.part = .upper then
              [Reg.HB_PLANE_DIMX, Reg.HB_PLANE_DIMY, Reg.HB_PLANE_DIMZ, Reg.HB_PLANE_TWIN].map s.rd
             else [acc.value % 32, acc.value / 2 ^ 8 % 32, acc.value / 2 ^ 16 % 64, acc.value / 2 ^ 24 % 2]) ∧ u.rd Reg.HB_COORD_COORD = s.rd Reg.HB_COORD_COORD ∧ goOn u)) ∧
  ∀ (l : Link) (vc : Fin 32) (s : State) (e : InPkt),
    let input : Fin 18 := ⟨l.val, by omega⟩
    let p := e.pkt
    ((s.link l.val).ingress.find? fun x => x.pkt.vc == vc.val) = some e → vcClass p.vc ≠ 4 → p.hdr.length = 64 →
    (p.dst = s.physSelf → s.deliveryWaits p none = true → exec (.packetForward ⟨input, vc⟩ []) s = .next s) ∧
    (p.dst = s.physSelf → s.deliveryWaits p none = false → Completes (.packetForward ⟨input, vc⟩ []) s fun u =>
      let bad := !knownKind (vcClass p.vc) p.kind && !p.ecrcOk
      u = { s with fabric := u.fabric, flds := u.flds } ∧ SameFields s u (if bad then [Reg.HB_DROP_ECRC_ERR] else []) ∧
        (bad = true → u.rd Reg.HB_DROP_ECRC_ERR = min (s.rd Reg.HB_DROP_ECRC_ERR + 1) 65535) ∧
        u.fabric.ejected = s.fabric.ejected ++ (if knownKind (vcClass p.vc) p.kind then [(linkBrim l.val, p)] else []) ∧
        (u.link l.val).ingress = (s.link l.val).ingress.erase e ∧ ∀ k, k ≠ l.val → u.link k = s.link k) ∧
    ∀ d neg out, p.dst ≠ s.physSelf → p.detour = false → cplane s.physSelf = cplane p.dst →
      s.torusHop false s.physSelf p.dst p.src = some (d, neg) → d < 3 →
      s.dirLink (bits (let h := p.flow ^^^ p.src ^^^ p.dst; h ^^^ (h >>> 5) ^^^ (h >>> 10)) d d) d neg = some out →
      (p.hops ≤ 1 → Completes (.packetForward ⟨input, vc⟩ []) s fun u =>
        u = { s with fabric := u.fabric, flds := u.flds } ∧ (u.link l.val).ingress = (s.link l.val).ingress.erase e ∧
          SameFields s u [Reg.HB_DROP_HOPS_DROP] ∧ u.fabric.ejected = s.fabric.ejected ∧
          u.rd Reg.HB_DROP_HOPS_DROP = min (s.rd Reg.HB_DROP_HOPS_DROP + 1) 65535) ∧
      (1 < p.hops → ∃ q : Pkt, q.hops = p.hops - 1 ∧ q.dst = p.dst ∧ q.src = p.src ∧ q.data = p.data ∧
        (s.servedNext out l.val vc.val = none → exec (.packetForward ⟨input, vc⟩ []) s = .next s) ∧
        (s.offers out = [⟨l.val, vc.val, q.flits⟩] → s.servedNext out l.val vc.val = some ⟨l.val, vc.val, q.flits⟩) ∧
        (∀ o, s.servedNext out l.val vc.val = some o → s.brimCut (linkBrim l.val) (linkBrim out) = true →
          Completes (.packetForward ⟨input, vc⟩ []) s fun u =>
            u = { s with fabric := u.fabric } ∧ OnlyLink s u l.val ∧
              (u.link l.val).ingress = (s.link l.val).ingress.erase e) ∧
        (∀ o, s.servedNext out l.val vc.val = some o → s.brimCut (linkBrim l.val) (linkBrim out) = false →
          Completes (.packetForward ⟨input, vc⟩ []) s fun u =>
          (u.link l.val).ingress = (s.link l.val).ingress.erase e ∧ u.fabric.ejected = s.fabric.ejected ∧
            (u.link out).replay.length = (s.link out).replay.length + p.frames ∧
            ∃ fs : List (List Byte), fs.length = p.frames ∧ u.outbox = s.outbox ++ fs.map (.frame out)))

/-- Requests (R292, R293) and failures (R304 to R307). -/
def Obligations.RequestsAndFailuresReachThePackage : Prop :=
  (∀ (s : State) (b : Nat) (p : Pkt), b < 4 → p.hdr.length = 64 →
    let o : Orig := .router (Fin.ofNat 4 b)
    let n := fieldNat p.hdr 20 2
    (s.arrived 1 0x01 b p → p.addr % 16 = 0 → n % 16 = 0 → 16 ≤ n → n ≤ 4096 →
      ∀ bs : List Byte, bs.length = n → Readable s o p.addr bs → Completes (.readRequest []) s fun u =>
        u = { s with fabric := u.fabric, fresh := s.fresh + 1, towers := (s.countAccess p.addr n).towers } ∧
          Sent s u b p.src 0x81 (leBytes 2 p.tag ++ [0, 0, 0]) [] bs ∧
          u.fabric.ejected = s.fabric.ejected.erase (b, p)) ∧
    (s.arrived 1 0x01 b p → p.addr % 16 ≠ 0 → Completes (.readRequest []) s fun u =>
      u = { s with fabric := { s.fabric with ejected := s.fabric.ejected.erase (b, p) } }) ∧
    (s.arrived 1 0x02 b p → p.addr % 16 = 0 → p.data.length % 16 = 0 → p.data ≠ [] → p.poison = false →
      Writable s o p.addr p.data.length → Completes .writeRequest s fun u =>
        Wrote s u o p.addr p.data ∧ Sent s u b p.src 0x82 (leBytes 2 p.tag ++ [0, 0, 0]) [] []) ∧
    ((s.fabric.ejected.find? fun e => vcClass e.2.vc == 1 && e.2.kind == 0x01) = some (b, p) → p.ecrcOk = false →
      Completes (.readRequest []) s fun u =>
        u = { s with flds := u.flds, fabric := { s.fabric with ejected := s.fabric.ejected.erase (b, p) } } ∧
          SameFields s u [Reg.HB_DROP_ECRC_ERR] ∧
          u.rd Reg.HB_DROP_ECRC_ERR = min (s.rd Reg.HB_DROP_ECRC_ERR + 1) 65535) ∧
    (∀ c rd, s.arrived 2 0x81 b p → s.fabric.requests = [⟨p.tag, p.src, false, n, .load c 0 rd⟩] → p.poison = false →
      fieldNat p.hdr 22 1 = 0 → Completes .readData s fun u =>
        u = { s with fabric := u.fabric, cores := u.cores } ∧ u.fabric.requests = [] ∧ (u.thr c .F).wait = none ∧
          (u.thr c .F).pc = (s.thr c .F).pc ∧
          ∀ r, (u.thr c .F).reg r = if r = rd ∧ r ≠ 0 then leNat p.data % 2 ^ 64 else (s.thr c .F).reg r) ∧
    (∀ c, s.arrived 2 0x82 b p → s.fabric.requests = [⟨p.tag, p.src, true, n, .store c 0⟩] → fieldNat p.hdr 22 1 = 0 →
      Completes .writeAcknowledgement s fun u =>
        u = { s with fabric := u.fabric, cores := u.cores } ∧ u.fabric.requests = [] ∧
          u.thr c .F = { s.thr c .F with wait := none }) ∧
    (s.arrived 2 0x81 b p → (∀ r ∈ s.fabric.requests, r.tag ≠ p.tag) → Completes .readData s fun u =>
      u = { s with fabric := { s.fabric with ejected := s.fabric.ejected.erase (b, p) } })) ∧
  (∀ (s : State) (tag dst len c : Nat), s.fabric.requests = [⟨tag, dst, true, len, .store c 1⟩] →
    Completes (.reqTimeout tag) s fun u =>
      Records { s with fabric := u.fabric, cores := u.cores } u .fabricTimeout (source 0 0 4) [pv2 tag, pv2 dst] [] ∧
        u.fabric = { s.fabric with requests := [] } ∧ u.thr c .B = { s.thr c .B with wait := none }) ∧
  (∀ (s : State) (l : Nat) (n : List Byte) (rest : List (Nat × List Byte)), s.fabric.noticeIn = (l, n) :: rest →
    let failed := fieldNat n 0 2 % 16384
    (s.fabric.notices.contains n = true → Completes .failureNotice s fun u =>
      u = { s with fabric := { s.fabric with noticeIn := rest } }) ∧
    (s.fabric.notices.contains n = false → s.fabric.notices.length < 64 → fieldNat n 4 1 ≠ 3 →
      (failed ≠ s.physSelf → s.spareOf s.physSelf = none → s.spareOf failed = none → s.failureKnown failed = false →
        ∀ k, ((List.range 32).find? fun i => !s.rdB (Reg.HB_FAIL_VALID i)) = some k →
        (∀ f, s.fabric.takenOver = some f → s.rd Reg.RED_RECOVER_STATE = 1 → s.mirrorTargetOf f = failed →
          Completes .failureNotice s fun u => u.rd Reg.RED_RECOVER_STATE = 5 ∧ u.rd (Reg.HB_FAIL_VALID k) = 1) ∧
        (s.rd Reg.RED_RECOVER_STATE ≠ 1 → Completes .failureNotice s fun u =>
          u.fabric.notices = s.fabric.notices ++ [n] ∧ u.fabric.noticeIn = rest ∧ u.rd (Reg.HB_FAIL_VALID k) = 1 ∧
            u.rd (Reg.HB_FAIL_COORD k) = failed ∧ u.rd (Reg.HB_FAIL_REASON k) = fieldNat n 4 1 % 256 ∧
            u.rd Reg.HB_FAB_STATUS_FAILS = min (s.rd Reg.HB_FAB_STATUS_FAILS + 1) 255 ∧
            (∀ j < 14, j ≠ l → s.linkUp j = true → (s.link j).replay.length < 512 → (s.link j).waiting = [] →
              ∃ ctl, Out.frame j (mkFrame ctl (padBytes 64 n)) ∈ u.outbox) ∧
            SameFields s u [Reg.HB_FAIL_VALID k, Reg.HB_FAIL_COORD k, Reg.HB_FAIL_REASON k, Reg.HB_FAB_STATUS_FAILS,
              Reg.HB_FAB_STATUS_UNSPARED]))) ∧
    (s.fabric.notices.contains n = false →
      ∀ r, failed = s.physSelf → s.step = some r → Completes .failureNotice s fun u =>
        (∀ j < 14, u.linkState j = 11) ∧ u.urgentRuns = [] ∧
          u.step.map (·.failed) = some (if r.failed = 0 then 4 else r.failed))) ∧
  (∀ s : State, exec (.declareNeighbourFailed 6) s = .next s) ∧
  ∀ (s : State) (dir : Fin 6),
    let d := dir.val / 2
    let neg := dir.val % 2 == 1
    let n := s.neighbour s.physSelf d neg
    let dir7 : Fin 7 := ⟨dir.val, by omega⟩
    ((s.linkActive (linkNo d neg 0) = true ∨ s.linkActive (linkNo d neg 1) = true) →
      exec (.declareNeighbourFailed dir7) s = .next s) ∧
    (s.linkActive (linkNo d neg 0) = false → s.linkActive (linkNo d neg 1) = false → s.coordsValid = true → n ≠ s.physSelf →
      s.failureKnown n = false → s.fabric.notices.contains (noticeBytes n s.physSelf 2 0) = false →
      s.fabric.notices.length < 64 → s.spareOf s.physSelf = none → s.spareOf n = none →
      ∀ k, ((List.range 32).find? fun i => !s.rdB (Reg.HB_FAIL_VALID i)) = some k →
        Completes (.declareNeighbourFailed dir7) s fun u =>
          u.fabric.notices = s.fabric.notices ++ [noticeBytes n s.physSelf 2 0] ∧ u.rd (Reg.HB_FAIL_VALID k) = 1 ∧
            u.rd (Reg.HB_FAIL_COORD k) = n % 2 ^ 14 ∧ u.rd (Reg.HB_FAIL_REASON k) = 2)

/-- Reduction (R314, R321 to R339, R346). That a piece whose way from its input's brim to its combining brim is lost is discarded
without a count is log entry 20's reading of R30 (DEDUCED). -/
def Obligations.ReductionCombinesAndLands : Prop :=
  (∀ (i : Fin 18) (ch : Fin 8) (s : State) (p : Pkt), s.rd Reg.RED_CFG_MODE ≠ 2 →
    let vc := 8 + ch.val
    let g := s.group p.rGroup
    let b := s.combineBrim g p.rChunk p.rOwner p.rEntry
    let s' := s.popInput i.val vc
    let r := s.brimRed b
    let e := s.expected g s.logSelf p.rOwner
    let frame (u : State) (but : List Fld) : Prop := u = { s with fabric := u.fabric, flds := u.flds } ∧ SameFields s u but
    (s.redHead i.val vc 0x01 = some p → i.val < 14 → p.ecrcOk = false → Completes (.contrib ⟨i, ch⟩ false []) s fun u =>
      Records { s with fabric := u.fabric } u .reductionIntegrity (linkSource i.val) [pv2 p.src]
        [Reg.RED_ERR_CNT_ECRC_ERR, Reg.RED_STATUS_INTEG] ∧ u.rd Reg.RED_STATUS_INTEG = 1 ∧ u.fabric = s'.fabric) ∧
    (s.redHead i.val vc 0x01 = some p → s.checkPiece i.val p = none → s.brimCut (inputBrim i.val) b = false → p.rOwner ≠ s.logSelf → s.isOlder b p = false →
      ((∀ x ∈ r.store, x.key ≠ p.key) → r.store.length < 1024 → p.rCnt < e → Completes (.contrib ⟨i, ch⟩ false []) s fun u =>
        frame u [Reg.RED_STATUS_STORE_HI] ∧ (∀ q, u.injectQ q = s'.injectQ q) ∧ ∃ x : StoreEntry,
          (u.brimRed b).store = r.store ++ [x] ∧ x.key = p.key ∧ x.elems = p.rElems ∧ x.cnt = p.rCnt ∧ x.inputs = 1) ∧
      ((∀ x ∈ r.store, x.key ≠ p.key) → 1024 ≤ r.store.length → Completes (.contrib ⟨i, ch⟩ false []) s fun u =>
        frame u [Reg.RED_STORE_PASS, Reg.RED_STATUS_PASS] ∧ u.rd Reg.RED_STATUS_PASS = 1 ∧ u.brimRed b = r ∧
          ∃ q : InjPkt, u.injectQ b = s'.injectQ b ++ [q] ∧ q.pkt.data = p.data ∧ q.taken = true) ∧
      ∀ x, r.store = [x] → x.key = p.key → 1 ≤ x.inputs → x.hdr.length = 64 →
        let sum : List RElem := (x.elems.zip p.rElems).map fun q =>
          if q.1.1 = 0xFFFFFFFF ∨ q.2.1 = 0xFFFFFFFF then (0xFFFFFFFF, 15)
          else (toF32 ((ofF32 q.1.1).add (ofF32 q.2.1)), residueOf (toF32 ((ofF32 q.1.1).add (ofF32 q.2.1))))
        (x.cnt + p.rCnt < e → Completes (.contrib ⟨i, ch⟩ false []) s fun u =>
          frame u [] ∧ (∀ q, u.injectQ q = s'.injectQ q) ∧
            (u.brimRed b).store = [{ x with elems := sum, inputs := x.inputs + 1, cnt := x.cnt + p.rCnt }]) ∧
        (e ≤ x.cnt + p.rCnt → Completes (.contrib ⟨i, ch⟩ false []) s fun u =>
          frame u [] ∧ (u.brimRed b).store = [] ∧ ∃ q : Pkt, u.injectQ b = s'.injectQ b ++ [⟨q, true, true, none⟩] ∧
            q.rCnt = (x.cnt + p.rCnt) % 65536 ∧ q.rFmt = 0 ∧ q.data = packPiece 0 sum ∧ q.ecrcOk = true)) ∧
    (s.redHead i.val vc 0x01 = some p → s.checkPiece i.val p = none → s.brimCut (inputBrim i.val) b = true → p.rOwner ≠ s.logSelf →
      exec (.contrib ⟨i, ch⟩ false []) s = .next s') ∧
    (∀ kind cmd, ((kind = 0x02 ∧ cmd = Instr.gprim ⟨i, ch⟩ {}) ∨ (kind = 0x03 ∧ cmd = Instr.gback i ch)) →
      s.redHead i.val vc kind = some p → s.checkPiece i.val p = none → s.brimCut (inputBrim i.val) b = true →
      exec cmd s = .next s') ∧
    (∀ kind cmd, ((kind = 0x02 ∧ cmd = Instr.gprim ⟨i, ch⟩ {}) ∨ (kind = 0x03 ∧ cmd = Instr.gback i ch)) →
      s.redHead i.val vc kind = some p → s.checkPiece i.val p = none → s.brimCut (inputBrim i.val) b = false →
      (p.rOwner ≠ s.logSelf → Completes cmd s fun u =>
        frame u [] ∧ u.injectQ b = s'.injectQ b ++ [⟨p, decide (14 ≤ i.val), true, none⟩] ∧ u.brimRed b = r) ∧
      (∀ j k, p.rOwner = s.logSelf → p.kind = kind → s.bucketFor p = some (j, k) → s.olderStep p.rStep = false →
        s.restoring = false → s.fabric.windows = [] → Completes cmd s fun u =>
          frame u [] ∧ u.fabric.windows = [{ bucket := j, step8 := p.rStep, dl := s.groupDl g, chunks :=
            [{ bchunk := p.rChunk, entry := p.rEntry, echunk := p.rEchunk,
               copies := [⟨p.rGid, kind == 0x02, [(p.rPiece, p.rElems)]⟩] }] }])) ∧
    (∀ j k, s.redHead i.val vc 0x01 = some p → s.checkPiece i.val p = none → s.brimCut (inputBrim i.val) b = false → p.rOwner = s.logSelf →
      s.bucketFor p = some (j, k) → s.olderStep p.rStep = false → s.restoring = true → s.fabric.windows = [] →
      Completes (.contrib ⟨i, ch⟩ false []) s fun u =>
        frame u [Reg.RED_ERR_CNT_LATE, Reg.RED_STATUS_LATE] ∧ u.rd Reg.RED_STATUS_LATE = 1 ∧
          u.fabric.windows = [{ bucket := j, step8 := p.rStep, dl := s.groupDl g, chunks :=
            [{ bchunk := p.rChunk, entry := p.rEntry, echunk := p.rEchunk, voided := true }] }]) ∧
    (∀ j k, s.redHead i.val vc 0x01 = some p → s.checkPiece i.val p = none → s.brimCut (inputBrim i.val) b = false → p.rOwner = s.logSelf → p.kind = 0x01 →
      s.bucketFor p = some (j, k) → s.olderStep p.rStep = false → s.restoring = false → s.fabric.windows = [] →
      0 < s.expected g s.logSelf s.logSelf → Completes (.contrib ⟨i, ch⟩ false []) s fun u =>
        frame u [] ∧ u.fabric.windows = [{ bucket := j, step8 := p.rStep, dl := s.groupDl g, chunks :=
          [{ bchunk := p.rChunk, entry := p.rEntry, echunk := p.rEchunk,
             pieces := [(p.rPiece, ⟨p.rElems, 1, p.rCnt⟩)] }] }])) ∧
  (∀ (b : Tower) (n : Nat) (s : State) (x : StoreEntry), s.rd Reg.RED_CFG_MODE ≠ 2 → (s.brimRed b.val).store[n]? = some x →
    x.hdr.length = 64 → Completes (.innerDl ⟨b, n⟩ []) s fun u =>
      u = { s with fabric := u.fabric, flds := u.flds } ∧ SameFields s u [Reg.RED_STORE_TIMED] ∧
        (u.brimRed b.val).store = (s.brimRed b.val).store.erase x ∧ x.key ∈ (u.brimRed b.val).timed ∧
        u.rd Reg.RED_STORE_TIMED = (s.rd Reg.RED_STORE_TIMED + 1) % 2 ^ Reg.RED_STORE_TIMED.width ∧
        ∃ q : Pkt, u.injectQ b.val = s.injectQ b.val ++ [⟨q, true, true, none⟩] ∧ q.rCnt = x.cnt % 65536 ∧
          fieldNat q.hdr 57 1 = 1 ∧ q.data = packPiece q.rFmt x.elems ∧ q.ecrcOk = true) ∧
  (∀ (n : Nat) (s : State) (k : Bucket), s.bucketAt n = some k → s.rd Reg.RED_CFG_MODE ≠ 2 →
    ((s.step = none ∨ n ∈ s.fabric.injected ∨ s.obj k.ready < k.readyVal) → exec (.bucketRelease n []) s = .next s) ∧
    (∀ d (bs : List Byte),
      let g := s.group k.group
      let b := s.combineBrim g 0 d.owner d.entry
      let w := if k.efmt = 0 then 4 else 2
      s.step.isSome = true → n ∉ s.fabric.injected → k.readyVal ≤ s.obj k.ready → k.nchunk = 1 → 0 < k.nelem →
      g.contains s.logSelf = true → g.guards = [] → k.shardOf 0 = some d → b < 4 → bs.length = min 8192 k.nelem * w →
      Readable s (.router (Fin.ofNat 4 b)) k.src bs → Completes (.bucketRelease n []) s fun u =>
        u = { s with fabric := u.fabric } ∧ u.fabric.injected = s.fabric.injected ++ [n] ∧
          ∃ ps : List Pkt, ps.length = 16 ∧ u.injectQ b = s.injectQ b ++ ps.map (⟨·, true, false, none⟩) ∧
            ∀ (q : Nat) (x : Pkt), ps[q]? = some x → x.kind = 0x01 ∧ x.rPiece = q ∧ x.rChunk = 0 ∧ x.rCnt = 1 ∧ x.rTag = k.tag % 4096 ∧
              x.rStep = s.step8 ∧ x.ecrcOk = true)) ∧
  ∀ (n : Nat) (t : Fin 256) (s : State) (w : Window) (k : Bucket) (d : Shard) (e : PlanEntry),
    s.fabric.windows = [w] → w.bucket = n → w.step8 = t.val → w.closed = false → w.chunks = [] →
    s.bucketAt n = some k → k.map = [d] → d.owner = s.logSelf → d.count = 1 →
    (s.group k.group).guards = [] → s.planAt d.entry = some e → s.rd Reg.RED_CFG_MODE ≠ 2 →
    s.allUp →
    Completes (.landingDeadline ⟨n, t⟩ {}) s fun u =>
      let o : Orig := .router (Fin.ofNat 4 (s.adderBrim e.tower))
      u.mem = ((List.range 16).foldl (fun m p =>
        (m.memWrite o (e.gbuf + 32768 * d.echunk + 2048 * p) (List.replicate 2048 (some 0))).2) s).mem ∧
      (u.entry d.entry).cnt d.echunk = some 0 ∧
      (∃ x, u.fabric.windows = [x] ∧ x.closed = true ∧ x.chunks.map (·.landed) = [true]) ∧
      u.rd Reg.RED_LAND_CNT_LANDED = (s.rd Reg.RED_LAND_CNT_LANDED + 1) % 2 ^ Reg.RED_LAND_CNT_LANDED.width ∧
      (0 < e.contrib → u.rd Reg.RED_STATUS_SHORT_LAND = 1)

/-- Deliveries, digests, mirrors and restores (R278, R340 to R344, R347). That a mirror piece beyond its slot's size is not taken is log
entry 14's choice (DESIGN CHOICE); what a cut-off unit would send is discarded, as log entry 20 reads R30 and R511 (DEDUCED). -/
def Obligations.DeliveriesDigestsAndMirrors : Prop :=
  (∀ (s : State) (b : Nat) (p : Pkt) (e : PlanEntry), b < 4 → p.hdr.length = 64 → p.poison = false →
    s.planAt p.pEntry = some e →
    let i := p.pEntry
    let o : Orig := .router (Fin.ofNat 4 b)
    let a := e.master + p.pOffset
    let counted (u : State) (resent : Bool) : Prop :=
      (s.delivery i = none → u.delivery i = some ⟨i, p.pStep, 1, resent, false⟩) ∧
        ∀ d, s.delivery i = some d → d.complete = false → d.step = p.pStep → d.resent = resent →
          u.delivery i = some { d with count := d.count + 1 }
    let data := p.data.take (min 4096 (2 * e.params - p.pOffset))
    let m := (s.memWrite o a (data.map some)).2
    (∀ kind cmd, ((kind = 0x41 ∧ cmd = Instr.deliver) ∨ (kind = 0x43 ∧ cmd = Instr.resend)) → s.pieceHeld kind = true →
      exec cmd s = .next s) ∧
    (s.endWaits = true → exec .deliverEnd s = .next s) ∧
    (s.arrived 3 0x41 b p → e.owner = false → s.pieceHeld 0x41 = false →
      (m.entryHome i = none → Completes .deliver s fun u => Wrote s u o a data ∧ counted u false ∧
        (∀ q, u.injectQ q = s.injectQ q) ∧ u.fabric.ejected = s.fabric.ejected.erase (b, p)) ∧
      (∀ gi owner c, m.entryHome i = some (gi, owner) → m.childrenOf (m.group gi) m.logSelf owner = [c] →
        (∀ x < 4, s.brimCut b x = false) → Completes .deliver s fun u => Wrote s u o a data ∧ counted u false ∧
          ∃ (q : InjPkt) (to_ : Nat), u.injectQ to_ = s.injectQ to_ ++ [q] ∧ q.pkt.kind = 0x41 ∧ q.pkt.data = wholeWords p.data ∧
            q.pkt.dst = m.physOf (c % 16384) % 16384 ∧ q.pkt.src = p.src ∧ q.pkt.ecrcOk = true)) ∧
    (s.arrived 3 0x43 b p → e.owner = false → s.pieceHeld 0x43 = false → Completes .resend s fun u => Wrote s u o a data ∧ counted u true ∧
      u.fabric.restoreT = max s.fabric.restoreT p.pStep ∧ ∀ q, u.injectQ q = s.injectQ q) ∧
    (s.arrived 3 0x42 b p → e.owner = false → s.endWaits = false → s.entryHome i = none →
      (∀ d (bs : List Byte), s.delivery i = some d → d.complete = false → d.step = p.pStep → d.count = p.pCount →
        (s.entry i).complete = false → (s.entry i).copying = false → (s.entry i).sweepT ≠ p.pStep →
        s.rd Reg.UPD_CFG_DIG_INT = 0 → s.rd Reg.RED_RECOVER_STATE = 0 → bs.length = 2 * e.params →
        Readable s (updateOrig e.tower) e.master bs →
        Completes .deliverEnd s fun u =>
          u = { s with fabric := u.fabric, entries := u.entries, upd := u.upd, flds := u.flds } ∧
            u.delivery i = some { d with complete := true } ∧
            u.entry i = { s.entry i with arrived := true, sweepT := p.pStep, digest := crc64 bs, digestValid := true } ∧
            SameFields s u [Reg.UPD_STATUS_PHASE e.tower]) ∧
      (s.delivery i = none → 0 < p.pCount → s.cutOff (updateOrig e.tower) = false → Completes .deliverEnd s fun u =>
        u = { s with fabric := u.fabric, fresh := s.fresh + 1 } ∧ Sent s u e.tower p.src 0x32 [] [] (leBytes 3 i ++ [0])) ∧
      (s.delivery i = none → 0 < p.pCount → s.cutOff (updateOrig e.tower) = true → Completes .deliverEnd s fun u =>
        u = { s with fabric := u.fabric } ∧ ∀ q, u.injectQ q = s.injectQ q))) ∧
  (∀ (s : State) (b : Nat) (p : Pkt) (e : PlanEntry) (bs : List Byte), s.arrived 0 0x32 b p → s.planAt (fieldNat p.data 0 3) = some e → e.owner = true → e.pieces = 1 →
      bs.length = 2 * e.params → Readable s (.update (Fin.ofNat 4 e.tower)) e.master bs →
      (s.cutOff (updateOrig e.tower) = true → Completes .deliveryNak s fun u =>
        u.rd Reg.RED_STATUS_RESEND = 1 ∧ ∀ q, u.injectQ q = s.injectQ q) ∧
      (s.cutOff (updateOrig e.tower) = false → Completes .deliveryNak s fun u =>
        u = { s with fabric := u.fabric, fresh := u.fresh, flds := u.flds } ∧ SameFields s u [Reg.RED_STATUS_RESEND] ∧
          u.rd Reg.RED_STATUS_RESEND = 1 ∧ ∃ x y : InjPkt, u.injectQ e.tower = s.injectQ e.tower ++ [x, y] ∧
            x.pkt.kind = 0x43 ∧ x.pkt.data = wholeWords bs ∧ y.pkt.kind = 0x42 ∧ y.pkt.data = [] ∧ y.pkt.pCount = 1 ∧
            x.pkt.dst = s.physOf p.src % 16384 ∧ y.pkt.dst = s.physOf p.src % 16384)) ∧
  (∀ (s : State) (i : Nat) (d : DeliverySt) (e : PlanEntry) (gi owner : Nat), s.delivery i = some d → s.planAt i = some e →
    s.entryHome i = some (gi, owner) →
    (d.complete = true → exec (.deliveryTimeout i) s = .next s) ∧
    (d.complete = false → s.cutOff (updateOrig e.tower) = true → Completes (.deliveryTimeout i) s fun u =>
      u = { s with fabric := u.fabric } ∧ u.delivery i = none ∧ ∀ q, u.injectQ q = s.injectQ q) ∧
    (d.complete = false → s.cutOff (updateOrig e.tower) = false → Completes (.deliveryTimeout i) s fun u =>
      u = { s with fabric := u.fabric, fresh := s.fresh + 1 } ∧ u.delivery i = none ∧
        ∃ q : InjPkt, u.injectQ e.tower = s.injectQ e.tower ++ [q] ∧ q.pkt.kind = 0x32 ∧
          q.pkt.data = wholeWords (leBytes 3 i ++ [0]) ∧ q.pkt.dst = s.physOf (owner % 16384) % 16384)) ∧
  (∀ (s : State) (b : Nat) (p : Pkt) (e : PlanEntry), s.arrived 0 0x31 b p → s.planAt (fieldNat p.data 0 3) = some e →
    let i := fieldNat p.data 0 3
    let t := fieldNat p.data 4 4
    let x := s.entry i
    let gone : State := { s with fabric := { s.fabric with ejected := s.fabric.ejected.erase (b, p) } }
    (e.owner = true → t = x.sweepT → x.complete = false → exec .digest s = .next s) ∧
    (t ≠ x.sweepT → exec .digest s = .next gone) ∧
    (e.owner = true → t = x.sweepT → x.complete = true → x.digestValid = true → fieldNat p.data 3 1 ≠ 0 →
      (fieldNat p.data 8 8 = x.digest → Completes .digest s fun u =>
        OnlyFields gone u [Reg.UPD_DIG_STAT_LAST_STEP e.tower, Reg.UPD_DIG_STAT_LAST_BAD e.tower]) ∧
      (fieldNat p.data 8 8 ≠ x.digest → Completes .digest s fun u =>
        Records { gone with entries := u.entries } u .replicaDivergence (source e.tower 6 0) [pv3 i, pv2 p.src]
          [Reg.UPD_DIG_STAT_LAST_STEP e.tower, Reg.UPD_DIG_STAT_LAST_BAD e.tower, Reg.UPD_DIG_STAT_MISMATCHES e.tower,
            Reg.UPD_STATUS_DIG_MISMATCH e.tower] ∧
          u.rd (Reg.UPD_STATUS_DIG_MISMATCH e.tower) = 1 ∧ p.src ∈ (u.entry i).diverged ∧
          ∀ j, j ≠ i → u.entry j = s.entry j))) ∧
  (∀ (s : State) (b : Nat) (p : Pkt),
    let m := s.fabric.mirror
    let a := m.base m.free + m.filled
    let gone : State := { s with fabric := { s.fabric with ejected := s.fabric.ejected.erase (b, p) } }
    let o : Orig := .router (Fin.ofNat 4 b)
    (s.arrived 3 0x44 b p → m.size < m.filled + p.data.length → exec .mirror s = .next gone) ∧
    (s.arrived 3 0x44 b p → p.poison = false → m.filled + p.data.length ≤ m.size →
      s.storesHeld o [(a, p.data.map some)] = false → Completes .mirror s fun u =>
        Wrote s u o a p.data ∧ u.fabric = { gone.fabric with mirror := u.fabric.mirror } ∧
        u.fabric.mirror.received = m.received + 1 ∧ u.fabric.mirror.committed = m.committed ∧
        u.fabric.mirror.slot m.free = (if m.received = 0 then [] else m.slot m.free) ++
          [⟨p.pEntry, p.pRegion, p.pOffset, p.data.length, a⟩]) ∧
    let before := s.fabric.ejected.any fun e => vcClass e.2.vc == 3 && e.2.kind == 0x44 && e.2.src == p.src
    (s.arrived 3 0x45 b p → before = true → exec .mirrorCommit s = .next s) ∧
    (s.arrived 3 0x45 b p → before = false → Completes .mirrorCommit s fun u =>
      u = { s with fabric := u.fabric, fresh := s.fresh + 1 } ∧ u.fabric.mirror.received = 0 ∧
        u.fabric.mirror.committed = (if m.received = p.pCount then some (m.free, p.pStep) else m.committed) ∧
        ∃ q : InjPkt, u.injectQ b = s.injectQ b ++ [q] ∧ q.pkt.kind = 0x33 ∧
          q.pkt.data = wholeWords (leBytes 4 p.pStep ++ [if m.received = p.pCount then 0 else 1] ++ [0, 0, 0]) ∧
          q.pkt.dst = s.physOf p.src % 16384) ∧
    let t := fieldNat p.data 0 4
    let left : MirrorSt := { m with sending := m.sending.erase t }
    (s.arrived 0 0x33 b p → t ∉ m.sending → exec .mirrorAck s = .next gone) ∧
    (s.arrived 0 0x33 b p → t ∈ m.sending →
      (fieldNat p.data 4 1 = 0 → Completes .mirrorAck s fun u =>
        u = { s with fabric := u.fabric, flds := u.flds } ∧ u.fabric.mirror = left ∧
          SameFields s u [Reg.RED_MIRROR_VALID, Reg.RED_MIRROR_TARGET, Reg.RED_MIRROR_SLOT, Reg.RED_MIRROR_STEP] ∧
          u.rd Reg.RED_MIRROR_VALID = 1 ∧ u.rd Reg.RED_MIRROR_SLOT = (if s.rdB Reg.RED_MIRROR_VALID then 1 - s.rd Reg.RED_MIRROR_SLOT else 0) ∧
          u.rd Reg.RED_MIRROR_STEP = t % 2 ^ 32) ∧
      (fieldNat p.data 4 1 ≠ 0 → Completes .mirrorAck s fun u =>
        u = { s with fabric := u.fabric, flds := u.flds } ∧ u.fabric.mirror = left ∧
          SameFields s u [Reg.RED_STATUS_MIRROR_FAIL] ∧ u.rd Reg.RED_STATUS_MIRROR_FAIL = 1))) ∧
  ∀ s : State, (s.fabric.partApplied = false → exec .restore s = .next s) ∧
    ∀ (b : Nat) (p : Pkt) (e : PlanEntry) (r base n : Nat), s.fabric.partApplied = true → s.arrived 3 0x46 b p →
      s.planAt p.pEntry = some e → (e.regions.find? (·.1 == p.pRegion)) = some (r, base, n) → p.poison = false →
      let data := p.data.take (n - p.pOffset)
      s.storesHeld (.router (Fin.ofNat 4 b)) [(base + p.pOffset, data.map some)] = false →
      s.rd Reg.RED_RECOVER_STATE = 0 → Completes .restore s fun u =>
        Wrote s u (.router (Fin.ofNat 4 b)) (base + p.pOffset) data ∧
          (p.pEntry, r, p.pOffset) ∈ u.fabric.restored ∧ u.rd Reg.RED_RECOVER_MIRROR_STEP = p.pStep % 2 ^ 32

/-- R381. -/
def Obligations.ShapingAddressesAreFixedWhileShaped : Prop :=
  ∀ (acc : RegAccess) (s : State), s.rd Reg.SHP_STATUS_STATE ≠ 0 → s.postedHolder acc.port.val = none →
    (s.bar0Open 0x60008 = true → Completes (.shpImageWrite acc) s fun u => Rejected s u acc.port 0x60008) ∧
    (s.bar0Open 0x60010 = true → Completes (.shpLenWrite acc) s fun u => Rejected s u acc.port 0x60010)

/-- SHAPE, UNSHAPE, ABORT and the two addresses (R350 to R355, R366, R380, R381). -/
def Obligations.ShapeUnshapeAndAbort : Prop :=
  ∀ (acc : RegAccess) (s : State), s.bar0Open 0x60000 = true → s.postedHolder acc.port.val = none →
    (acc.part = .upper → ∀ i ∈ [Instr.shape acc [] false, .unshape acc, .abort acc], exec i s = .next s) ∧
    (acc.part = .whole → s.rd Reg.SHP_STATUS_STATE = 0 → s.holds acc.port.val = true →
      (s.bar0Open 0x60008 = true → Completes (.shpImageWrite acc) s fun u =>
        u = { s with flds := u.flds, latch := u.latch } ∧ SameFields s u [Reg.SHP_IMAGE_ADDR] ∧
          u.rd Reg.SHP_IMAGE_ADDR = acc.value / 4096 % 2 ^ 36) ∧
      (s.bar0Open 0x60010 = true → Completes (.shpLenWrite acc) s fun u =>
        u = { s with flds := u.flds, latch := u.latch } ∧ SameFields s u [Reg.SHP_LEN_LEN] ∧
          u.rd Reg.SHP_LEN_LEN = acc.value % 2 ^ 35)) ∧
    (acc.part ≠ .upper →
    (bit acc.value 1 = true → s.standby = false → s.holds acc.port.val = false → Completes (.shape acc [] false) s fun u =>
      ∀ t < 4, (s.tower t).sleep = .asleep → (u.tower t).sleep = .leaving) ∧
    (bit acc.value 1 = true → s.standby = false → (∀ t < 4, (s.tower t).sleep = .awake ∧ (s.tower t).trained = true) →
      (s.holds acc.port.val = false → Completes (.shape acc [] false) s fun u => Rejected s u acc.port 0x60000) ∧
      (s.holds acc.port.val = true → s.rd Reg.MGT_STATUS_MODE ≠ 2 →
        (s.rd Reg.SHP_STATUS_STATE ≠ 0 → Completes (.shape acc [] false) s fun u =>
          OnlyFields s u [Reg.SHP_STATUS_SHAPE_ERR, Reg.SHP_STATUS_ERR, Reg.SHP_STATUS_ERR_SECT, Reg.SHP_STATUS_ERR_REC] ∧
            u.rd Reg.SHP_STATUS_SHAPE_ERR = 1 ∧ u.rd Reg.SHP_STATUS_ERR = 10) ∧
        ∀ bs : List Byte, s.rd Reg.SHP_STATUS_STATE = 0 →
          fieldNat bs 16 8 = bs.length → 256 < bs.length → bs.length ≤ 2 ^ 34 →
          Readable s .mgmt (s.rd Reg.SHP_IMAGE_ADDR * 4096) (bs.take 256) →
          Readable s .mgmt (s.rd Reg.SHP_IMAGE_ADDR * 4096 + 256) (bs.drop 256) →
          ((bs.drop 64).take 64 ≠ imageDigest bs → Completes (.shape acc [] false) s fun u =>
            u = { s with flds := u.flds } ∧ u.rd Reg.SHP_STATUS_STATE = 0 ∧ u.rd Reg.SHP_STATUS_SHAPE_ERR = 1 ∧
              u.rd Reg.SHP_STATUS_ERR = 1) ∧
          let d : State := (List.range 8).foldl
            (fun d k => d.wr (Reg.SHP_DIGEST_DIGEST k) (fieldNat (imageDigest bs) (8 * k) 8)) s
          let ss := sectsOf bs s.logSelf
          s.canonical → s.pages = [] → (bs.drop 64).take 64 = imageDigest bs → d.imageChecks bs (bs.map some) = none →
            recordsOf bs ss 15 = [] → recordsOf bs ss 7 = [] → Completes (.shape acc [] false) s fun u =>
              u.rd Reg.SHP_STATUS_STATE = 3 ∧ u.rd Reg.SHP_STATUS_ERR = 0 ∧ u.rd Reg.SHP_STEP_STEPS = 0 ∧
                (∀ k < 8, u.rd (Reg.SHP_DIGEST_DIGEST k) = fieldNat (imageDigest bs) (8 * k) 8) ∧
                u.units = (recordsOf bs ss 2).map unitOf ∧ u.barriers = (recordsOf bs ss 12).map barrierRec ∧
                u.imageBase = s.rd Reg.SHP_IMAGE_ADDR * 4096 ∧ u.sync = [] ∧
                ∀ l < 14, u.linkState l = (if s.linkState l = 7 then 8 else s.linkState l) ∧
                  (s.linkState l = 7 → u.rd (Reg.HB_LINK_STATUS_ATTEMPTS l) = 0))) ∧
    (bit acc.value 2 = true →
      ((s.holds acc.port.val = false ∨ s.rd Reg.SHP_STATUS_STATE ≠ 3 ∨ s.step.isSome = true) →
        Completes (.unshape acc) s fun u => Rejected s u acc.port 0x60000) ∧
      (s.canonical → s.holds acc.port.val = true → s.rd Reg.SHP_STATUS_STATE = 3 → s.step = none → s.pages = [] →
        Completes (.unshape acc) s fun u =>
          u.rd Reg.SHP_STATUS_STATE = 0 ∧ u.units = [] ∧ u.urgents = [] ∧ u.barriers = [] ∧ u.regions = [] ∧ u.roles = [] ∧
            u.urgentRuns = [] ∧ u.urgentHeld = [] ∧ u.fabric.plan = [] ∧ u.fabric.mirror = {} ∧ (∀ c < 576, u.core c = {}) ∧ u.sync = s.sync ∧
            ∀ k < 0x5000000000, u.byteAt k = s.byteAt k)) ∧
    (bit acc.value 3 = true →
      ((s.holds acc.port.val = false ∨ s.step = none) → Completes (.abort acc) s fun u => Rejected s u acc.port 0x60000) ∧
      ∀ r, s.holds acc.port.val = true → s.step = some r → Completes (.abort acc) s fun u =>
        u = { s with step := u.step, cores := u.cores, fresh := u.fresh } ∧
          u.step = some { r with failed := if r.failed = 0 then 2 else r.failed } ∧
          ∀ c, (u.thr c .F).running = false ∧ (u.thr c .B).running = false))

/-- SYN_OP (R382), where no earlier posted write of the port is held and the object's crown is reached at once. -/
def Obligations.HostSyncOperations : Prop :=
  ∀ (acc : RegAccess) (s : State), s.bar0Open 0x80000 = true → s.postedHolder acc.port.val = none →
    let o := acc.value % 2 ^ 17
    let v := acc.value / 2 ^ 32 % 2 ^ 32
    (acc.part ≠ .whole →
      (Completes (.synOpAdd acc) s fun u =>
        OnlyFields s u [Reg.SYN_STATUS_OP_ERR] ∧ u.rd Reg.SYN_STATUS_OP_ERR = 1) ∧
      Completes (.synOpSet acc) s fun u =>
        OnlyFields s u [Reg.SYN_STATUS_OP_ERR] ∧ u.rd Reg.SYN_STATUS_OP_ERR = 1) ∧
    (acc.part = .whole → s.plainObj o → s.objReached (.port acc.port) o = true →
      (acc.value / 2 ^ 17 % 2 = 0 → Completes (.synOpAdd acc) s fun u =>
        u = { s with sync := u.sync } ∧ ObjSet s u o (s.obj o + v)) ∧
      (acc.value / 2 ^ 17 % 2 = 1 → Completes (.synOpSet acc) s fun u =>
        u = { s with sync := u.sync } ∧ ObjSet s u o v))

/-- Remote adds (R372) and remote barriers (R374), and the changes of objects that a die in reset or a tower asleep holds, or whose path
is lost (R23, R25, R30): that these wait, or change nothing, is log entry 20's reading (DEDUCED). -/
def Obligations.RemoteAddsAndBarriers : Prop :=
  (∀ (acc : RegAccess) (s : State), s.bar0Open 0x80000 = true → s.postedHolder acc.port.val = none → acc.part = .whole →
    let o := bits acc.value 16 0
    let v := bits acc.value 63 32
    (s.crownPathLost (.port acc.port) (bits o 16 15) = true →
      exec (.synOpAdd acc) s = .next s ∧ exec (.synOpSet acc) s = .next s) ∧
    ∀ h, s.objHolder (.port acc.port) o = some h →
      (bit acc.value 17 = false →
        exec (.synOpAdd acc) s = .next (s.holdReq ⟨h, .port acc.port, .sync .add o v, 0, 0, []⟩)) ∧
      (bit acc.value 17 = true →
        exec (.synOpSet acc) s = .next (s.holdReq ⟨h, .port acc.port, .sync .set o v, 0, 0, []⟩))) ∧
  ∀ (s : State) (b : Nat) (p : Pkt),
    let ej : State := { s with fabric := { s.fabric with ejected := s.fabric.ejected.erase (b, p) } }
    (s.arrived 0 0x11 b p →
      let o := fieldNat p.hdr 32 4
      let op := fieldNat p.hdr 40 4
      let ack (s u : State) : Prop := Sent s u b p.src 0x12 [] (leBytes 8 0 ++ leBytes 4 op) []
      ((p.src, op) ∈ s.remoteSeen → Completes .remoteAdd s fun u =>
        u = { s with fabric := u.fabric, fresh := s.fresh + 1 } ∧ ack ej u) ∧
      (∀ h, (p.src, op) ∉ s.remoteSeen → o ≤ 131071 → s.objHolder (routerOrig b) o = some h → Completes .remoteAdd s fun u =>
        u = { s with fabric := u.fabric, fresh := s.fresh + 1, flds := u.flds, towers := u.towers
                     held := s.held ++ [⟨h, routerOrig b, .sync .add o (fieldNat p.hdr 36 4), 0, 0, []⟩]
                     remoteSeen := s.remoteSeen ++ [(p.src, op)] } ∧ ack ej u ∧ SameFields s u [Reg.SYN_CNT_REMOTE_RECV]) ∧
      ((p.src, op) ∉ s.remoteSeen → o ≤ 131071 → s.plainObj o → s.objHolder (routerOrig b) o = none → Completes .remoteAdd s fun u =>
        u = { s with fabric := u.fabric, fresh := s.fresh + 1, sync := u.sync, flds := u.flds
                     remoteSeen := s.remoteSeen ++ [(p.src, op)] } ∧
          ack ej u ∧ (if s.objReached (routerOrig b) o = true then ObjSet s u o (s.obj o + fieldNat p.hdr 36 4)
            else u.sync = s.sync) ∧ SameFields s u [Reg.SYN_CNT_REMOTE_RECV] ∧
          u.rd Reg.SYN_CNT_REMOTE_RECV = (s.rd Reg.SYN_CNT_REMOTE_RECV + 1) % 2 ^ 32) ∧
      ((p.src, op) ∉ s.remoteSeen → 131071 < o → Completes .remoteAdd s fun u =>
        u = { s with fabric := u.fabric, fresh := s.fresh + 1, flds := u.flds
                     remoteSeen := s.remoteSeen ++ [(p.src, op)] } ∧
          ack ej u ∧ SameFields s u [Reg.SYN_CNT_REMOTE_LOST] ∧
          u.rd Reg.SYN_CNT_REMOTE_LOST = satAdd 16 (s.rd Reg.SYN_CNT_REMOTE_LOST) 1)) ∧
    (s.arrived 0 0x12 b p → Completes .remoteAddAck s fun u =>
      u = { ej with remoteAdds := s.remoteAdds.filter fun r => r.op != fieldNat p.hdr 40 4 }) ∧
    (∀ r : RemoteAdd, s.remoteAdds.find? (fun x => x.op == r.op) = some r → Completes (.remoteAddTimeout r.op) s fun u =>
      let s' : State := { s with remoteAdds := s.remoteAdds.filter fun x => x.op != r.op
                                 step := s.step.map fun q => { q with flags := q.flags ||| 8 } }
      Records s' u .remoteAddLost (coreSource r.core) [pv2 r.coord, pv4 r.obj]
          [Reg.SYN_STATUS_REMOTE_LOST, Reg.SYN_CNT_REMOTE_LOST] ∧
        u.rd Reg.SYN_STATUS_REMOTE_LOST = 1 ∧
        u.rd Reg.SYN_CNT_REMOTE_LOST = satAdd 16 (s.rd Reg.SYN_CNT_REMOTE_LOST) 1) ∧
    (∀ (gi : Fin 64) (k n : Nat) (br : Barrier),
      let g := s.group gi.val
      let held := s.barrierGens.find? fun x => x.group == gi.val && x.gen == k
      let full := if g.root = s.logSelf then g.members.length else s.subtree g s.logSelf
      s.remoteBarrier gi.val = some br →
      (s.arrived 0 0x13 b p → fieldNat p.hdr 32 4 % 64 = gi.val → fieldNat p.hdr 36 4 = k → fieldNat p.hdr 40 4 = n →
        let total := (held.map (·.count)).getD 0 + n
        (k ≤ s.obj br.release → Completes .barrierArrival s fun u => u = ej) ∧
        (s.obj br.release < k → (∀ x, held = some x → x.sent = false) →
          (total < full → Completes .barrierArrival s fun u =>
            u = { ej with barrierGens := u.barrierGens } ∧
              (u.barrierGens.find? fun x => x.group == gi.val && x.gen == k) = some ⟨gi.val, k, total, false⟩) ∧
          (∀ q, full ≤ total → s.parentOf g s.logSelf g.root = some q → Completes .barrierArrival s fun u =>
            u = { s with fabric := u.fabric, fresh := s.fresh + 1, barrierGens := u.barrierGens } ∧
              Sent ej u 0 q 0x13 [] (leBytes 4 gi.val ++ leBytes 4 k ++ leBytes 4 total) [] ∧
              (u.barrierGens.find? fun x => x.group == gi.val && x.gen == k) = some ⟨gi.val, k, total, true⟩) ∧
          (full ≤ total → s.parentOf g s.logSelf g.root = none → s.plainObj br.release → s.objHolder .mgmt br.release = none →
            Completes .barrierArrival s fun u => Released ej u gi.val k total br))) ∧
      (s.arrived 0 0x14 b p → fieldNat p.hdr 32 4 % 64 = gi.val → fieldNat p.hdr 36 4 = k → fieldNat p.hdr 40 4 = n →
        (k ≤ s.obj br.release → Completes .barrierReleasePacket s fun u => u = ej) ∧
        (s.obj br.release < k → s.plainObj br.release → s.objHolder .mgmt br.release = none → Completes .barrierReleasePacket s fun u =>
          Released ej u gi.val k n br ∧
            u.barrierGens = s.barrierGens.filter fun x => !(x.group == gi.val && decide (x.gen ≤ k)))) ∧
      (∀ h, s.arrived 0 0x14 b p → fieldNat p.hdr 32 4 % 64 = gi.val → fieldNat p.hdr 36 4 = k → fieldNat p.hdr 40 4 = n →
        s.obj br.release < k → s.objHolder .mgmt br.release = some h → Completes .barrierReleasePacket s fun u =>
          u.sync = s.sync ∧ u.held = s.held ++ [⟨h, .mgmt, .sync .release br.release k, 0, 0, []⟩]) ∧
      (held = none → Completes (.barDl gi k) s fun u => u = s) ∧
      (∀ x, held = some x → x.sent = false →
        (∀ q, s.parentOf g s.logSelf g.root = some q → Completes (.barDl gi k) s fun u =>
          u = { s with fabric := u.fabric, fresh := s.fresh + 1, barrierGens := u.barrierGens } ∧
            Sent s u 0 q 0x13 [] (leBytes 4 gi.val ++ leBytes 4 k ++ leBytes 4 x.count) []) ∧
        (s.obj br.release < k → s.parentOf g s.logSelf g.root = none → s.plainObj br.release → s.objHolder .mgmt br.release = none →
          Completes (.barDl gi k) s fun u => Released s u gi.val k x.count br)))

/-- Steps (R361 to R367). -/
def Obligations.StepsStartDispatchAndComplete : Prop :=
  (∀ (s : State) (c : StepCmd) (rest : List StepCmd), s.step = none → s.stepQueue = c :: rest → s.standby = false →
    let shown (u : State) : Prop := u.rd Reg.SHP_STEP_STEP = c.step % 2 ^ 32 ∧ u.rd Reg.SHP_STEP_MARK = 0xFFFF
    (¬(s.rd Reg.SHP_STATUS_STATE = 3 ∧ s.rd (Reg.SHP_DIGEST_DIGEST 0) = c.image) → Completes .stepStart s fun u =>
      u = { s with flds := u.flds, stepQueue := rest, step := some { cmd := c, failed := 3 } } ∧ shown u ∧
        SameFields s u [Reg.SHP_STEP_STEP, Reg.SHP_STEP_MARK]) ∧
    (s.rd Reg.SHP_STATUS_STATE = 3 → s.rd (Reg.SHP_DIGEST_DIGEST 0) = c.image → (∀ e ∈ s.syncInit, s.plainObj e.1 ∧ s.objHolder .mgmt e.1 = none) →
      Completes .stepStart s fun u =>
        shown u ∧ u.stepQueue = rest ∧ u.mem = s.mem ∧ u.units = s.units ∧
          (∃ r, u.step = some r ∧ { r with mbHeld := [] } = { cmd := c }) ∧ u.slotsUsed ≤ 256 ∧
          (∀ o, u.obj o = match (s.syncInit.filter (·.1 == o)).getLast? with
            | some e => if s.objReached .mgmt o = true then e.2 % 2 ^ 32 else s.obj o
            | none => s.obj o) ∧
          (∀ g ∈ s.regions, g.cls = 2 ∨ g.cls = 3 → ∀ i < g.count, (u.page (g.page + i)).state = .empty) ∧
          ∀ b < 4, (u.brimRed b).passed = [])) ∧
  (∀ (s : State) (c : Core) (thread : Fin 2) (r : StepRun) (d : UnitDesc) (i : Nat),
    let th : Thr := if thread.val = 0 then .F else .B
    let key := 2 * c.val + thread.val
    s.step = some r → s.nextUnitAt r c.val thread.val = some (d, i) →
    ((r.failed ≠ 0 ∨ (s.thr c.val th).running = true ∨ s.condHolds d.wait0 = false ∨ s.optCondHolds d.wait1 = false ∨
        (d.mb ≠ 0xFFFF ∧ d.mb ∉ r.mbHeld)) → exec (.unitDispatch c thread) s = .next s) ∧
    (r.failed = 0 → (s.thr c.val th).running = false → s.condHolds d.wait0 = true → s.optCondHolds d.wait1 = true →
      d.mb = 0xFFFF ∨ d.mb ∈ r.mbHeld → s.power.stopped = false → s.standby = false →
      ((∀ m, r.mark = some m → m < d.phase) → d.phase < 65536 → Completes (.unitDispatch c thread) s fun u =>
        u.rd Reg.SHP_STEP_MARK = d.phase ∧ ∃ r', u.step = some r' ∧ r'.mark = some d.phase ∧ r'.cmd = r.cmd ∧
          ((s.rd Reg.UPD_CFG_SWEEP_AT ≤ d.phase ∧ ∀ m, r.mark = some m → m < s.rd Reg.UPD_CFG_SWEEP_AT) → r'.sweep = true)) ∧
      ∀ m, r.mark = some m → d.phase ≤ m →
        let gone (u : State) : Prop := ∃ r', u.step = some r' ∧ r' = { r with next := r'.next } ∧
          ∀ k, Sparse.get 0 r'.next k = if k = key then Sparse.get 0 r.next key + 1 else Sparse.get 0 r.next k
        (d.kind ≠ 4 → Completes (.unitDispatch c thread) s fun u =>
          u = { s with step := u.step, cores := u.cores } ∧ gone u ∧ OnlyThread s u c.val th ∧
            let t := u.thr c.val th
            t.running = true ∧ t.pc = d.entry ∧ t.unit = i ∧ t.wait = none ∧ t.ops = [] ∧
              t.suspended = (s.thr c.val th).suspended ∧ (∀ k < 4, t.reg (k + 1) = r.cmd.args.getD k 0 % 2 ^ 64) ∧
              t.reg 5 = r.cmd.step % 2 ^ 64 ∧ t.reg 6 = d.mb % 2 ^ 64 ∧ ∀ k, 7 ≤ k → t.reg k = 0) ∧
        (d.kind = 4 → d.slotEnd = false → s.plainObj d.signal → s.objReached (.core c) d.signal = true → Completes (.unitDispatch c thread) s fun u =>
          u = { s with step := u.step, sync := u.sync } ∧ gone u ∧ Signalled s u d.signal))) ∧
  ∀ (s : State) (r : StepRun), s.step = some r →
    ((s.unitsDone r = false ∨ s.sweepDone r = false) → exec .stepComplete s = .next s) ∧
    (s.unitsDone r = true → s.sweepDone r = true → s.standby = false →
      r.sweep = false ∨ s.rd Reg.RED_CFG_MIRROR_EN = 0 → s.plainObj r.cmd.done → s.objReached .mgmt r.cmd.done = true →
        Completes .stepComplete s fun u =>
        u = { s with step := none, sync := u.sync, flds := u.flds, hosts := u.hosts, outbox := u.outbox, heldOut := u.heldOut
                     entries := u.entries, upd := u.upd, power := u.power } ∧
          Signalled s u r.cmd.done ∧ u.rd Reg.SHP_STEP_STEPS = (s.rd Reg.SHP_STEP_STEPS + 1) % 65536 ∧
          Posted s u r.cmd.ticket r.failed r.flags 1 r.cmd.step) ∧
    Completes .stepWatchdog s fun u =>
      u = { s with step := u.step, cores := u.cores, fresh := u.fresh } ∧
        u.step = some { r with failed := if r.failed = 0 then 5 else r.failed } ∧
        ∀ c, (u.thr c .F).running = false ∧ (u.thr c .B).running = false

/-- Urgent commands (R376 to R378) and a spare's part (R347, R356, R368). -/
def Obligations.UrgentCommandsAndTheSparesPart : Prop :=
  (∀ (s : State) (p : Port) (slot : SlotPlace) (data : List Byte), s.postedHolder p.val = none → s.rd Reg.MGT_STATUS_MODE = 3 →
    exec (.urgentCommand p slot data) s = .next s) ∧
  (∀ (s : State) (p : Port) (q : Fin 1024) (data : List Byte), s.postedHolder p.val = none → s.standby = false →
    s.rd Reg.MGT_STATUS_MODE ≠ 3 →
    let x := (s.host p.val).queue q.val
    let t : Ticket := ⟨p.val, q.val, x.urgentNo, s.rd (Reg.HQ_Q_STATUS_SQHEAD p.val q.val), x.epoch⟩
    let cmd : UrgentCmd := { ticket := t, unit := fieldNat data 1 1, signal := fieldNat data 8 4 % 2 ^ 17
                             args := (List.range 6).map fun i => fieldNat data (16 + 8 * i) 8 }
    let s' := s.setHost p.val ((s.host p.val).setQueue q.val { x with urgentNo := (x.urgentNo + 1) % 65536 })
    (exec (.urgentCommand p ⟨q, 8⟩ data) s = exec (.cqHeadDoorbell p q data.length (fieldNat data 0 data.length)) s) ∧
    (∀ off : Fin 64, off ≠ 0 → off ≠ 8 → Completes (.urgentCommand p ⟨q, off⟩ data) s fun u =>
      OnlyFields s u [Reg.HQ_ERR_DB_BAD p.val, Reg.HQ_ERR_DB_CNT p.val] ∧ u.rd (Reg.HQ_ERR_DB_BAD p.val) = 1) ∧
    ((s.rd (Reg.HQ_Q_CFG_EN p.val q.val) = 0 ∨ s.rd (Reg.HQ_Q_CFG_CLASS p.val q.val) = 0 ∨ data.length ≠ 64) →
      Completes (.urgentCommand p ⟨q, 0⟩ data) s fun u =>
        OnlyFields s u [Reg.HQ_ERR_DB_BAD p.val, Reg.HQ_ERR_DB_CNT p.val] ∧ u.rd (Reg.HQ_ERR_DB_BAD p.val) = 1 ∧
          u.rd (Reg.HQ_ERR_DB_CNT p.val) = satAdd 32 (s.rd (Reg.HQ_ERR_DB_CNT p.val)) 1) ∧
    (s.rd (Reg.HQ_Q_CFG_EN p.val q.val) = 1 → s.rd (Reg.HQ_Q_CFG_CLASS p.val q.val) = 1 → data.length = 64 →
      fieldNat data 0 1 = 2 →
      (zeroAt data 2 6 = false ∨ zeroAt data 12 4 = false → Completes (.urgentCommand p ⟨q, 0⟩ data) s fun u =>
        u = { s with flds := u.flds, hosts := u.hosts, outbox := u.outbox, heldOut := u.heldOut } ∧
          u.rd (Reg.HQ_ERR_CMD_BAD p.val) = 1 ∧ Posted s u t 0xFE 0 2 cmd.unit) ∧
      (zeroAt data 2 6 = true → zeroAt data 12 4 = true →
        (s.noEvents → (∀ d, s.urgents[cmd.unit]? = some d → ∃ c ∈ d.cores, Sparse.get 0 s.roles c ≠ 2) →
          Completes (.urgentCommand p ⟨q, 0⟩ data) s fun u =>
            u = { s with flds := u.flds, hosts := u.hosts, outbox := u.outbox, heldOut := u.heldOut
                         recorder := u.recorder } ∧
              u.rd Reg.SHP_URG_URG_REJECT = satAdd 16 (s.rd Reg.SHP_URG_URG_REJECT) 1 ∧
              Logs s u .rejectedUrgent (source 0 0 0) [] ∧ Posted s u t 0xFD 0 2 cmd.unit) ∧
        ∀ d, s.urgents[cmd.unit]? = some d → (∀ c ∈ d.cores, Sparse.get 0 s.roles c = 2) →
          ((∃ c ∈ d.cores, s.urgentBusy c = true) → Completes (.urgentCommand p ⟨q, 0⟩ data) s fun u =>
            u = { s' with flds := u.flds, urgentHeld := s.urgentHeld ++ [cmd] } ∧ SameFields s u [Reg.SHP_URG_URG_HELD] ∧
              u.rd Reg.SHP_URG_URG_HELD = satAdd 16 (s.rd Reg.SHP_URG_URG_HELD) 1) ∧
          ((∀ c ∈ d.cores, s.urgentBusy c = false) →
            (d.kind ≠ 4 → Completes (.urgentCommand p ⟨q, 0⟩ data) s fun u => UrgentStarted s' u cmd d) ∧
            (d.kind = 4 → s.atOnce cmd d → Completes (.urgentCommand p ⟨q, 0⟩ data) s fun u => UrgentDone s' u cmd d))))) ∧
  (∀ (s : State) (cmd : UrgentCmd) (rest : List UrgentCmd) (d : UrgentDesc),
    s.urgentHeld = cmd :: rest → s.urgents[cmd.unit]? = some d →
    ((∃ c ∈ d.cores, s.urgentBusy c = true) → exec .heldUrgentStart s = .next s) ∧
    (s.standby = false → (∀ c ∈ d.cores, s.urgentBusy c = false) →
      (d.kind ≠ 4 → Completes .heldUrgentStart s fun u => UrgentStarted { s with urgentHeld := rest } u cmd d) ∧
      (d.kind = 4 → s.atOnce cmd d → Completes .heldUrgentStart s fun u =>
        UrgentDone { s with urgentHeld := rest } u cmd d))) ∧
  ∀ (s : State) (mirrored : Bool),
    (s.step.isSome = true → exec (.spareAppliesPart mirrored) s = .next s) ∧
    ∀ bs : List Byte, s.fabric.takenOver.isSome = true → s.fabric.partApplied = false → s.rd Reg.SHP_STATUS_STATE = 3 →
      s.step = none → s.rd Reg.SHP_LEN_LEN = bs.length → Readable s .mgmt s.imageBase bs →
      Completes (.spareAppliesPart mirrored) s fun u =>
        u.fabric.partApplied = true ∧ u.rd Reg.SHP_STATUS_STATE = 3 ∧
          u.units = (recordsOf bs (sectsOf bs s.logSelf) 2).map unitOf ∧
          u.barriers = (recordsOf bs (sectsOf bs s.logSelf) 12).map barrierRec ∧
          (mirrored = false → s.rd Reg.RED_RECOVER_STATE = 1 → u.rd Reg.RED_RECOVER_STATE = 5)

/-- Operating points (R386, R387, R396, R399, R402, R405 to R407). That the history a mean lacks counts zero, that a hold is counted
in ticks, that a dip at OP0 changes back as any change does, and that a rail below its level is no dip once power has failed or the
package has tripped, are the model's readings (log entry 19). -/
def Obligations.OperatingPointsChange : Prop :=
  (∀ (n : Tower) (s : State),
    let c := s.crownPower n.val
    (∀ x, c.change = some x → x.goal < 8 →
      let next : Option OpChange := if c.op < x.goal then some ⟨x.goal - 1, false, true, false⟩
        else if x.goal < c.op then some ⟨x.goal + 1, true, false, false⟩ else none
      let avs (op : Nat) : List Out := [.avsVoltage n.val (opMv op)]
      let ended (u : State) : Prop :=
        u = { s with power := u.power, flds := u.flds
                     outbox := s.outbox ++ (if c.op < x.goal then [] else if x.goal < c.op then avs (x.goal + 1) else []) } ∧
        OnlyCrownPower s u n.val ∧
        SameFields s u [Reg.PWR_OP_OP n.val] ∧ u.rd (Reg.PWR_OP_OP n.val) = x.goal ∧
        u.crownPower n.val = { c with change := next }
      let moved (y : OpChange) (out : List Out) (u : State) : Prop :=
        u = { s with power := u.power, outbox := s.outbox ++ out } ∧ OnlyCrownPower s u n.val ∧
        u.crownPower n.val = { c with change := some y }
      (x.clock = true → exec (.voltageReached n) s = .next s) ∧
      (x.clock = false → x.up = true → Completes (.voltageReached n) s (moved { x with clock := true } [])) ∧
      (x.clock = false → x.up = false → Completes (.voltageReached n) s ended) ∧
      (n.val ∈ s.power.below ∨ 4 ∈ s.power.below → exec (.clockSlewComplete n) s = .next s) ∧
      (x.clock = true → n.val ∉ s.power.below → 4 ∉ s.power.below →
        (x.up = true → Completes (.clockSlewComplete n) s ended) ∧
        (x.up = false → Completes (.clockSlewComplete n) s (moved { x with clock := false } (avs x.goal)))) ∧
      (x.clock = false → x.repeated = false → Completes (.avsbusFault n) s (moved { x with repeated := true } (avs x.goal))) ∧
      (x.clock = false → x.repeated = true → Completes (.avsbusFault n) s fun u =>
        let op := min x.goal (s.opNow n.val)
        Records { s with power := u.power } u .avsbusFault (powerSource n.val 7) []
            [Reg.PWR_OP_OP n.val, Reg.PWR_STATUS_AVS_FAULT] ∧
          OnlyCrownPower s u n.val ∧ u.rd (Reg.PWR_OP_OP n.val) = op ∧
          u.rd Reg.PWR_STATUS_AVS_FAULT = (s.rd Reg.PWR_STATUS_AVS_FAULT ||| 2 ^ n.val) % 16 ∧
          u.crownPower n.val = { c with change := none, avsHold := 200, op := min c.op op })) ∧
    (n.val ∉ s.power.below → exec (.dipStepdown (n.castLT (by omega))) s = .next s)) ∧
  (∀ (s : State),
    let t := s.wr Reg.PCAP_CAP_EFF s.capNow
    let floor (u : State) : Prop := ∀ n < 4, (u.crownPower n).op = 0 ∧ (u.crownPower n).duty = 4
    Completes .allocatorTick s fun u =>
      u.rd Reg.PCAP_CAP_EFF = s.capNow ∧
      (s.rd Reg.PCAP_STATUS_UNMET_NOW = 0 → t.unmet = true →
        floor u ∧ u.rd Reg.PCAP_STATUS_CAP_UNMET = 1 ∧ u.rd Reg.PCAP_STATUS_UNMET_NOW = 1 ∧
          Logs s u .capUnmet (powerSource 0 0) []) ∧
      (s.rd Reg.PCAP_STATUS_UNMET_NOW = 1 → floor u ∧ u = { s with power := u.power, flds := u.flds }) ∧
      (s.rd Reg.PCAP_STATUS_UNMET_NOW = 0 → t.unmet = false →
        let trim := Frac.max {} (s.power.trim.add ((s.avg10.sub (Frac.mean 200 s.power.plans)).mul (Frac.make 1 8)))
        let budget := (((Frac.make 98 100).mul (Frac.ofNat s.capNow)).sub trim).sub s.fixedPower
        let top := (List.range 4).map fun n => (s.opCeiling n, (s.crownPower n).thermDuty)
        u = { s with power := u.power, flds := u.flds, outbox := u.outbox } ∧ u.power.trim = trim ∧
          u.outbox = s.outbox ++ ((List.range 4).flatMap fun n =>
            if (s.crownPower n).change = none ∧ s.opNow n < (u.crownPower n).op then
              [Out.avsVoltage n (opMv (s.opNow n + 1))] else []) ∧
          SameFields s u ([Reg.PCAP_CAP_EFF, Reg.PCAP_STATUS_TRIM] ++
            (List.range 4).flatMap fun n => [Reg.PWR_OP_CEIL n, Reg.PWR_OP_THROT n]) ∧
          ∃ x : List (Nat × Nat), x.length = 4 ∧
            ((∀ n < 4, (s.crownPower n).thermDuty ≤ 64) →
              (s.predSum x).le budget = true ∨ ∀ e ∈ x, e.1 = 0 ∧ e.2 ≤ 4) ∧
            ((s.predSum top).le budget = true → x = top) ∧
            ∀ n < 4,
              let c := s.crownPower n
              let y := u.crownPower n
              let hold := decide (0 < c.avsHold) || decide (0 < c.dipHold)
              (x.getD n (0, 4)).1 ≤ s.opCeiling n ∧ (x.getD n (0, 4)).2 ≤ c.thermDuty ∧ y.duty = (x.getD n (0, 4)).2 ∧
                y.op = min (x.getD n (0, 4)).1 (if hold then min c.op (s.opNext n) else s.opNext n + 1) ∧
                (∀ g, c.change = some g → y.change = some g) ∧
                (c.change = none → y.change =
                  if y.op < s.opNow n then some ⟨s.opNow n - 1, false, true, false⟩
                  else if s.opNow n < y.op then some ⟨s.opNow n + 1, true, false, false⟩ else none))) ∧
  (∀ (s : State) (rail : Fin 10),
    (rail = 9 ∨ rail.val ∈ s.power.below ∨ s.poweringDown = true → exec (.droopWarning rail) s = .next s) ∧
    (rail ≠ 9 → rail.val ∉ s.power.below → s.poweringDown = false → Completes (.droopWarning rail) s fun u =>
      Records { s with power := { s.power with below := s.power.below ++ [rail.val], crowns := u.power.crowns } } u .supplyDip
          (if rail.val < 4 then powerSource rail.val 7 else powerSource 0 0) [] [Reg.PWR_DIP_DIPS] ∧
        (∀ n, u.crownPower n =
          if (n = rail.val ∨ rail.val = 4) ∧ n < 4 ∧ 0 < (s.crownPower n).dipHold then { s.crownPower n with dipHold := 200 }
          else s.crownPower n) ∧
        u.rd Reg.PWR_DIP_DIPS = (s.rd Reg.PWR_DIP_DIPS + 1) % 2 ^ 32) ∧
    Completes (.stretchEnd rail) s fun u =>
      u = { s with power := { s.power with below := s.power.below.filter fun r => r != rail.val } }) ∧
  (∀ (s : State) (rail : Fin 5), rail.val ∈ s.power.below → Completes (.dipStepdown rail) s fun u =>
    let crowns := if rail.val < 4 then [rail.val] else [0, 1, 2, 3]
    u = { s with power := u.power, flds := u.flds
                 outbox := s.outbox ++ crowns.flatMap fun n =>
                   match (s.crownPower n).change with
                   | some x => if x.up ∧ min (s.crownPower n).op (s.opNow n) = 0 then [.avsVoltage n (opMv (s.opNow n))] else []
                   | none => [] } ∧
      SameFields s u [Reg.PWR_DIP_STEPDOWN] ∧
      u.power = { s.power with crowns := u.power.crowns } ∧ (∀ n, n ∉ crowns → u.crownPower n = s.crownPower n) ∧
      ∀ n ∈ crowns,
        let c := s.crownPower n
        let y := u.crownPower n
        y.dipHold = 200 ∧
          (∀ x, c.change = some x → x.up = false → y.change = some x ∧ y.op = (if min c.op x.goal = 0 then c.op else min c.op x.goal - 1)) ∧
          ((∀ x, c.change = some x → x.up = true) →
            let goal := min c.op (s.opNow n)
            (goal = 0 → y.op = c.op ∧
              y.change = if c.change.isSome then some ⟨s.opNow n, false, false, false⟩ else none) ∧
            (goal ≠ 0 → y.op = goal - 1 ∧ y.change = some ⟨s.opNow n - 1, false, true, false⟩ ∧
              (rail.val < 4 → u.rd Reg.PWR_DIP_STEPDOWN = satAdd 16 (s.rd Reg.PWR_DIP_STEPDOWN) 1)))) ∧
  ∀ s : State,
    (s.lstep = true → (∀ n < 4, s.releaseEnded n = true) → Completes .lstepNDeassert s fun u =>
      u = { s with lstep := false, crowns := u.crowns, outbox := s.outbox ++ [.pin "LSTEP_N" true] } ∧
        ∀ n, u.crown n = if n < 4 then { s.crown n with leading := [], starting := [] } else s.crown n) ∧
    ((s.lstep = false ∨ ∃ n < 4, s.releaseEnded n = false) → exec .lstepNDeassert s = .next s)

/-- The estimate and its calibration (R388 to R391, R393, R404). That quantities are exact fractions, that history not yet taken counts
as zero, and that the 64 ms of R390 are 64 readings made, are the model's readings (log entry 19). -/
def Obligations.EstimatesAreMeasuredAndCalibrated : Prop :=
  (∀ (s : State) (act : List Activity), Completes (.powerEstimate act) s fun u =>
    let e := s.sample act
    (∀ d < 7, e.est.getD d {} =
        s.guardBand.mul ((s.dynamic (act.filter fun a => a.domain.val == d)).add (s.leak d (s.domainMv d)))) ∧
      u = { s with power := u.power, flds := u.flds } ∧ u.power.samples = (e :: s.power.samples).take 5000 ∧
      u.rd Reg.PWR_PKG_P10 = watts u.avg10 ∧ u.rd Reg.PWR_PKG_P1 = watts u.avg1 ∧
      u.rd Reg.PWR_PKG_P1MAX = max (s.rd Reg.PWR_PKG_P1MAX) (watts u.avg1) % 65536 ∧
      (∀ d < 7, u.rd (Reg.PWR_DOM_EST d) = watts (u.meanEst 500 d)) ∧
      ((Frac.ofNat 4400).lt u.avg1 = false → ∀ n < 4, (u.crownPower n).pkgLimited = false) ∧
      ((Frac.ofNat 4400).lt u.avg1 = true → (∃ n < 4, (s.crownPower n).pkgLimited = false) →
        u.rd Reg.PWR_STATUS_ICC_LIMIT = 1 ∧ ∃ k < 4, (s.crownPower k).pkgLimited = false ∧
          (u.crownPower k) = { s.crownPower k with pkgLimited := true } ∧ OnlyCrownPower
            { s with power := { u.power with crowns := s.power.crowns } } u k ∧
          ∀ n < 4, (s.crownPower n).pkgLimited = false → (s.crownPower n).amps ≤ (s.crownPower k).amps)) ∧
  (∀ (s : State) (n : Tower) (amps : Nat), Completes (.currentSenseSample n amps) s fun u =>
    let c := s.crownPower n.val
    let peak := s.rd (Reg.PWR_RAIL_IPEAK n.val)
    let sust := s.rd (Reg.PWR_RAIL_ISUST n.val)
    let history := (amps :: c.history).take 5000
    let now := c.senseGain.mul (Frac.ofNat (amps * 100))
    let mean := c.senseGain.mul (Frac.make (history.sum * 100) 5000)
    let hit (limit : Nat) (i : Frac) : Bool := decide (0 < limit) && (Frac.ofNat (95 * limit)).le i
    let acts (was : Bool) (limit : Nat) (i : Frac) : Bool := hit limit i || (was && !(i.lt (Frac.ofNat (90 * limit))))
    u = { s with power := u.power, flds := u.flds } ∧ OnlyCrownPower s u n.val ∧
      u.crownPower n.val = { c with
        amps := amps, history := history, senseN := c.senseN + 1, senseAmps := c.senseAmps + amps
        senseSum := c.senseSum + amps * opMv (s.opNow n.val), trimN := c.trimN + 1, trimAmps := c.trimAmps + amps
        limited := acts c.limited peak now, sustained := acts c.sustained sust mean } ∧
      SameFields s u [Reg.PWR_STATUS_ICC_LIMIT] ∧
      u.rd Reg.PWR_STATUS_ICC_LIMIT = (if hit peak now || hit sust mean then 1 else s.rd Reg.PWR_STATUS_ICC_LIMIT)) ∧
  (∀ (s : State) (d : Fin 7),
    let e := s.meanEst (if d.val < 4 then 500 else 2000) d.val
    (s.measured d.val = none → Completes (.calibration d) s fun u =>
      u = { s with power := u.power } ∧ u.power.gains = s.power.gains ∧ u.power.good = s.power.good ∧
        u.power.bad = s.power.bad) ∧
    ∀ m, s.measured d.val = some m →
      let within := !e.isZero && (Frac.make 1 2).le (m.div e) && (m.div e).le ⟨2, 1⟩
      let good := if within && s.rd Reg.PWR_CFG_FORCE_FB == 0 then Sparse.get 0 s.power.good d.val + 1 else 0
      (s.rd Reg.PWR_STATUS_MODE = 0 → e.isZero = false →
        (within = true ∨ Sparse.get 0 s.power.bad d.val < 7 → Completes (.calibration d) s fun u =>
          let g := Sparse.get ⟨1, 1⟩ s.power.gains d.val
          u = { s with power := u.power, flds := u.flds } ∧
            (∀ k, Sparse.get ⟨1, 1⟩ u.power.gains k = if k = d.val then
              (g.add (((m.div e).sub g).mul (Frac.make 1 8))).clamp (Frac.make 1 2) ⟨2, 1⟩
              else Sparse.get ⟨1, 1⟩ s.power.gains k) ∧
            SameFields s u [Reg.PWR_DOM_GAIN d.val, Reg.PWR_DOM_MEAS d.val] ∧
            u.rd (Reg.PWR_DOM_MEAS d.val) = watts m) ∧
        (within = false → 7 ≤ Sparse.get 0 s.power.bad d.val → Completes (.calibration d) s (FellBack s))) ∧
      (s.rd Reg.PWR_STATUS_MODE = 1 →
        let ready := s.rd Reg.PWR_CFG_FORCE_FB = 0 ∧ s.allRails = true ∧ 100 ≤ good ∧
          ∀ k < 7, k ≠ d.val → 100 ≤ Sparse.get 0 s.power.good k
        (ready → Completes (.calibration d) s (CameBack s)) ∧
        (¬ready → Completes (.calibration d) s fun u =>
          u = { s with power := u.power } ∧ u.power.gains = s.power.gains ∧
            ∀ k, Sparse.get 0 u.power.good k = if k = d.val then good else Sparse.get 0 s.power.good k))) ∧
  (∀ (s : State) (rail : Fin 10),
    (Sparse.get 0 s.power.misses rail.val < 2 → Completes (.railReading rail none) s fun u =>
      u = { s with power := u.power } ∧ Sparse.get 0 u.power.misses rail.val = Sparse.get 0 s.power.misses rail.val + 1 ∧
        rail.val ∈ u.power.failedReads ∧ u.power.gains = s.power.gains ∧
        (rail.val < 4 → (s.crownPower rail.val).readN < 63 →
          u.crownPower rail.val = { s.crownPower rail.val with readN := (s.crownPower rail.val).readN + 1 })) ∧
    (2 ≤ Sparse.get 0 s.power.misses rail.val → s.rd Reg.PWR_STATUS_MODE = 0 →
      Completes (.railReading rail none) s (FellBack s)) ∧
    ∀ mv ma, Completes (.railReading rail (some (mv, ma))) s fun u =>
      u = { s with power := u.power } ∧ Sparse.get 0 u.power.misses rail.val = 0 ∧
        (4 ≤ rail.val → u.power.readings.find? (·.1 == rail.val) = some (rail.val, mv, ma)) ∧
        (rail.val < 4 →
          let c := s.crownPower rail.val
          (c.readN < 63 → u.crownPower rail.val = { c with
            readN := c.readN + 1, readOk := c.readOk + 1, readMa := c.readMa + ma, vout := some mv }) ∧
          (c.readN = 63 → u.crownPower rail.val = { c with
            readN := 0, readOk := 0, readMa := 0, trimN := 0, trimAmps := 0, vout := some mv
            senseGain := if c.trimAmps = 0 then c.senseGain
              else (Frac.make (c.readMa + ma : Nat) ((c.readOk + 1) * 1000)).div (Frac.make c.trimAmps c.trimN) }))) ∧
  ∀ (s : State) (acc : RegAccess), s.bar0Open 0x50000 = true → s.postedHolder acc.port.val = none → s.holds acc.port.val = true → acc.part ≠ .upper →
    (acc.value / 2 % 2 = 1 → s.rd Reg.PWR_STATUS_MODE = 0 → Completes (.forceFb acc) s fun u =>
      FellBack s u ∧ u.rd Reg.PWR_CFG_FORCE_FB = 1) ∧
    (acc.value / 2 % 2 = 0 → s.rd Reg.PWR_STATUS_MODE = 1 → s.allRails = true →
      (∀ d < 7, 100 ≤ Sparse.get 0 s.power.good d) → Completes (.forceFb acc) s fun u =>
        CameBack s u ∧ u.rd Reg.PWR_CFG_FORCE_FB = 0)

/-- Temperatures, throttling and the trip (R408 to R413). That disagreement is counted in samples is the model's reading (log
entry 19). -/
def Obligations.TemperaturesThrottleAndTrip : Prop :=
  (∀ (s : State) (t : Tower) (readings : List (List Int)), Completes (.sensorSample t readings) s fun u =>
    u = { s with power := u.power, flds := u.flds, fresh := u.fresh, recorder := u.recorder, hosts := u.hosts
                 outbox := u.outbox, heldOut := u.heldOut } ∧
      u.power = { s.power with layers := u.power.layers } ∧
      (∀ k, k / 8 ≠ t.val → u.layer (k / 8) (k % 8) = s.layer (k / 8) (k % 8)) ∧
      ∀ p < 8,
        let old := s.layer t.val p
        let l := u.layer t.val p
        let vs := (readings.getD p []).take (sensorCount p)
        (∀ i v, vs[i]? = some v →
          let x := Sparse.get {} old.sensors i
          (Sparse.get {} l.sensors i).last = some v ∧
            ((Sparse.get {} l.sensors i).valid = true ↔
              x.valid = true ∧ -640 ≤ v ∧ v ≤ 2400 ∧ ∀ w, x.last = some w → (v - w).natAbs ≤ 160)) ∧
          (∀ i, vs.length ≤ i → Sparse.get {} l.sensors i = Sparse.get {} old.sensors i) ∧
          (∀ v, l.tm = some v → ∃ i < sensorCount p, Sparse.get {} l.sensors i = ⟨some v, true⟩) ∧
          (∀ i < sensorCount p, ∀ w, Sparse.get {} l.sensors i = ⟨some w, true⟩ → ∃ v, l.tm = some v ∧ w ≤ v) ∧
          l.ti = (if p = 0 then l.celsius else u.inferred t.val p) ∧
          l.te = (match l.celsius, l.ti with
            | some m, some i => some (m.max i)
            | none, i => i
            | m, none => m) ∧
          u.rd (Reg.THM_LAYER_MEAS t.val p) = tempField l.celsius ∧ u.rd (Reg.THM_LAYER_INF t.val p) = tempField l.ti ∧
          u.rd (Reg.THM_LAYER_EFF t.val p) = tempField l.te ∧
          ((∀ i < sensorCount p, (Sparse.get {} l.sensors i).valid = false) → old.faulted = false →
            u.rd Reg.THM_STATUS_SENSOR_FAULT = 1)) ∧
  (∀ (s : State) (failed : List (Tower × Pos × Nat)), Completes (.sensorCalibration failed) s fun u =>
    u = { s with power := { s.power with layers := u.power.layers }, flds := u.flds, fresh := u.fresh, recorder := u.recorder
                 hosts := u.hosts, outbox := u.outbox, heldOut := u.heldOut } ∧
      ∀ (t : Tower) (p : Pos),
        let old := s.layer t.val p.val
        let l := u.layer t.val p.val
        (∀ i, (Sparse.get {} l.sensors i).last = (Sparse.get {} old.sensors i).last ∧
          ((Sparse.get {} l.sensors i).valid = true ↔ (t, p, i) ∉ failed)) ∧
        l.tm = old.tm ∧ l.ti = old.ti ∧ l.te = old.te ∧
        ((∀ i < sensorCount p.val, (t, p, i) ∈ failed) → old.faulted = false → u.rd Reg.THM_STATUS_SENSOR_FAULT = 1)) ∧
  (∀ (s : State) (t : Tower) (p : Pos),
    let l := s.layer t.val p.val
    (l.reported = true ∨ l.apart ≤ 2500 → exec (.sensorModelDisagreement t p) s = .next s) ∧
    (l.reported = false → 2500 < l.apart → Completes (.sensorModelDisagreement t p) s fun u =>
      Records { s with power := u.power } u .sensorModelDisagreement (powerSource t.val p.val)
          [pv1 t.val, pv1 p.val, pv2 (tempField l.celsius), pv2 (tempField l.ti)] [Reg.THM_STATUS_DISAGREE] ∧
        u.rd Reg.THM_STATUS_DISAGREE = 1 ∧ u.layer t.val p.val = { l with reported := true })) ∧
  (∀ (s : State) (t : Tower), Completes (.throttleStep t) s fun u =>
    let c := s.crownPower t.val
    let y := u.crownPower t.val
    let hot := ∃ p, 1 ≤ p ∧ p ≤ 7 ∧ ∃ x, (s.layer t.val p).te = some x ∧ (throttleLevel p).le x = true
    let cool := ∀ p, 1 ≤ p → p ≤ 7 → ∃ x, (s.layer t.val p).te = some x ∧ (x.add ⟨3, 1⟩).le (throttleLevel p) = true
    u = { s with power := u.power, flds := u.flds } ∧ OnlyCrownPower s u t.val ∧
      SameFields s u [Reg.PWR_OP_CEIL t.val, Reg.PWR_OP_THROT t.val, Reg.THM_STATUS_THROT] ∧
      (hot → y = if 0 < c.thermOp then { c with thermOp := c.thermOp - 1 } else { c with thermDuty := max 4 (c.thermDuty - 4) }) ∧
      (¬hot → cool → y = if c.thermDuty < 64 then { c with thermDuty := min 64 (c.thermDuty + 4) }
        else { c with thermOp := min 7 (c.thermOp + 1) }) ∧
      (¬hot → ¬cool → y = c) ∧ u.rd (Reg.PWR_OP_CEIL t.val) = u.opCeiling t.val ∧
      bit (u.rd Reg.THM_STATUS_THROT) t.val = (decide (y.thermOp < 7) || decide (y.thermDuty < 64)) ∧
      ∀ k < 4, k ≠ t.val → bit (u.rd Reg.THM_STATUS_THROT) k = bit (s.rd Reg.THM_STATUS_THROT) k) ∧
  ∀ (s : State) (t : Tower) (p : Pos),
    let hot := ∃ x, (s.layer t.val p.val).te = some x ∧ (tripLevel p.val).le x = true
    ((p = 0 ∨ ¬hot ∨ s.power.trip = true) → exec (.thermalTrip t p) s = .next s) ∧
    (p ≠ 0 → hot → s.power.trip = false → Completes (.thermalTrip t p) s fun u =>
      u = { s with power := u.power, flds := u.flds, recorder := u.recorder, hosts := u.hosts, outbox := u.outbox
                   heldOut := u.heldOut } ∧
        u.rd Reg.THM_STATUS_TRIP_POS = p.val ∧ u.rd Reg.THM_STATUS_TRIP_TWR = t.val ∧
        .pin "THERMTRIP_N" false ∈ u.outbox ∧ u.power.stopped = true ∧ u.power.trip = true ∧
        u.rd Reg.THM_COOL_STATUS_DEMAND = 1000 ∧ u.rd Reg.EVR_STATUS_FLUSHING = 1 ∧
        Logs s u .thermalTrip (powerSource t.val p.val) [pv1 t.val, pv1 p.val])

/-- The cap (R392, R399) and the coolant loop (R414 to R417). That alarm conditions are counted in control steps is the
model's reading (log entry 19). -/
def Obligations.TheCapAndTheCoolantLoop : Prop :=
  (∀ (s : State) (acc : RegAccess), s.bar0Open 0x50400 = true → s.postedHolder acc.port.val = none → acc.part ≠ .upper →
    let req := acc.value % 65536
    let lim := clampNat 900 3600 req
    (s.holds acc.port.val = true → Completes (.pcapCap acc) s fun u =>
      u = { s with flds := u.flds, latch := u.latch } ∧
        SameFields s u [Reg.PCAP_CAP_REQ, Reg.PCAP_CAP_EFF, Reg.PCAP_CAP_CLAMPED, Reg.PCAP_STATUS_UNMET_NOW] ∧
        u.rd Reg.PCAP_CAP_REQ = req ∧ u.rd Reg.PCAP_STATUS_UNMET_NOW = 0 ∧
        u.rd Reg.PCAP_CAP_EFF = (if s.rd Reg.PCAP_STATUS_ALARM_LIM = 0 then lim else min lim s.power.coolant.alarmCap % 65536) ∧
        (req < 900 ∨ 3600 < req → u.rd Reg.PCAP_CAP_CLAMPED = 1) ∧
        (900 ≤ req → req ≤ 3600 → acc.part = .lower → u.rd Reg.PCAP_CAP_CLAMPED = s.rd Reg.PCAP_CAP_CLAMPED)) ∧
    (s.holds acc.port.val = false → Completes (.pcapCap acc) s fun u =>
      u.rd Reg.PCAP_CAP_REQ = s.rd Reg.PCAP_CAP_REQ ∧ u.rd Reg.PCAP_CAP_EFF = s.rd Reg.PCAP_CAP_EFF)) ∧
  (∀ s : State,
    (s.avg10.le (Frac.ofNat (s.rd Reg.PCAP_CAP_EFF)) = true → Completes .capUnmetHoldEnd s fun u =>
      OnlyFields s u [Reg.PCAP_STATUS_UNMET_NOW] ∧ u.rd Reg.PCAP_STATUS_UNMET_NOW = 0) ∧
    (s.avg10.le (Frac.ofNat (s.rd Reg.PCAP_CAP_EFF)) = false → exec .capUnmetHoldEnd s = .next s)) ∧
  (∀ (s : State) (inlet outlet : Int) (pulses : Nat),
    let k := s.power.coolant
    let dmin := Frac.ofNat (s.rd Reg.THM_COOL_CFG_DMIN)
    let gflow := Frac.ofNat (s.rd Reg.THM_COOL_CFG_GFLOW)
    let set := Frac.ofNat (s.rd Reg.THM_COOL_CFG_OUT_SET)
    let tin := if s.rd Reg.THM_COOL_STATUS_IN_PRESENT = 0 then set.sub ⟨10, 1⟩ else Frac.make inlet 16
    let lim := clampNat 900 3600 (s.rd Reg.PCAP_CAP_REQ)
    let eff := (if s.rd Reg.PCAP_STATUS_ALARM_LIM = 0 then lim else min lim (s.rd Reg.THM_COOL_CFG_ALARM_CAP)) % 65536
    let ff := ((Frac.ofNat 100).mul (Frac.ofNat eff)).div (gflow.mul ((set.sub tin).max ⟨2, 1⟩))
    let rise := ((Frac.ofNat 100).mul s.avg1).div (gflow.mul (k.dem.max dmin))
    (s.rd Reg.MGT_STATUS_PHASE < 6 ∨ s.power.trip = true →
      exec (.coolantControlStep inlet outlet pulses) s = .next s) ∧
    (6 ≤ s.rd Reg.MGT_STATUS_PHASE → s.power.trip = false → 0 < s.rd Reg.THM_COOL_MODEL_TACH_K →
      0 < s.rd Reg.THM_COOL_MODEL_TAU → 0 < s.rd Reg.THM_COOL_CFG_GFLOW → (gflow.mul ((set.sub tin).max ⟨2, 1⟩)).isZero = false →
      (gflow.mul (k.dem.max dmin)).isZero = false → Completes (.coolantControlStep inlet outlet pulses) s fun u =>
        let c := u.power.coolant
        let flow := (Frac.ofNat (pulses * 60)).div (Frac.ofNat (s.rd Reg.THM_COOL_MODEL_TACH_K))
        let xd := c.history.getD (s.rd Reg.THM_COOL_MODEL_DELAY) {}
        let e := ((Frac.make outlet 16).add (c.x.sub xd)).sub set
        u = { s with power := u.power, flds := u.flds, recorder := u.recorder, hosts := u.hosts, outbox := u.outbox
                     heldOut := u.heldOut } ∧
          u.power = { s.power with coolant := c } ∧ c.standing = k.standing ∧ u.rd Reg.PCAP_CAP_EFF = eff ∧
          c.alarmCap = s.rd Reg.THM_COOL_CFG_ALARM_CAP ∧
          u.rd Reg.THM_COOL_STATUS_FLOW = min 4095 (wholeUnits (flow.mul ⟨10, 1⟩)).toNat ∧
          (s.rd Reg.THM_COOL_STATUS_IN_PRESENT = 1 → u.rd Reg.THM_COOL_STATUS_TIN = wrapInt 12 inlet) ∧
          (s.rd Reg.THM_COOL_STATUS_OUT_PRESENT = 1 → u.rd Reg.THM_COOL_STATUS_TOUT = wrapInt 12 outlet) ∧
          (0 < pulses → u.rd Reg.THM_COOL_STATUS_TACH_SEEN = 1) ∧
          c.x = k.x.add (((Frac.make 1 10).div (Frac.ofNat (s.rd Reg.THM_COOL_MODEL_TAU))).mul (rise.sub k.x)) ∧
          c.history = (c.x :: k.history).take 256 ∧
          u.rd Reg.THM_COOL_STATUS_DEMAND = min 1000 (wholeUnits (c.dem.mul ⟨10, 1⟩)).toNat ∧
          (s.rd Reg.THM_COOL_STATUS_OUT_PRESENT = 0 →
            c.dem = (Frac.ofNat 100).min ((Frac.make 12 10).mul ff) ∧ c.integ = k.integ) ∧
          (s.rd Reg.THM_COOL_STATUS_OUT_PRESENT = 1 →
            c.dem = ((ff.add ((Frac.make (s.rd Reg.THM_COOL_CFG_KP) 10).mul e)).add c.integ).clamp dmin ⟨100, 1⟩ ∧
            c.integ = if (k.dem == ⟨100, 1⟩ && Frac.lt {} e) || (k.dem == dmin && e.lt {}) then k.integ
              else (k.integ.add (((Frac.make (s.rd Reg.THM_COOL_CFG_KI) 100).mul e).mul (Frac.make 1 10))).clamp ⟨-100, 1⟩ ⟨100, 1⟩))) ∧
  (∀ (s : State) (kind : CoolAlarm),
    let c := s.power.coolant
    let need := if kind = .flow then 50 else 100
    (Sparse.get 0 c.held (alarmKey kind) < need ∨ kind ∈ c.standing → exec (.coolantAlarm kind) s = .next s) ∧
    (need ≤ Sparse.get 0 c.held (alarmKey kind) → kind ∉ c.standing → Completes (.coolantAlarm kind) s fun u =>
      Records { s with power := { s.power with coolant := { c with standing := c.standing ++ [kind] } } } u .coolantAlarm
          (powerSource 0 0) [] [Reg.THM_COOL_STATUS_ALARM, Reg.PCAP_STATUS_ALARM_LIM, Reg.PCAP_CAP_EFF] ∧
        u.rd Reg.THM_COOL_STATUS_ALARM = 1 ∧ u.rd Reg.PCAP_STATUS_ALARM_LIM = 1 ∧ u.rd Reg.PCAP_CAP_EFF = u.capNow) ∧
    (Sparse.get 0 c.absent (alarmKey kind) < 600 → exec (.coolantAlarmClear kind) s = .next s) ∧
    (600 ≤ Sparse.get 0 c.absent (alarmKey kind) → Completes (.coolantAlarmClear kind) s fun u =>
      let left := c.standing.filter fun a => a != kind
      u = { s with power := { s.power with coolant := { c with standing := left } }, flds := u.flds } ∧
        SameFields s u [Reg.PCAP_STATUS_ALARM_LIM, Reg.PCAP_CAP_EFF] ∧
        u.rd Reg.PCAP_STATUS_ALARM_LIM = (if left = [] then 0 else 1) ∧ u.rd Reg.PCAP_CAP_EFF = u.capNow)) ∧
  ∀ (s : State) (acc : RegAccess), s.holds acc.port.val = true → s.postedHolder acc.port.val = none →
    let low (f : Fld) (v : Nat) : Nat := if acc.part = .upper then s.rd f else v
    let high (f : Fld) (v : Nat) : Nat := if acc.part = .lower then s.rd f else v
    let v := acc.value
    let w := if acc.part = .whole then acc.value / 2 ^ 32 else acc.value
    (s.bar0Open 0x50C00 = true → Completes (.thmCoolCfgWrite false acc) s fun u =>
      u = { s with flds := u.flds, latch := u.latch } ∧
        SameFields s u [Reg.THM_COOL_CFG_GFLOW, Reg.THM_COOL_CFG_KP, Reg.THM_COOL_CFG_KI, Reg.THM_COOL_CFG_DMIN,
          Reg.THM_COOL_CFG_OUT_SET, Reg.THM_COOL_CFG_ALARM_CAP] ∧
        u.rd Reg.THM_COOL_CFG_GFLOW = high Reg.THM_COOL_CFG_GFLOW (w / 2 ^ 16 % 65536) ∧
        u.rd Reg.THM_COOL_CFG_KP = high Reg.THM_COOL_CFG_KP (w / 2 ^ 8 % 256) ∧
        u.rd Reg.THM_COOL_CFG_KI = high Reg.THM_COOL_CFG_KI (w % 256) ∧
        u.rd Reg.THM_COOL_CFG_DMIN = low Reg.THM_COOL_CFG_DMIN (v / 2 ^ 24 % 256) ∧
        u.rd Reg.THM_COOL_CFG_OUT_SET = low Reg.THM_COOL_CFG_OUT_SET (v / 2 ^ 16 % 256) ∧
        u.rd Reg.THM_COOL_CFG_ALARM_CAP = low Reg.THM_COOL_CFG_ALARM_CAP (clampNat 900 3600 (v % 65536))) ∧
    (s.bar0Open 0x50C08 = true → Completes (.thmCoolCfgWrite true acc) s fun u =>
      u = { s with flds := u.flds, latch := u.latch } ∧
        SameFields s u [Reg.THM_COOL_MODEL_TACH_K, Reg.THM_COOL_MODEL_FLOW_MIN, Reg.THM_COOL_MODEL_IN_MAX,
          Reg.THM_COOL_MODEL_DELAY, Reg.THM_COOL_MODEL_TAU] ∧
        u.rd Reg.THM_COOL_MODEL_TACH_K = high Reg.THM_COOL_MODEL_TACH_K (w / 2 ^ 16 % 65536) ∧
        u.rd Reg.THM_COOL_MODEL_FLOW_MIN = high Reg.THM_COOL_MODEL_FLOW_MIN (w % 65536) ∧
        u.rd Reg.THM_COOL_MODEL_IN_MAX = low Reg.THM_COOL_MODEL_IN_MAX (v / 2 ^ 24 % 256) ∧
        u.rd Reg.THM_COOL_MODEL_DELAY = low Reg.THM_COOL_MODEL_DELAY (v / 2 ^ 8 % 256) ∧
        u.rd Reg.THM_COOL_MODEL_TAU = low Reg.THM_COOL_MODEL_TAU (v % 256))

/-- Ports (R418 to R420, R426, R445) and the control token (R435, R436). Rests on the model's choices: that a port reset clears Memory
Space Enable and leaves the function in D0 (log entry 23), that its record's cause is free (log entry 26), that a reset abandons a
tower's sleep as it does (log entry 26), and the capabilities' lay-out, the masking of vectors and how BARs align (log entry 30). -/
def Obligations.PortsAndTheControlToken : Prop :=
  (∀ (s : State) (p : Port),
    let other := 1 - p.val
    let emptied (s u : State) (k : ResetKind) (e : Event) (link : Bool) (perst : Bool) : Prop :=
      (∀ q < 1024, u.rd (Reg.HQ_Q_CFG_EN p.val q) = 0 ∧ u.rd (Reg.HQ_EQ_CFG_EN p.val q) = 0) ∧
        { u.host p.val with queues := [] } = { linkUp := link, resetAsserted := perst } ∧
        (∀ r ∈ u.held, ∀ tag, r.sink ≠ .hostRead p.val tag) ∧
        (s.noneEntering →
          u = { s with flds := u.flds, hosts := u.hosts, stepQueue := s.stepQueue.filter fun c => c.ticket.port != p.val
                       heldOut := u.heldOut, held := u.held, recorder := u.recorder, outbox := u.outbox
                       tokenTimer := u.tokenTimer, fresh := u.fresh, towers := u.towers, standby := u.standby } ∧
          ResetsFields s u k (inHostBlock p.val) (logFields ++ [Reg.MGT_TOKEN_HOLDER, Reg.MGT_TOKEN_EPOCH]) ∧
          (∀ r ∈ u.held, r ∈ s.held) ∧
          { u.host other with
            events := (s.host other).events
            msixPending := (s.host other).msixPending } = s.host other ∧
          (∀ n < 4, u.tower n = { s.tower n with
            sleep := match (s.tower n).sleep with
              | .entering => .awake
              | .leaving => if s.sleepHeld n then .leaving else .asleep
              | x => x }) ∧
          (s.holds p.val = true → u.rd Reg.MGT_TOKEN_HOLDER = if s.portAvailable other then other + 1 else 0) ∧
          (s.holds p.val = false → TokenKept s u ∧ ∃ cause, Logs s u e (portSource p.val) [pv4 cause]))
    (∀ kind, kind ≠ .release → Completes (.portReset p kind) s fun u =>
      emptied s u .O .portReset false (kind == .assert || (s.host p.val).resetAsserted)) ∧
    (Completes (.portReset p .release) s fun u =>
      u = { s with hosts := u.hosts } ∧ u.host p.val = { s.host p.val with resetAsserted := false } ∧
        u.host other = s.host other) ∧
    (Completes (.functionLevelReset p) s fun u =>
      emptied s u .F .functionLevelReset (s.host p.val).linkUp (s.host p.val).resetAsserted) ∧
    (Completes (.powerStateChange p true) s fun u =>
      u = { s with hosts := u.hosts } ∧ u.host p.val = { s.host p.val with d3hot := true } ∧ u.host other = s.host other) ∧
    (Completes (.powerStateChange p false) s fun u =>
      u = { s with hosts := u.hosts, heldOut := s.heldOut.filter fun e => e.1 != p.val
                   outbox := s.outbox ++ (s.heldOut.filter fun e => e.1 == p.val).map (·.2) } ∧
        u.host p.val = { s.host p.val with d3hot := false } ∧ u.host other = s.host other) ∧
    ∀ (rate : Fin 3) (full : Bool),
      ((s.host p.val).resetAsserted = true ∨ 4 + p.val ∈ s.refLost → exec (.pcieLinkUp p rate full) s = .next s) ∧
      ((s.host p.val).resetAsserted = false → 4 + p.val ∉ s.refLost → Completes (.pcieLinkUp p rate full) s fun u =>
        u = { s with hosts := u.hosts, flds := u.flds } ∧ u.host p.val = { s.host p.val with linkUp := true } ∧
          u.host other = s.host other ∧ SameFields s u [Reg.HQ_PORT_RATE p.val, Reg.HQ_PORT_WIDTH p.val] ∧
          u.rd (Reg.HQ_PORT_RATE p.val) = 4 + rate.val ∧ u.rd (Reg.HQ_PORT_WIDTH p.val) = if full then 16 else 8)) ∧
  (∀ (s : State) (p : Port) (tag : Nat) (req : CfgReq),
    let answered (bs : List Byte) (st : Nat) (s u : State) : Prop :=
      u = { s with outbox := s.outbox ++ [.completion p.val tag (bs.map some) st], hosts := u.hosts, fresh := u.fresh } ∧
        u.host (1 - p.val) = s.host (1 - p.val)
    (s.rd Reg.MGT_STATUS_PHASE ≠ 8 → s.rd Reg.MGT_STATUS_MODE ≠ 3 → Completes (.configurationRequest p tag req) s fun u =>
      answered [] 3 s u ∧ u.hosts = s.hosts) ∧
    (s.rd Reg.MGT_STATUS_PHASE = 8 ∨ s.rd Reg.MGT_STATUS_MODE = 3 →
      (req = .read 0 → Completes (.configurationRequest p tag req) s fun u =>
        answered [0x8C, 0x1F, 0x32, 0xD0] 0 s u ∧ u.hosts = s.hosts) ∧
      (req = .read 8 → Completes (.configurationRequest p tag req) s fun u =>
        ∃ rev, answered [rev, 0x00, 0x00, 0x12] 0 s u ∧ u.hosts = s.hosts) ∧
      (∀ reg, req = .read reg → Completes (.configurationRequest p tag req) s fun u =>
        let k := (s.host p.val).headerReg reg
        ∃ bs, bs.length = 4 ∧ leNat bs &&& k.mask = k.value &&& k.mask ∧ answered bs 0 s u ∧ u.hosts = s.hosts) ∧
      (∀ cap word, req = .readCap cap word → Completes (.configurationRequest p tag req) s fun u =>
        let k := s.capabilityReg p.val cap word
        ∃ bs, bs.length = 4 ∧ leNat bs &&& k.mask = k.value &&& k.mask ∧ answered bs 0 s u ∧ u.hosts = s.hosts) ∧
      (∀ on, req = .memEnable on → Completes (.configurationRequest p tag req) s fun u =>
        answered [] 0 s u ∧ u.host p.val = { s.host p.val with memEnable := on }) ∧
      (∀ n, req = .bar2Size n → Completes (.configurationRequest p tag req) s fun u =>
        answered [] 0 s u ∧ u.host p.val = { s.host p.val with bar2Gib := 2 ^ n.val }) ∧
      (∀ k addr, req = .bar k addr → Completes (.configurationRequest p tag req) s fun u =>
        let size := match k with
          | 0 => 2 ^ 26
          | 1 => (s.host p.val).bar2Gib * 2 ^ 30
          | 2 => 2 ^ 20
        let a := addr % 2 ^ 64 / size * size
        answered [] 0 s u ∧ u.host p.val = match k with
          | 0 => { s.host p.val with bar0 := a }
          | 1 => { s.host p.val with bar2 := a }
          | 2 => { s.host p.val with bar4 := a }) ∧
      (∀ x y, req = .transfers x y → Completes (.configurationRequest p tag req) s fun u =>
        answered [] 0 s u ∧ u.host p.val = { s.host p.val with payloadLog := x.val, readLog := y.val }) ∧
      (∀ on mask, req = .msixControl on mask →
        (s.host p.val).msixPending = [] ∨ on = false ∨ mask = true → Completes (.configurationRequest p tag req) s fun u =>
          answered [] 0 s u ∧ u.host p.val = { s.host p.val with msixOn := on, msixMasked := mask }) ∧
      (∀ v, req = .msixControl true false → (s.host p.val).d3hot = false → (s.host p.val).msixPending = [(v, true)] →
        (s.host p.val).vectorMasked v = false → Completes (.configurationRequest p tag req) s fun u =>
          u = { s with hosts := u.hosts, outbox := s.outbox ++ [.completion p.val tag [] 0, .msix p.val v] } ∧
            u.host (1 - p.val) = s.host (1 - p.val) ∧
            u.host p.val = { s.host p.val with msixOn := true, msixMasked := false, msixPending := [] }) ∧
      (s.postedHolder p.val = none → s.rd Reg.MGT_STATUS_MODE ≠ 3 →
        (∀ v word, req = .tableRead v word → Completes (.configurationRequest p tag req) s fun u =>
          answered (leBytes 4 ((s.host p.val).tableWord v.val word.val)) 0 s u ∧ u.hosts = s.hosts) ∧
        (∀ word, req = .pbaRead word → Completes (.configurationRequest p tag req) s fun u =>
          answered (leBytes 4 ((s.host p.val).pbaWord word.val)) 0 s u ∧ u.hosts = s.hosts) ∧
        ∀ v word x, req = .tableWrite v word x → (s.host p.val).msixPending = [] →
          Completes (.configurationRequest p tag req) s fun u =>
            u = { s with hosts := u.hosts } ∧ u.host (1 - p.val) = s.host (1 - p.val) ∧
              { u.host p.val with msixTable := (s.host p.val).msixTable } = s.host p.val ∧
              ∀ w k, k < 4 → (u.host p.val).tableWord w k =
                if w = v.val ∧ k = word.val then x % 2 ^ 32 else (s.host p.val).tableWord w k) ∧
      (s.postedHolder p.val = none → s.rd Reg.MGT_STATUS_MODE = 3 → ∀ v word x, req = .tableWrite v word x →
        exec (.configurationRequest p tag req) s = .next s))) ∧
  (∀ (s : State) (acc : RegAccess), s.postedHolder acc.port.val = none →
    acc.part = .lower ∨ (acc.part = .whole ∧ acc.value / 2 ^ 32 % 65536 = s.rd Reg.MGT_TOKEN_TIMEOUT_MS) →
    let mine := s.holds acc.port.val
    let avail := s.portAvailable (1 - acc.port.val)
    (acc.value % 16 = 2 → Completes (.claim acc) s fun u =>
      (s.rd Reg.MGT_TOKEN_HOLDER = 0 → TokenMoved s u (acc.port.val + 1) 1) ∧
        (s.rd Reg.MGT_TOKEN_HOLDER ≠ 0 → TokenKept s u)) ∧
    (acc.value % 16 = 4 → Completes (.release acc) s fun u =>
      (mine = true → TokenMoved s u 0 2) ∧ (mine = false → TokenKept s u)) ∧
    (acc.value % 16 = 8 → Completes (.give acc) s fun u =>
      (mine = true → avail = true → TokenMoved s u (2 - acc.port.val) 3) ∧
        (mine = false ∨ avail = false → TokenKept s u)) ∧
    (acc.value % 16 = 1 → Completes (.beat acc) s fun u =>
      u = { s with flds := u.flds, latch := u.latch, tokenTimer := u.tokenTimer } ∧
        SameFields s u [Reg.MGT_TOKEN_TIMEOUT_MS] ∧ u.tokenTimer = if mine then s.tokenTimer + 1 else s.tokenTimer)) ∧
  ∀ (s : State) (start : Nat),
    (start ≠ s.tokenTimer ∨ s.rd Reg.MGT_TOKEN_HOLDER = 0 → exec (.tokenTimeout start) s = .next s) ∧
    ∀ p : Port, start = s.tokenTimer → s.holds p.val = true → Completes (.tokenTimeout start) s fun u =>
      TokenMoved s u (if s.portAvailable (1 - p.val) then 2 - p.val else 0) 4

/-- The host interface (R422 to R434, R439). Rests on the model's choices: that a DMA moves its words in one step, what a fetch engine
knows of the other queues' heads, and that an access waits within its command for what holds a posted write (log entry 23); that a held
register write waits as it does (log entry 20); and the masking of vectors (log entry 30). -/
def Obligations.HostMemoryAccessesQueuesAndDma : Prop :=
  (∀ (s : State) (p : Port) (tag off len : Nat) (data : List Byte),
    let a := s.bar2Addr p.val off
    let here (n : Nat) : Prop := 0 < n ∧ off + n ≤ (s.host p.val).bar2Gib * 2 ^ 30 ∧ s.standby = false ∧ s.postedHolder p.val = none
    (here len → s.rd Reg.MGT_STATUS_PHASE ≠ 8 → Completes (.bar2Read p tag off len []) s fun u =>
      u = { s with outbox := s.outbox ++ [.completion p.val tag [] 2] }) ∧
    (here len → s.rd Reg.MGT_STATUS_PHASE = 8 → s.inRegion a = true → Completes (.bar2Read p tag off len []) s fun u =>
      .completion p.val tag [] 2 ∈ u.outbox ∧ u.mem = s.mem ∧ Logs s u .addressFault (portSource p.val) [pv6 a, pv2 (origCode (.port p))]) ∧
    (∀ h, here len → s.rd Reg.MGT_STATUS_PHASE = 8 → s.inRegion a = false → s.rangeHolder (.port p) a len = some h →
      Completes (.bar2Read p tag off len []) s fun u =>
        u = { s with held := s.held ++ [⟨h, .port p, .hostRead p.val tag, a, len, []⟩], towers := u.towers } ∧
          (∀ t, h = .sleep t → (s.tower t).sleep = .asleep → (u.tower t).sleep = .leaving) ∧
          ∀ t, h ≠ .sleep t → u.tower t = (s.countAccess a len).tower t) ∧
    (here len → s.rd Reg.MGT_STATUS_PHASE = 8 → s.inRegion a = false → s.accessFault a len false = false →
      s.rangePathLost (.port p) a len = true → Completes (.bar2Read p tag off len []) s fun u =>
        u = { s.countAccess a len with outbox := s.outbox ++ [.completion p.val tag (List.replicate len none) 0] }) ∧
    (here data.length → s.rd Reg.MGT_STATUS_PHASE = 8 → Readable s (.port p) a data →
      Completes (.bar2Read p tag off data.length []) s fun u =>
        u = { s.countAccess a data.length with outbox := s.outbox ++ [.completion p.val tag (data.map some) 0] }) ∧
    (here data.length → s.rd Reg.MGT_STATUS_PHASE = 8 → Writable s (.port p) a data.length →
      Completes (.bar2Write p off (data.map some)) s fun u =>
        u = { s.countAccess a data.length with
              mem := u.mem, poison := u.poison, pages := u.pages, tiers := u.tiers, flds := u.flds } ∧
          Wrote s u (.port p) a data) ∧
    (here data.length → s.rd Reg.MGT_STATUS_PHASE = 8 → s.inRegion a = true → Completes (.bar2Write p off (data.map some)) s fun u =>
      u.mem = s.mem ∧ u.poison = s.poison ∧ u.cores = s.cores ∧ u.sync = s.sync ∧
        Logs s u .addressFault (portSource p.val) [pv6 a, pv2 (origCode (.port p))]) ∧
    (∀ h, here data.length → s.rd Reg.MGT_STATUS_PHASE = 8 → s.inRegion a = false → s.rangeHolder (.port p) a data.length = some h →
      Completes (.bar2Write p off (data.map some)) s fun u =>
        u.mem = s.mem ∧ u.held = s.held ++ [⟨h, .port p, .hostWrite p.val, a, data.length, data.map some⟩])) ∧
  (∀ (s : State) (k : Nat) (r : HeldReq), s.held[k]? = some r →
    (∀ p tag, r.sink = .hostRead p tag → Completes (.hostHoldTimeout k) s fun u =>
      Records { s with held := s.held.eraseIdx k } u .hostHoldTimeout (portSource p) [] [Reg.HQ_ERR_HOLD_TO p] ∧
        u.rd (Reg.HQ_ERR_HOLD_TO p) = 1 ∧ .completion p tag (List.replicate r.len none) 0 ∈ u.outbox) ∧
    (∀ p, r.port = some p → (∀ p' tag, r.sink ≠ .hostRead p' tag) → Completes (.hostHoldTimeout k) s fun u =>
      Records { s with held := s.held.eraseIdx k } u .hostHoldTimeout (portSource p) [] [Reg.HQ_ERR_HOLD_TO p] ∧
        u.rd (Reg.HQ_ERR_HOLD_TO p) = 1) ∧
    (r.port = none → exec (.hostHoldTimeout k) s = .next s)) ∧
  (∀ (s : State) (p : Port) (q : Fin 1024) (size v : Nat), s.postedHolder p.val = none → s.rd Reg.MGT_STATUS_MODE = 3 →
    ∀ c ∈ [Instr.sqTailDoorbell p q size v, .cqHeadDoorbell p q size v, .eqHeadDoorbell p q size v], exec c s = .next s) ∧
  (∀ (s : State) (p : Port) (q : Fin 1024) (size v : Nat), s.standby = false → s.postedHolder p.val = none → s.rd Reg.MGT_STATUS_MODE ≠ 3 →
    let x := (s.host p.val).queue q.val
    let y := Sparse.get {} (s.host p.val).events q.val
    let ring := s.rd (Reg.HQ_Q_CFG_CQSZM1 p.val q.val) + 1
    let freed := (v + ring - s.rd (Reg.HQ_Q_STATUS_CQHEAD p.val q.val)) % ring
    let eq := 2 ^ s.rd (Reg.HQ_EQ_CFG_LOG2SZ p.val q.val)
    let bad (u : State) : Prop :=
      OnlyFields s u [Reg.HQ_ERR_DB_BAD p.val, Reg.HQ_ERR_DB_CNT p.val] ∧ u.rd (Reg.HQ_ERR_DB_BAD p.val) = 1 ∧
        u.rd (Reg.HQ_ERR_DB_CNT p.val) = satAdd 32 (s.rd (Reg.HQ_ERR_DB_CNT p.val)) 1
    let sqOk := s.rd (Reg.HQ_Q_CFG_EN p.val q.val) ≠ 0 ∧ size = 4 ∧ s.rd (Reg.HQ_Q_CFG_CLASS p.val q.val) = 0 ∧
      v ≤ s.rd (Reg.HQ_Q_CFG_SQSZM1 p.val q.val)
    let cqOk := s.rd (Reg.HQ_Q_CFG_EN p.val q.val) ≠ 0 ∧ size = 4 ∧ v < ring ∧ freed ≤ x.written
    let eqOk := s.rd (Reg.HQ_EQ_CFG_EN p.val q.val) ≠ 0 ∧ size = 4 ∧ v < eq
    (Completes (.sqTailDoorbell p q size v) s fun u =>
      (¬sqOk → bad u) ∧ (sqOk → OnlyFields s u [Reg.HQ_Q_STATUS_SQTAIL p.val q.val] ∧
        u.rd (Reg.HQ_Q_STATUS_SQTAIL p.val q.val) = v % 65536)) ∧
    (Completes (.cqHeadDoorbell p q size v) s fun u =>
      (¬cqOk → bad u) ∧ (cqOk → u = { s with flds := u.flds, hosts := u.hosts } ∧
        SameFields s u [Reg.HQ_Q_STATUS_CQHEAD p.val q.val] ∧ u.rd (Reg.HQ_Q_STATUS_CQHEAD p.val q.val) = v % 65536 ∧
        (u.host p.val).queue q.val = { x with written := x.written - freed } ∧
        u.host (1 - p.val) = s.host (1 - p.val))) ∧
    (Completes (.eqHeadDoorbell p q size v) s fun u =>
      (¬eqOk → bad u) ∧ (eqOk → u = { s with hosts := u.hosts } ∧ u.host (1 - p.val) = s.host (1 - p.val) ∧
        let head := (y.tail + eq - y.used % eq) % eq
        Sparse.get {} (u.host p.val).events q.val = { y with used := if v = head then y.used else (y.tail + eq - v) % eq }))) ∧
  (∀ (s : State) (q : Fin 1024) (acc : RegAccess), acc.part = .whole →
    let p := acc.port.val
    let v := acc.value
    let cq := v / 2 ^ 16 % 65536
    let sq := v % 65536
    let cls := v / 2 ^ 62 % 2
    let wt := v / 2 ^ 48 % 256
    let was := s.rd (Reg.HQ_Q_CFG_EN p q.val)
    let fixed := [Reg.HQ_Q_CFG_CLASS p q.val, Reg.HQ_Q_CFG_WEIGHT p q.val, Reg.HQ_Q_CFG_CQSZM1 p q.val,
      Reg.HQ_Q_CFG_SQSZM1 p q.val]
    let all := fixed ++ [Reg.HQ_Q_CFG_EN p q.val, Reg.HQ_Q_CFG_IEN p q.val, Reg.HQ_Q_CFG_ITIME p q.val]
    let ends := [Reg.HQ_Q_STATUS_SQTAIL p q.val, Reg.HQ_Q_STATUS_SQHEAD p q.val, Reg.HQ_Q_STATUS_CQTAIL p q.val,
      Reg.HQ_Q_STATUS_CQHEAD p q.val]
    let taken (u : State) : Prop :=
      u.rd (Reg.HQ_Q_CFG_EN p q.val) = v / 2 ^ 63 % 2 ∧ u.rd (Reg.HQ_Q_CFG_CLASS p q.val) = cls ∧
        u.rd (Reg.HQ_Q_CFG_IEN p q.val) = v / 2 ^ 61 % 2 ∧ u.rd (Reg.HQ_Q_CFG_WEIGHT p q.val) = max 1 wt ∧
        u.rd (Reg.HQ_Q_CFG_ITIME p q.val) = v / 2 ^ 32 % 65536 ∧ u.rd (Reg.HQ_Q_CFG_CQSZM1 p q.val) = cq ∧
        u.rd (Reg.HQ_Q_CFG_SQSZM1 p q.val) = sq
    let bad := if was = 0 then v / 2 ^ 63 % 2 = 1 ∧ (cq = 0 ∨ (cls = 0 ∧ (sq = 0 ∨ cq < sq)))
      else fixed.map s.rd ≠ [cls, max 1 wt, cq, sq]
    s.bar0Open (0x10010 + 32 * q.val) = true → s.postedHolder p = none →
      (bad → Completes (.hqQCfgWrite q acc) s fun u =>
        OnlyFields s u [Reg.HQ_ERR_CFG_BAD p] ∧ u.rd (Reg.HQ_ERR_CFG_BAD p) = 1) ∧
      (¬bad → was = 0 → v / 2 ^ 63 % 2 = 1 → Completes (.hqQCfgWrite q acc) s fun u =>
        u = { s with flds := u.flds, latch := u.latch, hosts := u.hosts } ∧ taken u ∧ SameFields s u (all ++ ends) ∧
          (∀ f ∈ ends, u.rd f = 0) ∧ (u.host p).queue q.val = { epoch := ((s.host p).queue q.val).epoch + 1 } ∧
          (∀ k, k ≠ q.val → (u.host p).queue k = (s.host p).queue k) ∧ u.host (1 - p) = s.host (1 - p)) ∧
      (¬bad → was ≠ 0 ∨ v / 2 ^ 63 % 2 = 0 → Completes (.hqQCfgWrite q acc) s fun u =>
        u = { s with flds := u.flds, latch := u.latch } ∧ taken u ∧ SameFields s u all)) ∧
  (∀ (s : State) (e : Fin 1024) (acc : RegAccess), acc.part = .whole → s.bar0Open (0x18008 + 16 * e.val) = true →
    s.postedHolder acc.port.val = none →
    let p := acc.port.val
    let v := acc.value
    let lg := v / 2 ^ 53 % 32
    let on := v / 2 ^ 63 % 2 = 1
    (on → lg < 4 ∨ 16 < lg → Completes (.hqEqCfgWrite e acc) s fun u =>
      OnlyFields s u [Reg.HQ_ERR_CFG_BAD p] ∧ u.rd (Reg.HQ_ERR_CFG_BAD p) = 1) ∧
    (¬on ∨ (4 ≤ lg ∧ lg ≤ 16) → Completes (.hqEqCfgWrite e acc) s fun u =>
      let y := Sparse.get {} (u.host p).events e.val
      u.rd (Reg.HQ_EQ_CFG_EN p e.val) = v / 2 ^ 63 % 2 ∧ u.rd (Reg.HQ_EQ_CFG_SRC p e.val) = v / 2 ^ 61 % 4 ∧
        u.rd (Reg.HQ_EQ_CFG_SEV p e.val) = v / 2 ^ 58 % 8 ∧ u.rd (Reg.HQ_EQ_CFG_LOG2SZ p e.val) = lg ∧
        u.rd (Reg.HQ_EQ_CFG_OBJ p e.val) = v / 2 ^ 32 % 2 ^ 17 ∧ u.rd (Reg.HQ_EQ_CFG_VALUE p e.val) = v % 2 ^ 32 ∧
        (¬on → y = {}) ∧ (on → y.enabled = true ∧
          y.armed = decide (v / 2 ^ 61 % 4 = 0 ∧ s.obj (v / 2 ^ 32 % 2 ^ 17) < v % 2 ^ 32)))) ∧
  (∀ (s : State) (p : Port) (q : Fin 1024) (cmd : List Byte) (newRound : FetchRound) (contended : Bool),
    s.postedHolder p.val = none →
    let b := padBytes 64 cmd
    let x := (s.host p.val).queue q.val
    let head := s.rd (Reg.HQ_Q_STATUS_SQHEAD p.val q.val)
    let next := if s.rd (Reg.HQ_Q_CFG_SQSZM1 p.val q.val) ≤ head then 0 else head + 1
    let t : Ticket := ⟨p.val, q.val, head, next, x.epoch⟩
    let took (u : State) : Prop :=
      u.rd (Reg.HQ_Q_STATUS_SQHEAD p.val q.val) = next % 65536 ∧ u.host (1 - p.val) = s.host (1 - p.val) ∧
        (u.host p.val).queue q.val = { x with reserved := x.reserved + 1, round := x.round + 1 }
    let step (t : Ticket) : StepCmd := { ticket := t, image := fieldNat b 8 8, step := fieldNat b 16 4, lrf := fieldNat b 20 4
                                         done := fieldNat b 24 4 % 2 ^ 17
                                         args := (List.range 4).map fun i => fieldNat b (32 + 8 * i) 8 }
    let stepForm := fieldNat b 0 1 = 1 ∧ zeroAt b 1 7 = true ∧ zeroAt b 28 4 = true
    let wrong := (fieldNat b 0 1 = 1 ∧ ¬stepForm) ∨ (fieldNat b 0 1 = 3 ∧ dmaOf t b = none) ∨
      (fieldNat b 0 1 ≠ 1 ∧ fieldNat b 0 1 ≠ 3)
    let done := s.roundOver p.val q.val contended newRound.heads
    let begins := newRound.begins && done
    (∀ k < 1024, k ≠ q.val → s.queueReady p.val k = true →
      ((s.host p.val).queue k).round < s.rd (Reg.HQ_Q_CFG_WEIGHT p.val k) →
      (newRound.heads.lookup k = some 1 → s.stepQueue.length < 64 ∧ (contended = false ∨ s.lastStepPort ≠ p.val)) →
      (newRound.heads.lookup k = some 3 → (s.host p.val).freeDma ≠ none) → done = false) ∧
    (s.queueReady p.val q.val = false ∨
        (begins = false ∧ s.rd (Reg.HQ_Q_CFG_WEIGHT p.val q.val) ≤ x.round) ∨
        (stepForm ∧ (64 ≤ s.stepQueue.length ∨ (contended = true ∧ s.lastStepPort = p.val))) →
      exec (.commandFetch p q cmd newRound contended) s = .next s) ∧
    (s.queueReady p.val q.val = true → begins = false → x.round < s.rd (Reg.HQ_Q_CFG_WEIGHT p.val q.val) →
      (stepForm → s.stepQueue.length < 64 → contended = false ∨ s.lastStepPort ≠ p.val →
        Completes (.commandFetch p q cmd newRound contended) s fun u =>
          u = { s with flds := u.flds, hosts := u.hosts, stepQueue := s.stepQueue ++ [step t], lastStepPort := p.val } ∧
            took u ∧ SameFields s u [Reg.HQ_Q_STATUS_SQHEAD p.val q.val]) ∧
      (∀ j c, fieldNat b 0 1 = 3 → dmaOf t b = some j → (s.host p.val).freeDma = some c →
        Completes (.commandFetch p q cmd newRound contended) s fun u =>
          u = { s with flds := u.flds, hosts := u.hosts } ∧ took u ∧ Sparse.get none (u.host p.val).dma c = some j ∧
            SameFields s u [Reg.HQ_Q_STATUS_SQHEAD p.val q.val]) ∧
      (∀ j, fieldNat b 0 1 = 3 → dmaOf t b = some j → (s.host p.val).freeDma = none →
        exec (.commandFetch p q cmd newRound contended) s = .next s) ∧
      (wrong → Completes (.commandFetch p q cmd newRound contended) s fun u =>
        u = { s with flds := u.flds, hosts := u.hosts, outbox := u.outbox, heldOut := u.heldOut, fresh := u.fresh } ∧
          u.rd (Reg.HQ_Q_STATUS_SQHEAD p.val q.val) = next % 65536 ∧ u.rd (Reg.HQ_ERR_CMD_BAD p.val) = 1 ∧
          ∃ info, Posted s u t 0xFE 0 (fieldNat b 0 1) info)) ∧
    (s.queueReady p.val q.val = true → begins = true → s.rd (Reg.HQ_Q_CFG_WEIGHT p.val q.val) ≠ 0 → stepForm →
      s.stepQueue.length < 64 → contended = false → (s.host p.val).queues.Pairwise (fun a b => a.1 < b.1) →
      Completes (.commandFetch p q cmd newRound contended) s fun u => u.stepQueue = s.stepQueue ++ [step t])) ∧
  (∀ (s : State) (p : Port) (ch : Fin 8) (j : DmaJob) (data : List Byte),
    Sparse.get none (s.host p.val).dma ch.val = some j →
    let word (i : Nat) : List Byte := (data.drop (16 * i)).take 16
    let ran (n : Nat) (s u : State) : Prop :=
      u = { s with hosts := u.hosts, outbox := u.outbox, towers := u.towers } ∧ u.host (1 - p.val) = s.host (1 - p.val) ∧
        u.towers = (s.countAccess j.daddr (16 * j.len16)).towers ∧
        Sparse.get none (u.host p.val).dma ch.val = some { j with started := true, status := 0, done16 := n }
    (j.started = true ∨ s.optCondHolds j.wait = false → exec (.dmaStart p ch (data.map some) []) s = .next s) ∧
    (j.started = false → s.optCondHolds j.wait = true → s.standby = false → data.length = 16 * j.len16 →
      s.rangeHolder (.dma p ch) j.daddr (16 * j.len16) = none →
      (j.toHost = true → (∀ i < j.len16, Readable s (.dma p ch) (j.daddr + 16 * i) (word i)) →
        Completes (.dmaStart p ch [] []) s fun u =>
          ran j.len16 s u ∧ u.outbox = s.outbox ++ (List.range j.len16).map fun i =>
            .hostWrite p.val (j.haddr + 16 * i) ((word i).map some)) ∧
      let m (n : Nat) : State := (List.range n).foldl
        (fun m i => (m.memWrite (.dma p ch) (j.daddr + 16 * i) ((word i).map some)).2) s
      j.toHost = false → (∀ i < j.len16, Writable (m i) (.dma p ch) (j.daddr + 16 * i) 16) →
        Completes (.dmaStart p ch (data.map some) []) s fun u => ran j.len16 (m j.len16) u ∧ u.outbox = (m j.len16).outbox) ∧
    (j.started = false → exec (.dmaComplete p ch) s = .next s) ∧
    (j.started = true → s.plainObj j.signal → s.objReached (.dma p ch) j.signal = true → Completes (.dmaComplete p ch) s fun u =>
      u = { s with sync := u.sync, flds := u.flds, hosts := u.hosts, outbox := u.outbox, heldOut := u.heldOut } ∧
        Signalled s u j.signal ∧ Posted s u j.ticket j.status 0 3 j.done16 ∧
        Sparse.get none (u.host p.val).dma ch.val = none)) ∧
  (∀ (s : State) (p : Port) (q : Fin 1024),
    let h := s.host p.val
    let x := h.queue q.val
    (x.unsignalled = false → exec (.interruptDelay p q) s = .next s) ∧
    (x.unsignalled = true → Completes (.interruptDelay p q) s fun u =>
      u = { s with hosts := u.hosts, outbox := u.outbox, heldOut := u.heldOut } ∧ u.host (1 - p.val) = s.host (1 - p.val) ∧
        (u.host p.val).queue q.val = { x with unsignalled := false } ∧
        (∀ k, k ≠ q.val → (u.host p.val).queue k = h.queue k) ∧
        { u.host p.val with
          queues := h.queues
          msixPending := h.msixPending } = h ∧
        let masked := h.msixMasked || h.vectorMasked q.val
        (h.msixOn = false ∨ masked = true → u.outbox = s.outbox ∧ u.heldOut = s.heldOut) ∧
        (h.msixOn = true → masked = true → Sparse.get false (u.host p.val).msixPending q.val = true) ∧
        (h.msixOn = false ∨ masked = false → (u.host p.val).msixPending = h.msixPending) ∧
        (h.msixOn = true → masked = false → h.d3hot = false → u.outbox = s.outbox ++ [.msix p.val q.val]) ∧
        (h.msixOn = true → masked = false → h.d3hot = true → u.heldOut = s.heldOut ++ [(p.val, .msix p.val q.val)]))) ∧
  (∀ (c : Instr) (p : Port) (s : State), c.accessPort = some p → (s.portTurn p.val).postedHolder p.val = none →
    exec c s = exec c (s.portTurn p.val)) ∧
  ∀ (s : State) (acc : RegAccess) (c : Core) (n : Tower) (a : Arr) (slot d : Fin 16) (st : Option (Fin 8)) (bank : Bank),
    s.postedHolder acc.port.val = none → ∀ w : Instr × Nat,
    w ∈ [(.slotDescriptorWrite c a slot acc, slotOff c.val a slot.val), (.chainDescriptorWrite c d st acc, chainOff c.val d.val st),
      (.crnFullerCfgWrite n acc, 0x1000100 + n.val * 0x400000), (.tierCfgWrite n acc, 0x100000 + n.val * 0x1000),
      (.cntSel bank acc, bankOff bank), (.clrAll bank acc, bankClear bank), (.clrSel bank acc, bankClear bank)] →
    s.bar0Open w.2 = true →
    (s.regPathLost (.port acc.port) w.2 = true → exec w.1 s = .next s) ∧
    ∀ h, s.regPathLost (.port acc.port) w.2 = false → s.regHolder (.port acc.port) w.2 = some h →
      exec w.1 s = .next (HeldWrite s h acc true w.2)

/-- Firmware update through SEC_UPD_CMD (R453 to R458) and the standby (R443, R449, R466). That an operation acts at its command
and shows at its end is the model's reading (log entry 27). -/
def Obligations.FirmwareIsStagedActivatedAndCommitted : Prop :=
  (∀ (s : State) (acc : RegAccess) (writeOk : Bool), acc.part ≠ .upper → s.postedHolder acc.port.val = none →
    let may := s.holds acc.port.val = true ∧ s.rd Reg.SEC_UPD_STATUS_BUSY = 0
    let op := acc.value % 8
    let ty := acc.value / 256 % 4
    let a := s.rd Reg.SEC_UPD_ADDR_ADDR * 16
    let n := s.rd Reg.SEC_UPD_LEN_LEN
    let only (u : State) : Prop := u = { s with flds := u.flds, boot := u.boot } ∧ u.boot.banks = s.boot.banks
    (¬may →
      (op = 1 → Completes (.stage acc writeOk) s fun u => Rejected s u acc.port 0x501038) ∧
      (op = 2 → Completes (.firmwareActivate acc) s fun u => Rejected s u acc.port 0x501038) ∧
      (op = 3 → Completes (.cancel acc) s fun u => Rejected s u acc.port 0x501038) ∧
      (op = 4 → Completes (.commit acc) s fun u => Rejected s u acc.port 0x501038)) ∧
    (may → op = 1 →
      (n = 0 ∨ 4194304 < n ∨ s.rd Reg.MGT_STATUS_MODE = 3 ∨ s.inRegion a = true → Completes (.stage acc writeOk) s fun u =>
        only u ∧ OpStarted u { op := 1, type := 0, result := 7 }) ∧
      ∀ bs : List Byte, bs.length = n → 1 ≤ n → n ≤ 4194304 → s.rd Reg.MGT_STATUS_MODE ≠ 3 → Readable s .mgmt a bs →
        let k := fieldNat bs 4 1 - 1
        let r := s.imageResult k true bs
        (fieldNat bs 4 1 = 0 ∨ 3 < fieldNat bs 4 1 → Completes (.stage acc writeOk) s fun u =>
          only u ∧ OpStarted u { op := 1, type := 0, result := 1 }) ∧
        (1 ≤ fieldNat bs 4 1 → fieldNat bs 4 1 ≤ 3 →
          (bit s.boot.revoked (mKeySlot bs) = true ∨ mSvn bs < Sparse.get 0 s.boot.floors k ∨
            mDigest bs ≠ shake256 ((bs.drop 30304).take (mPayloadLen bs)) 64 → r ≠ 0) ∧
          (r ≠ 0 → Completes (.stage acc writeOk) s fun u => only u ∧ OpStarted u { op := 1, type := k, result := r }) ∧
          (r = 0 → (s.fwType k).active < 2 → Completes (.stage acc writeOk) s fun u =>
            u = { s with flds := u.flds, boot := u.boot } ∧ Stored s u k bs ∧
              OpStarted u { op := 1, type := k, result := if writeOk then 0 else 8 }))) ∧
    (may → op = 2 →
      (ty = 0 ∨ bit (s.rd Reg.SEC_UPD_STATUS_STAGED) (ty - 1) = false → Completes (.firmwareActivate acc) s fun u =>
        only u ∧ u.boot.types = s.boot.types ∧ OpStarted u { op := 2, type := ty - 1, result := 9 }) ∧
      (ty ≠ 0 → bit (s.rd Reg.SEC_UPD_STATUS_STAGED) (ty - 1) = true → Completes (.firmwareActivate acc) s fun u =>
        only u ∧ u.fwType (ty - 1) = { s.fwType (ty - 1) with pending := true } ∧
          bit (u.rd Reg.SEC_UPD_STATUS_STAGED) (ty - 1) = false ∧ bit (u.rd Reg.SEC_UPD_STATUS_PENDING) (ty - 1) = true ∧
          OpStarted u { op := 2, type := ty - 1, result := 0 })) ∧
    (may → op = 3 → Completes (.cancel acc) s fun u =>
      only u ∧ OpStarted u { op := 3, type := ty - 1, result := 0 } ∧
        (ty ≠ 0 → u.fwType (ty - 1) = { s.fwType (ty - 1) with pending := false } ∧
          bit (u.rd Reg.SEC_UPD_STATUS_PENDING) (ty - 1) = false)) ∧
    (may → op = 4 →
      let confirmed := acc.value / 65536 % 65536 = 0xF05E
      let settled := s.rd Reg.MGT_STATUS_MODE = 1 ∧ ∀ k < 3, (s.fwType k).pending = false ∧ (s.fwType k).trial = false
      (¬confirmed ∨ ¬settled → Completes (.commit acc) s fun u =>
        only u ∧ u.boot.floors = s.boot.floors ∧ u.boot.revoked = s.boot.revoked ∧
          OpStarted u { op := 4, type := 0, result := if ¬confirmed then 10 else 9 }) ∧
      (confirmed → settled → Completes (.commit acc) s fun u =>
        only u ∧ Committed s u ∧ OpStarted u { op := 4, type := 0, result := 0 }))) ∧
  (∀ s : State,
    (s.boot.op = none → exec .updateOperationDone s = .next s) ∧
    ∀ o, s.boot.op = some o → o.type < 3 → Completes .updateOperationDone s fun u =>
      u = { s with flds := u.flds, boot := u.boot, outbox := u.outbox } ∧ u.boot.op = none ∧
        u.rd Reg.SEC_UPD_STATUS_BUSY = 0 ∧ u.rd Reg.SEC_UPD_STATUS_DONE = 1 ∧ u.rd Reg.SEC_UPD_STATUS_RESULT = o.result % 16 ∧
        (o.op = 1 → o.result = 0 → (1 - (s.fwType o.type).active) ∈ (u.fwType o.type).valid ∧
          bit (u.rd Reg.SEC_UPD_STATUS_STAGED) o.type = true) ∧
        (o.op ≠ 1 ∨ o.result ≠ 0 → u.boot = { s.boot with op := none }) ∧
        u.outbox = match o.from_ with
          | none => s.outbox
          | some m => s.outbox ++ [if o.result = 0 then replyOf m.path m.cmd m.inst 0 (if o.op = 1 then [0] else [])
              else replyOf m.path m.cmd m.inst 4 (leBytes 1 o.result)]) ∧
  ∀ s : State,
    ((s.fwType 0).inUse = none ∨ s.rd Reg.MGT_STATUS_PHASE < 4 → exec .standbyStart s = .next s) ∧
    (∀ b, (s.fwType 0).inUse = some b → 4 ≤ s.rd Reg.MGT_STATUS_PHASE →
      (∀ c, s.chooseBank 1 0 = some c → mDigest (s.bank_ 1 0 c) = mDigest (s.bank_ 0 0 b) →
        Completes .standbyStart s fun u => OnlyFields s u [Reg.MGT_STATUS_STBY_OK] ∧ u.rd Reg.MGT_STATUS_STBY_OK = 1) ∧
      ((∀ c, s.chooseBank 1 0 = some c → mDigest (s.bank_ 1 0 c) ≠ mDigest (s.bank_ 0 0 b)) →
        Completes .standbyStart s fun u =>
          u = { s with flds := u.flds, boot := u.boot } ∧ u.bank_ 1 0 b = s.bank_ 0 0 b ∧
            (s.imageResult 0 true (s.bank_ 0 0 b) = 0 → u.rd Reg.MGT_STATUS_STBY_OK = 1) ∧
            (s.imageResult 0 true (s.bank_ 0 0 b) ≠ 0 → u.rd Reg.MGT_STATUS_STBY_OK = s.rd Reg.MGT_STATUS_STBY_OK))) ∧
    (Completes .standbySignal s fun u => u = { s with boot := { s.boot with standbyTimer := s.boot.standbyTimer + 1 } }) ∧
    ∀ start facts,
      (start ≠ s.boot.standbyTimer → exec (.failover start facts) s = .next s) ∧
      (start = s.boot.standbyTimer → s.rd Reg.MGT_STATUS_STBY_OK ≠ 0 → Completes (.failover start facts) s fun u =>
        Records { s with
            boot := { s.boot with op := s.boot.op.map fun o => { o with from_ := none }, signing := [] }
            power := { s.power with coolant := { s.power.coolant with dem := ⟨100, 1⟩ } } } u .failover (source 2 0 2) []
          [Reg.MGT_STATUS_ACTIVE_MC, Reg.MGT_STATUS_STBY_OK, Reg.MGT_STATUS_FAILOVERS, Reg.THM_COOL_STATUS_DEMAND] ∧
        u.rd Reg.MGT_STATUS_ACTIVE_MC = 1 ∧ u.rd Reg.MGT_STATUS_STBY_OK = 0 ∧
        u.rd Reg.MGT_STATUS_FAILOVERS = satAdd 16 (s.rd Reg.MGT_STATUS_FAILOVERS) 1 ∧
        u.rd Reg.THM_COOL_STATUS_DEMAND = 1000)

/-- MCTP requests (R460 to R464). Rests on log entry 27's choices: that SET_ENDPOINT_ID stores the identifier, the free lay-out of
control responses, how many requests wait for a signature, and that the package serves the first of them when no command waits. -/
def Obligations.ManagementMessagesAreAnswered : Prop :=
  ∀ (s : State) (path : Fin 3) (inst : Fin 32) (eid : Byte) (data : List Byte) (served off : Nat),
    let shut := path ≠ 0 ∧ s.rd Reg.SEC_CFG_VDM_EN = 0
    let runs := s.rd Reg.MGT_STATUS_MODE = 1 ∨ s.rd Reg.MGT_STATUS_MODE = 2
    let none_ := served = 0 ∨ s.boot.signing = []
    let answered (u : State) : Prop := ∃ bs, u = { s with outbox := s.outbox ++ [.mctp path.val bs], fresh := s.fresh + 1 }
    (shut → ∀ i ∈ [Instr.setEndpointId path eid, .getEndpointId path, .getMctpVersionSupport path,
      .getMessageTypeSupport path, .getIdentity path inst, .getMeasurements path inst data 0, .getFwStatus path inst,
      .readReg path inst off], exec i s = .next s) ∧
    exec (.getMeasurements path inst data (served + 1)) s = exec (.getMeasurements path inst data served) s.serveSigning ∧
    (∀ m d rest, s.pending = [] → s.boot.signing = (m, d) :: rest → ∃ u, step s = .next u ∧
      let mask := fieldNat d 32 1
      ∃ nonce sig : List Byte, nonce.length = 32 ∧ sig.length = 49856 ∧
        u = { s with
          outbox := s.outbox ++ [replyOf m.path m.cmd m.inst 0 (d.take 32 ++ nonce ++ leBytes 8 s.boot.signatures ++
            leBytes 1 mask ++ leBytes 1 (s.rd Reg.MGT_STATUS_MODE) ++ List.replicate 6 0 ++
            ((List.range 7).filter fun i => bit mask i).flatMap (fun i => leBytes 1 i ++ [0, 0, 0] ++ s.measurement i) ++ sig)]
          boot := { s.boot with signatures := s.boot.signatures + 1, signing := rest }
          fresh := u.fresh }) ∧
    (¬shut →
      (Completes (.setEndpointId path eid) s fun u =>
        (∃ bs, u = { s with outbox := s.outbox ++ [.mctp path.val bs], fresh := s.fresh + 1
                            boot := { s.boot with eids := u.boot.eids } }) ∧
          (∀ k, Sparse.get 0 u.boot.eids k = if k = path.val then eid.toNat else Sparse.get 0 s.boot.eids k)) ∧
      Completes (.getEndpointId path) s answered ∧ Completes (.getMctpVersionSupport path) s answered ∧
      Completes (.getMessageTypeSupport path) s answered ∧
      (runs → Completes (.getIdentity path inst) s fun u =>
        Replied s u path.val 1 inst.val 0 (deviceCert ++ s.aliasCert) ∧ (deviceCert ++ s.aliasCert).length = 100224) ∧
      (¬runs →
        (Completes (.getIdentity path inst) s fun u => Replied s u path.val 1 inst.val 3 []) ∧
        (none_ → Completes (.getMeasurements path inst data served) s fun u => Replied s u path.val 2 inst.val 3 []) ∧
        Completes (.readReg path inst off) s fun u => Replied s u path.val 4 inst.val 3 []) ∧
      (runs → none_ → data.length ≠ 40 → Completes (.getMeasurements path inst data served) s fun u =>
        Replied s u path.val 2 inst.val 2 []) ∧
      (runs → none_ → data.length = 40 → 5 ≤ s.boot.signing.length → Completes (.getMeasurements path inst data served) s fun u =>
        Replied s u path.val 2 inst.val 1 []) ∧
      (runs → none_ → data.length = 40 → s.boot.signing.length < 5 → Completes (.getMeasurements path inst data served) s fun u =>
        u = { s with boot := { s.boot with signing := s.boot.signing ++ [(⟨path.val, 2, inst.val⟩, data)] } }) ∧
      (Completes (.getFwStatus path inst) s fun u => Replied s u path.val 3 inst.val 0
        ([0x501000, 0x501008, 0x501010, 0x501018, 0x501020, 0x501040].flatMap fun o => leBytes 8 (s.readReg 0 o 8).1)) ∧
      (runs → off % 8 ≠ 0 → Completes (.readReg path inst off) s fun u => Replied s u path.val 4 inst.val 2 []) ∧
      (runs → off % 8 = 0 → Completes (.readReg path inst off) s fun u =>
        Replied (s.readReg 0 off 8).2 u path.val 4 inst.val 0 (leBytes 8 (s.readReg 0 off 8).1)))

/-- Updates over MCTP (R454 to R458) and debug access (R465). What JTAG shifts out is free (log entry 27). -/
def Obligations.UpdateSessionsAndDebugAccess : Prop :=
  (∀ (s : State) (path : Fin 3) (inst : Fin 32) (type : Byte) (len off confirm : Nat) (data : List Byte) (writeOk : Bool),
    path = 0 ∨ s.rd Reg.SEC_CFG_VDM_EN = 1 →
    let k := type.toNat - 1
    let busy := s.rd Reg.SEC_UPD_STATUS_BUSY ≠ 0
    let named := 1 ≤ type.toNat ∧ type.toNat ≤ 3
    let m (cmd : Nat) : MctpFrom := ⟨path.val, cmd, inst.val⟩
    let reply (cmd st : Nat) (u : State) : Prop := Replied s u path.val cmd inst.val st []
    (s.rd Reg.SEC_CFG_BMC_UPD = 0 →
      Completes (.updBegin path inst type len) s (reply 0x10 3) ∧ Completes (.updData path inst off data) s (reply 0x11 3) ∧
        Completes (.updEnd path inst writeOk) s (reply 0x12 3) ∧ Completes (.updActivate path inst type) s (reply 0x13 3) ∧
        Completes (.updCommit path inst confirm) s (reply 0x14 3)) ∧
    (s.rd Reg.SEC_CFG_BMC_UPD = 1 →
      (busy → Completes (.updBegin path inst type len) s (reply 0x10 1) ∧
        Completes (.updActivate path inst type) s (reply 0x13 1) ∧
        (s.rd Reg.MGT_STATUS_MODE = 1 → Completes (.updCommit path inst confirm) s (reply 0x14 1))) ∧
      (¬busy → ¬named ∨ len = 0 ∨ bankSize k < len → Completes (.updBegin path inst type len) s (reply 0x10 2)) ∧
      (¬busy → named → 1 ≤ len → len ≤ bankSize k → Completes (.updBegin path inst type len) s fun u =>
        u = { s with flds := u.flds, boot := { s.boot with session := some { type := k, len := len } }
                     outbox := s.outbox ++ [replyOf path.val 0x10 inst.val 0 []] } ∧
          SameFields s u [Reg.SEC_UPD_STATUS_BUSY] ∧ u.rd Reg.SEC_UPD_STATUS_BUSY = 1) ∧
      (s.boot.session = none →
        Completes (.updData path inst off data) s (reply 0x11 (if s.rd Reg.SEC_UPD_STATUS_BUSY = 0 then 2 else 1)) ∧
          Completes (.updEnd path inst writeOk) s (reply 0x12 (if s.rd Reg.SEC_UPD_STATUS_BUSY = 0 then 2 else 1))) ∧
      (∀ x, s.boot.session = some x →
        (1024 < data.length ∨ x.len < off + data.length → Completes (.updData path inst off data) s (reply 0x11 2)) ∧
        (data.length ≤ 1024 → off + data.length ≤ x.len → Completes (.updData path inst off data) s fun u =>
          ∃ got, u = { s with boot := { s.boot with session := some { x with data := got } }
                              outbox := s.outbox ++ [replyOf path.val 0x11 inst.val 0 []] } ∧
            ∀ i, Sparse.get none got i = if off ≤ i ∧ i < off + data.length then data[i - off]? else Sparse.get none x.data i) ∧
        ∀ bs : List Byte, bs.length = x.len → (∀ i < x.len, Sparse.get none x.data i = bs[i]?) → (s.fwType x.type).active < 2 →
          x.type < 3 →
          let r := s.imageResult x.type true bs
          (r ≠ 0 → Completes (.updEnd path inst writeOk) s fun u =>
            u.boot.banks = s.boot.banks ∧ OpStarted u { op := 1, type := x.type, result := r, from_ := some (m 0x12) }) ∧
          (r = 0 → Completes (.updEnd path inst writeOk) s fun u =>
            Stored s u x.type bs ∧
              OpStarted u { op := 1, type := x.type, result := if writeOk then 0 else 8, from_ := some (m 0x12) })) ∧
      (¬busy → ¬named → Completes (.updActivate path inst type) s (reply 0x13 2)) ∧
      (¬busy → named →
        (bit (s.rd Reg.SEC_UPD_STATUS_STAGED) k = true → Completes (.updActivate path inst type) s fun u =>
          u.fwType k = { s.fwType k with pending := true } ∧ bit (u.rd Reg.SEC_UPD_STATUS_PENDING) k = true ∧
            OpStarted u { op := 2, type := k, result := 0, from_ := some (m 0x13) }) ∧
        (bit (s.rd Reg.SEC_UPD_STATUS_STAGED) k = false → Completes (.updActivate path inst type) s fun u =>
          u.boot.types = s.boot.types ∧ OpStarted u { op := 2, type := k, result := 9, from_ := some (m 0x13) })) ∧
      (s.rd Reg.MGT_STATUS_MODE ≠ 1 → Completes (.updCommit path inst confirm) s (reply 0x14 3)) ∧
      (¬busy → s.rd Reg.MGT_STATUS_MODE = 1 →
        let settled := ∀ j < 3, (s.fwType j).pending = false ∧ (s.fwType j).trial = false
        (confirm = 0xF05E → settled → Completes (.updCommit path inst confirm) s fun u =>
          Committed s u ∧ OpStarted u { op := 4, type := 0, result := 0, from_ := some (m 0x14) }) ∧
        (confirm ≠ 0xF05E ∨ ¬settled → Completes (.updCommit path inst confirm) s fun u =>
          u.boot.floors = s.boot.floors ∧ u.boot.revoked = s.boot.revoked ∧
            OpStarted u { op := 4, type := 0, result := if confirm = 0xF05E then 9 else 10, from_ := some (m 0x14) })))) ∧
  (∀ s : State,
    (s.boot.session = none → exec .updateSessionTimeout s = .next s) ∧
    ∀ x, s.boot.session = some x → Completes .updateSessionTimeout s fun u =>
      u = { s with flds := u.flds, boot := u.boot } ∧ u.boot.session = none ∧ u.rd Reg.SEC_UPD_STATUS_BUSY = 0 ∧
        u.fwType x.type = { s.fwType x.type with
          valid := (s.fwType x.type).valid.filter (· != 1 - (s.fwType x.type).active), pending := false }) ∧
  (∀ (s : State) (path : Fin 3) (inst : Fin 32) (token : List Byte), path = 0 ∨ s.rd Reg.SEC_CFG_VDM_EN = 1 →
    s.rd Reg.MGT_STATUS_MODE = 1 ∨ s.rd Reg.MGT_STATUS_MODE = 2 →
    let binds := token.length = 29836 ∧ fieldNat token 0 8 = Config.serial.toNat ∧
      s.boot.challenge = some ((token.drop 8).take 32)
    let good := s.keyOk (Config.tokenSlot token) (Config.tokenKey token)
    let signed := Config.slhVerify 0 (Config.tokenKey token) (token.take 44) (token.drop 44)
    let refused (why : Nat) (u : State) : Prop := Replied s u path.val 0x21 inst.val 4 [BitVec.ofNat 8 why]
    (Completes (.debugChallenge path inst) s fun u =>
      ∃ c : List Byte, c.length = 32 ∧ u = { s with boot := { s.boot with challenge := some c }, fresh := u.fresh
                                                    outbox := s.outbox ++ [replyOf path.val 0x20 inst.val 0 c] }) ∧
    (¬binds → Completes (.debugUnlock path inst token) s fun u => ∃ why, refused why u) ∧
    (binds → good = false → Completes (.debugUnlock path inst token) s (refused 2)) ∧
    (binds → good = true → signed = false → Completes (.debugUnlock path inst token) s (refused 3)) ∧
    (binds → good = true → signed = true → Completes (.debugUnlock path inst token) s fun u =>
      u.rd Reg.SEC_FUSE_DEBUG = 1 ∧ u.boot = { s.boot with scope := fieldNat token 40 4, measured := u.boot.measured } ∧
        u.measurement 5 = shake256 token 64 ∧ replyOf path.val 0x21 inst.val 0 [] ∈ u.outbox ∧
        Logs s u .debugUnlock (source 0 0 6) [])) ∧
  ∀ (s : State) (on : Bool),
    let shifted (u : State) : Prop := ∃ bs, u = { s with outbox := s.outbox ++ [.jtag bs], fresh := s.fresh + 1, tdo := true }
    let locked := s.rd Reg.SEC_FUSE_DEBUG = 0
    Completes (.jtagPortAccess .boundaryScan) s shifted ∧ Completes (.jtagPortAccess .idcode) s shifted ∧
      (locked → exec (.jtagPortAccess .dieRegister) s = .next s ∧ exec (.jtagPortAccess .scan) s = .next s ∧
        exec (.jtagPortAccess (.siltTest on)) s = .next s) ∧
      (¬locked → Completes (.jtagPortAccess .dieRegister) s shifted ∧ Completes (.jtagPortAccess .scan) s shifted ∧
        Completes (.jtagPortAccess (.siltTest on)) s fun u => u = { s with boot := { s.boot with siltTest := on } })

/-- The event recorder (R471 to R479, R510). Rests on log entry 24's choices: that the fraction of a second and the outcome of a
flush's writes come with a command, that a clear waits for the end of a flush in progress, and that a raised OLDEST goes to both
headers. -/
def Obligations.TheRecorderKeepsFlushesAndClears : Prop :=
  (∀ s : State,
    let s1 := s.wr Reg.EVR_LIFE_POWERED (satAdd 29 (s.rd Reg.EVR_LIFE_POWERED) 1)
    (s.recorder.closed = true ∨ s.recorder.suppressed = [] → Completes .secondBoundary s fun u =>
      u = { s1 with recorder := { s.recorder with fraction := 0 } }) ∧
    ∀ code n, s.recorder.suppressed = [(code, n)] → s.recorder.closed = false → Completes .secondBoundary s fun u =>
      OnlyLogged s u [Reg.EVR_LIFE_POWERED] ∧ u.rd Reg.EVR_LIFE_POWERED = satAdd 29 (s.rd Reg.EVR_LIFE_POWERED) 1 ∧
        Logs s1 u .suppressionSummary (source 0 0 2) [pv2 code, pv4 n, pv6 (Sparse.get 0 s.recorder.lastSeq code)] ∧
        (s.admits .suppressionSummary = true → Sparse.get 0 u.recorder.suppressed code = 0)) ∧
  (∀ (s : State) (code : Fin 65536),
    let b := Sparse.get 64 s.recorder.buckets code.val
    (s.rd Reg.EVR_CFG_BURST ≤ b → exec (.tokenArrival code) s = .next s) ∧
    (b < s.rd Reg.EVR_CFG_BURST → Completes (.tokenArrival code) s fun u =>
      u = { s with recorder := { s.recorder with buckets := u.recorder.buckets } } ∧
        ∀ k, Sparse.get 64 u.recorder.buckets k = if k = code.val then b + 1 else Sparse.get 64 s.recorder.buckets k)) ∧
  (∀ (s : State) (f : Fin 25000000),
    let head (a : RecorderArea) : RecorderArea :=
      { a with powered := s.rd Reg.EVR_LIFE_POWERED, cycles := s.rd Reg.EVR_LIFE_CYCLES, fraction := f.val }
    (s.recorder.closed = false → Completes (.headerWrite f) s fun u => u = { s with recorder := { s.recorder with
      fraction := f.val, areaA := head s.recorder.areaA, areaB := head s.recorder.areaB } }) ∧
    (s.recorder.closed = true → Completes (.headerWrite f) s fun u => u = { s with recorder := { s.recorder with fraction := f.val } }) ∧
    (s.rd Reg.EVR_STATUS_FLUSHING = 0 → ∀ okA okB, exec (.flushWrite okA okB f) s = .next s) ∧
    (∀ seq rest, s.rd Reg.EVR_STATUS_FLUSHING = 1 → s.recorder.unflushed = seq :: rest →
      (∀ r, Sparse.get none s.recorder.ring (seq % 65536) = some r → r.seq ≠ seq) →
      ∀ okA okB, Completes (.flushWrite okA okB f) s fun u =>
        u.recorder.unflushed = rest ∧ u.recorder.areaA.records = s.recorder.areaA.records ∧
          u.recorder.areaB.records = s.recorder.areaB.records) ∧
    ∀ seq rest r, s.rd Reg.EVR_STATUS_FLUSHING = 1 → s.recorder.unflushed = seq :: rest →
      Sparse.get none s.recorder.ring (seq % 65536) = some r → r.seq = seq →
      let slot := r.seq % 130944
      let oldest := max (s.rd Reg.EVR_OLDEST_OLDEST) (seq + 1 - 130944) % 2 ^ 48
      let raised := s.rd Reg.EVR_OLDEST_OLDEST < seq + 1 - 130944
      (∀ p, s.recorder.clearing = some p → s.recorder.closed = false → rest = [] → Completes (.flushWrite true true f) s fun u =>
        u.recorder.clearing = none ∧ u.rd Reg.EVR_CNT_LOST = 0 ∧
          u.rd Reg.EVR_OLDEST_OLDEST = s.rd Reg.EVR_STATUS_NEXT_SEQ % 2 ^ 48 ∧
          u.recorder.areaA.oldest = s.rd Reg.EVR_STATUS_NEXT_SEQ ∧ u.recorder.areaB.oldest = s.rd Reg.EVR_STATUS_NEXT_SEQ) ∧
      (s.recorder.clearing = none → Completes (.flushWrite true true f) s fun u =>
        u = { s with flds := u.flds, recorder := u.recorder } ∧
          SameFields s u [Reg.EVR_FLUSHED_FLUSHED, Reg.EVR_OLDEST_OLDEST, Reg.EVR_STATUS_FLUSHING] ∧
          Sparse.get none u.recorder.areaA.records slot = some r ∧ Sparse.get none u.recorder.areaB.records slot = some r ∧
          (∀ k, k ≠ slot → Sparse.get none u.recorder.areaA.records k = Sparse.get none s.recorder.areaA.records k ∧
            Sparse.get none u.recorder.areaB.records k = Sparse.get none s.recorder.areaB.records k) ∧
          u.recorder.unflushed = rest ∧ u.recorder.ring = s.recorder.ring ∧ u.rd Reg.EVR_OLDEST_OLDEST = oldest ∧
          u.recorder.areaA.oldest =
            (if raised ∧ s.recorder.closed = false then seq + 1 - 130944 else s.recorder.areaA.oldest) ∧
          u.recorder.areaB.oldest =
            (if raised ∧ s.recorder.closed = false then seq + 1 - 130944 else s.recorder.areaB.oldest) ∧
          u.rd Reg.EVR_FLUSHED_FLUSHED = (rest.head?).getD (s.rd Reg.EVR_STATUS_NEXT_SEQ) % 2 ^ 48 ∧
          (rest = [] → u.rd Reg.EVR_STATUS_FLUSHING = 0 ∧ u.recorder.areaA.powered = s.rd Reg.EVR_LIFE_POWERED ∧
            u.recorder.areaB.fraction = f.val) ∧
          (rest ≠ [] → u.rd Reg.EVR_STATUS_FLUSHING = 1)) ∧
      ∀ okA okB, (okA && okB) = false → Completes (.flushWrite okA okB f) s fun u =>
        u.rd Reg.EVR_STATUS_FLUSH_FAIL = 1 ∧ Logs s u .mramFlushFailure (source 0 0 2) [] ∧
          (okA = true → Sparse.get none u.recorder.areaA.records slot = some r ∧ u.recorder.areaB.records = s.recorder.areaB.records) ∧
          (okB = true → Sparse.get none u.recorder.areaB.records slot = some r ∧ u.recorder.areaA.records = s.recorder.areaA.records) ∧
          (okA = false → okB = false → u.recorder.unflushed.head? = some seq)) ∧
  (∀ s : State,
    let area (a : RecorderArea) : RecorderArea := { a with reserve := s.reserve + 1024 }
    (s.rd Reg.EVR_STATUS_NEXT_SEQ < s.reserve ∨ s.recorder.closed = true → exec .reserveRaise s = .next s) ∧
    (s.recorder.closed = false → s.reserve ≤ s.rd Reg.EVR_STATUS_NEXT_SEQ → s.recorder.waiting = [] → Completes .reserveRaise s fun u =>
      u = { s with recorder := { s.recorder with areaA := area s.recorder.areaA, areaB := area s.recorder.areaB } }) ∧
    ∀ w : WaitingEvent, s.recorder.closed = false → s.reserve = s.rd Reg.EVR_STATUS_NEXT_SEQ → s.reserve + 1 < 2 ^ 48 → s.recorder.waiting = [w] →
      Completes .reserveRaise s fun u =>
        u.recorder.areaA = area s.recorder.areaA ∧ u.recorder.areaB = area s.recorder.areaB ∧ u.recorder.waiting = [] ∧
          u.rd Reg.EVR_STATUS_NEXT_SEQ = s.reserve + 1 ∧ ∃ r, Sparse.get none u.recorder.ring (s.reserve % 65536) = some r ∧
            r.seq = s.reserve ∧ r.code = w.code ∧ r.sev = w.sev ∧ r.source = w.source ∧ r.payload = w.payload) ∧
  (∀ (s : State) (f : Fin 25000000) (oks : List (Bool × Bool)),
    let seq := s.rd Reg.EVR_STATUS_NEXT_SEQ
    let others := s.recorder.unflushed
    (s.recorder.closed = true → exec (.powerFail ⟨f, oks⟩) s = .next s) ∧
    (s.recorder.closed = false → seq < s.reserve → seq + 1 < 2 ^ 48 → Completes (.powerFail ⟨f, oks⟩) s fun u =>
      let r := s.recordOf .powerFail (source 0 0 2) [pv4 others.length, pv6 seq]
      u = { s with flds := u.flds, recorder := u.recorder, hosts := u.hosts, outbox := u.outbox, heldOut := u.heldOut
                   power := { s.power with stopped := true }, boot := { s.boot with op := none, session := none } } ∧
        u.recorder.closed = true ∧ Sparse.get none u.recorder.ring (seq % 65536) = some r ∧
        u.rd Reg.EVR_STATUS_NEXT_SEQ = seq + 1 ∧
        (oks = [] → u.recorder.unflushed = (others.drop 589).filter (· != seq)) ∧
        (∀ okA okB rest, oks = (okA, okB) :: rest → (okA && okB) = false → u.rd Reg.EVR_STATUS_FLUSH_FAIL = 1) ∧
        (others = [] → oks = [] → Sparse.get none u.recorder.areaA.records (seq % 130944) = some r ∧
          Sparse.get none u.recorder.areaB.records (seq % 130944) = some r) ∧
        u.recorder.areaA.powered = s.rd Reg.EVR_LIFE_POWERED ∧ u.recorder.areaB.fraction = f.val ∧
        u.rd Reg.EVR_STATUS_FLUSHING = 0 ∧ u.rd Reg.SEC_UPD_STATUS_BUSY = 0 ∧
        u.rd Reg.RST_CNT_PWRFAIL = satAdd 16 (s.rd Reg.RST_CNT_PWRFAIL) 1)) ∧
  (∀ (s : State) (p : Port) (tag : Nat) (part : RegPart), s.postedHolder p.val = none →
    let q := s.rd (Reg.EVR_CURSOR_SEQ p.val) + 7
    let cut (b : List Byte) : List Byte := match part with
      | .whole => b
      | .lower => b.take 4
      | .upper => b.drop 4
    let there := s.rd Reg.EVR_OLDEST_OLDEST ≤ q ∧ q < s.rd Reg.EVR_STATUS_NEXT_SEQ
    let read (b : List Byte) (u : State) : Prop :=
      u = { s with flds := u.flds, outbox := s.outbox ++ [.completion p.val tag ((cut b).map some) 0] } ∧
        SameFields s u [Reg.EVR_CURSOR_SEQ p.val] ∧
        u.rd (Reg.EVR_CURSOR_SEQ p.val) = if part ≠ .lower ∧ s.rd (Reg.EVR_CURSOR_AUTO p.val) = 1 then
          (s.rd (Reg.EVR_CURSOR_SEQ p.val) + 8) % 2 ^ 48 else s.rd (Reg.EVR_CURSOR_SEQ p.val)
    (s.rd (Reg.EVR_CURSOR_AUTO p.val) ≤ 1 → ¬there → Completes (.windowRead p tag part) s (read (List.replicate 8 0))) ∧
    ∀ r, s.rd (Reg.EVR_CURSOR_AUTO p.val) ≤ 1 → there → Sparse.get none s.recorder.ring (q % 65536) = some r → r.seq = q →
      Completes (.windowRead p tag part) s (read ((padBytes 16 r.payload).drop 8))) ∧
  ∀ (s : State) (acc : RegAccess), acc.part ≠ .upper → acc.value % 2 = 1 → s.postedHolder acc.port.val = none →
    let confirmed := acc.value / 65536 % 65536 = 0xC1EA
    (s.holds acc.port.val = false ∨ ¬confirmed → Completes (.clear acc) s fun u => Rejected s u acc.port 0x40038) ∧
    (s.holds acc.port.val = true → confirmed → s.rd Reg.EVR_STATUS_FLUSHING = 1 → Completes (.clear acc) s fun u =>
      u = { s with recorder := { s.recorder with clearing := some acc.port.val } }) ∧
    (s.holds acc.port.val = true → confirmed → s.rd Reg.EVR_STATUS_FLUSHING = 0 → s.recorder.closed = false → Completes (.clear acc) s fun u =>
      let next := s.rd Reg.EVR_STATUS_NEXT_SEQ
      u = { s with flds := u.flds, recorder := u.recorder, hosts := u.hosts, outbox := u.outbox, heldOut := u.heldOut } ∧
        SameFields s u (logFields ++ [Reg.EVR_OLDEST_OLDEST, Reg.EVR_CNT_LOST]) ∧ u.rd Reg.EVR_OLDEST_OLDEST = next % 2 ^ 48 ∧
        u.recorder.areaA.oldest = next ∧ u.recorder.areaB.oldest = next ∧ u.rd Reg.EVR_CNT_LOST = 0 ∧
        Logs s u .recorderCleared (source 0 0 2) [pv6 (s.rd Reg.EVR_OLDEST_OLDEST), pv1 acc.port.val] ∧
        (s.admits .recorderCleared = true → u.rd Reg.EVR_CNT_SUPPRESSED = 0 ∧ u.recorder.suppressed = []))
end

