-- ==== Sys2Proof/Laws/Sparse.lean ====
section
/-! SUPPORT. Sparse tables: what a write makes of every key, for any table; and the canonical form, which writes and
filters keep. -/

namespace Sys2Proof.Machine
variable {α : Type}

/-- Entries with small keys do not matter to a larger key. -/
theorem Sparse.get_dropWhile (d : α) (t : List (Nat × α)) {k q : Nat} (h : k < q) :
    Sparse.get d (t.dropWhile fun e => decide (e.1 ≤ k)) q = Sparse.get d t q := by
  induction t with
  | nil => rfl
  | cons e r ih =>
    by_cases hk : e.1 ≤ k
    · simp only [List.dropWhile_cons, hk, decide_true, if_true, ih]
      rw [Sparse.get.eq_def d (e :: r) q]; dsimp only
      rw [if_neg (by omega), if_neg (by omega)]
    · simp [hk]

/-- Nothing is listed at or below a key whose entries have been dropped. -/
theorem Sparse.get_below (d : α) (t : List (Nat × α)) {k q : Nat} (h : q ≤ k) :
    Sparse.get d (t.dropWhile fun e => decide (e.1 ≤ k)) q = d := by
  induction t with
  | nil => rfl
  | cons e r ih =>
    by_cases hk : e.1 ≤ k
    · simp only [List.dropWhile_cons, hk, decide_true, if_true, ih]
    · simp [hk, Sparse.get]; omega

/-- A write leaves every other key alone. -/
theorem Sparse.get_put_ne [DecidableEq α] (d d' : α) (t : List (Nat × α)) (k : Nat) (v : α) {q : Nat} (h : q ≠ k) :
    Sparse.get d' (Sparse.put d t k v) q = Sparse.get d' t q := by
  induction t with
  | nil =>
    simp only [Sparse.put]; split
    · rfl
    · simp only [Sparse.get]; split <;> simp [h]
  | cons e r ih =>
    obtain ⟨a, b⟩ := e
    simp only [Sparse.put]
    split
    · split
      · rfl
      · simp only [Sparse.get]; split <;> (try simp) ; omega
    · split
      · rename_i h1 h2; subst h2
        split
        · rcases Nat.lt_or_ge k q with hq | hq
          · rw [Sparse.get_dropWhile _ _ hq]; simp only [Sparse.get]; rw [if_neg (by omega), if_neg (by omega)]
          · rw [Sparse.get_below _ _ hq]; simp only [Sparse.get]; rw [if_pos (by omega)]
        · simp only [Sparse.get]; split <;> simp [h]
      · simp only [Sparse.get]; split
        · rfl
        · split
          · rfl
          · exact ih

/-- A read after a write of the same key gives the value written. -/
@[simp] theorem Sparse.get_put [DecidableEq α] (d : α) (t : List (Nat × α)) (k : Nat) (v : α) :
    Sparse.get d (Sparse.put d t k v) k = v := by
  induction t with
  | nil => simp only [Sparse.put]; split <;> simp_all [Sparse.get]
  | cons e r ih =>
    obtain ⟨a, b⟩ := e
    simp only [Sparse.put]
    split
    · split
      · simp_all [Sparse.get]
      · simp [Sparse.get]
    · split
      · rename_i h1 h2; subst h2
        split
        · rw [Sparse.get_below _ _ (Nat.le_refl _)]; simp_all
        · simp [Sparse.get]
      · simp only [Sparse.get]; rw [if_neg (by omega), if_neg (by omega)]; exact ih
/-- A larger bound is stronger. -/
theorem Sparse.wfFrom_mono [DecidableEq α] (d : α) (t : List (Nat × α)) {b c : Nat} (hb : b ≤ c)
    (h : Sparse.wfFrom d c t = true) : Sparse.wfFrom d b t = true := by
  cases t with
  | nil => rfl
  | cons e r =>
    simp only [Sparse.wfFrom, Bool.and_eq_true, decide_eq_true_eq] at h ⊢
    exact ⟨⟨Nat.le_trans hb h.1.1, h.1.2⟩, h.2⟩

theorem Sparse.wfFrom_dropWhile [DecidableEq α] (d : α) (p : Nat × α → Bool) (t : List (Nat × α)) {b : Nat}
    (h : Sparse.wfFrom d b t = true) : Sparse.wfFrom d b (t.dropWhile p) = true := by
  induction t generalizing b with
  | nil => rfl
  | cons e r ih =>
    rw [List.dropWhile_cons]
    split
    · simp only [Sparse.wfFrom, Bool.and_eq_true, decide_eq_true_eq] at h
      exact Sparse.wfFrom_mono d _ (by omega) (ih h.2)
    · exact h

theorem Sparse.wfFrom_filter [DecidableEq α] (d : α) (p : Nat × α → Bool) (t : List (Nat × α)) {b : Nat}
    (h : Sparse.wfFrom d b t = true) : Sparse.wfFrom d b (t.filter p) = true := by
  induction t generalizing b with
  | nil => rfl
  | cons e r ih =>
    simp only [Sparse.wfFrom, Bool.and_eq_true, decide_eq_true_eq] at h
    rw [List.filter_cons]
    split
    · simp only [Sparse.wfFrom, Bool.and_eq_true, decide_eq_true_eq]
      exact ⟨h.1, ih h.2⟩
    · exact Sparse.wfFrom_mono d _ (by omega) (ih h.2)

theorem Sparse.wfFrom_put [DecidableEq α] (d : α) (t : List (Nat × α)) (k : Nat) (v : α) {b : Nat} (hk : b ≤ k)
    (h : Sparse.wfFrom d b t = true) : Sparse.wfFrom d b (Sparse.put d t k v) = true := by
  induction t generalizing b with
  | nil => simp only [Sparse.put]; split <;> simp_all [Sparse.wfFrom]
  | cons e r ih =>
    obtain ⟨a, x⟩ := e
    have h' := h
    simp only [Sparse.wfFrom, Bool.and_eq_true, decide_eq_true_eq] at h
    simp only [Sparse.put]
    split
    · split
      · exact h'
      · simp only [Sparse.wfFrom, Bool.and_eq_true, decide_eq_true_eq]
        exact ⟨⟨hk, by simpa using ‹¬v = d›⟩, ⟨by omega, h.1.2⟩, h.2⟩
    · split
      · split
        · exact Sparse.wfFrom_mono d _ (by omega) (Sparse.wfFrom_dropWhile d _ r h.2)
        · rename_i h1 h2 h3; subst h2
          simp only [Sparse.wfFrom, Bool.and_eq_true, decide_eq_true_eq]
          exact ⟨⟨hk, by simpa using h3⟩, h.2⟩
      · simp only [Sparse.wfFrom, Bool.and_eq_true, decide_eq_true_eq]
        exact ⟨h.1, ih (by omega) h.2⟩

/-- A write keeps the canonical form. -/
theorem Sparse.wf_put [DecidableEq α] (d : α) (t : List (Nat × α)) (k : Nat) (v : α) (h : Sparse.wf d t = true) :
    Sparse.wf d (Sparse.put d t k v) = true := Sparse.wfFrom_put d t k v (Nat.zero_le _) h

/-- So does taking entries out. -/
theorem Sparse.wf_filter [DecidableEq α] (d : α) (p : Nat × α → Bool) (t : List (Nat × α)) (h : Sparse.wf d t = true) :
    Sparse.wf d (t.filter p) = true := Sparse.wfFrom_filter d p t h

/-- And so does a run of writes. -/
theorem Sparse.wf_foldl_put [DecidableEq α] {β : Type} (d : α) (f : β → Nat) (g : β → α) (l : List β)
    (t : List (Nat × α)) (h : Sparse.wf d t = true) :
    Sparse.wf d (l.foldl (fun m x => Sparse.put d m (f x) (g x)) t) = true := by
  induction l generalizing t with
  | nil => exact h
  | cons x r ih => exact ih _ (Sparse.wf_put d t _ _ h)

end Sys2Proof.Machine
end

