-- ==== Sys2Proof/Laws/State.lean ====
section
/-! SUPPORT. The plain updates of State, field by field, and reading back what was stored. -/

namespace Sys2Proof.Machine

/-! ### Register fields -/

/-- A field reads back what was written, cut to its width. -/
@[simp] theorem State.rd_wr (s : State) (f : Fld) (v : Nat) : (s.wr f v).rd f = v % 2 ^ f.width := Sparse.get_put ..

/-- A write of one field leaves every other field alone. -/
theorem State.rd_wr_ne (s : State) (f g : Fld) (v : Nat) (h : g.key ≠ f.key) : (s.wr f v).rd g = s.rd g :=
  Sparse.get_put_ne _ _ _ _ _ h

@[simp] theorem State.rdB_setB (s : State) (f : Fld) (h : 0 < f.width) : (s.setB f).rdB f = true := by
  have : 1 % 2 ^ f.width = 1 := Nat.mod_eq_of_lt (Nat.one_lt_two_pow (by omega))
  simp [State.setB, State.rdB, this]

@[simp] theorem State.rdB_clrB (s : State) (f : Fld) : (s.clrB f).rdB f = false := by
  simp [State.clrB, State.rdB]

/-! ### Indexed parts -/

@[simp] theorem State.tower_setTower (s : State) (n : Nat) (x : TowerSt) : (s.setTower n x).tower n = x := Sparse.get_put ..
theorem State.tower_setTower_ne (s : State) (n m : Nat) (x : TowerSt) (h : m ≠ n) : (s.setTower n x).tower m = s.tower m :=
  Sparse.get_put_ne _ _ _ _ _ h
@[simp] theorem State.tier_setTier (s : State) (n : Nat) (x : TierSt) : (s.setTier n x).tier n = x := Sparse.get_put ..
theorem State.tier_setTier_ne (s : State) (n m : Nat) (x : TierSt) (h : m ≠ n) : (s.setTier n x).tier m = s.tier m :=
  Sparse.get_put_ne _ _ _ _ _ h
@[simp] theorem State.host_setHost (s : State) (n : Nat) (x : HostPort) : (s.setHost n x).host n = x := Sparse.get_put ..
theorem State.host_setHost_ne (s : State) (n m : Nat) (x : HostPort) (h : m ≠ n) : (s.setHost n x).host m = s.host m :=
  Sparse.get_put_ne _ _ _ _ _ h
@[simp] theorem State.core_setCore (s : State) (n : Nat) (x : CoreSt) : (s.setCore n x).core n = x := Sparse.get_put ..
theorem State.core_setCore_ne (s : State) (n m : Nat) (x : CoreSt) (h : m ≠ n) : (s.setCore n x).core m = s.core m :=
  Sparse.get_put_ne _ _ _ _ _ h
@[simp] theorem State.crown_setCrown (s : State) (n : Nat) (x : CrownSt) : (s.setCrown n x).crown n = x := Sparse.get_put ..
theorem State.crown_setCrown_ne (s : State) (n m : Nat) (x : CrownSt) (h : m ≠ n) : (s.setCrown n x).crown m = s.crown m :=
  Sparse.get_put_ne _ _ _ _ _ h
@[simp] theorem State.page_setPage (s : State) (n : Nat) (x : Page) : (s.setPage n x).page n = x := Sparse.get_put ..
theorem State.page_setPage_ne (s : State) (n m : Nat) (x : Page) (h : m ≠ n) : (s.setPage n x).page m = s.page m :=
  Sparse.get_put_ne _ _ _ _ _ h
@[simp] theorem State.updUnit_setUpd (s : State) (n : Nat) (x : UpdSt) : (s.setUpd n x).updUnit n = x := Sparse.get_put ..
theorem State.updUnit_setUpd_ne (s : State) (n m : Nat) (x : UpdSt) (h : m ≠ n) : (s.setUpd n x).updUnit m = s.updUnit m :=
  Sparse.get_put_ne _ _ _ _ _ h
@[simp] theorem State.entry_setEntry (s : State) (n : Nat) (x : EntrySt) : (s.setEntry n x).entry n = x := Sparse.get_put ..
theorem State.entry_setEntry_ne (s : State) (n m : Nat) (x : EntrySt) (h : m ≠ n) : (s.setEntry n x).entry m = s.entry m :=
  Sparse.get_put_ne _ _ _ _ _ h

/-! ### wr changes `flds` alone -/

@[simp] theorem State.wr_latch (s : State) (f : Fld) (v : Nat) : (s.wr f v).latch = s.latch := rfl
@[simp] theorem State.wr_mem (s : State) (f : Fld) (v : Nat) : (s.wr f v).mem = s.mem := rfl
@[simp] theorem State.wr_poison (s : State) (f : Fld) (v : Nat) : (s.wr f v).poison = s.poison := rfl
@[simp] theorem State.wr_pages (s : State) (f : Fld) (v : Nat) : (s.wr f v).pages = s.pages := rfl
@[simp] theorem State.wr_towers (s : State) (f : Fld) (v : Nat) : (s.wr f v).towers = s.towers := rfl
@[simp] theorem State.wr_silt (s : State) (f : Fld) (v : Nat) : (s.wr f v).silt = s.silt := rfl
@[simp] theorem State.wr_siltTaken (s : State) (f : Fld) (v : Nat) : (s.wr f v).siltTaken = s.siltTaken := rfl
@[simp] theorem State.wr_bridgesFailed (s : State) (f : Fld) (v : Nat) : (s.wr f v).bridgesFailed = s.bridgesFailed := rfl
@[simp] theorem State.wr_held (s : State) (f : Fld) (v : Nat) : (s.wr f v).held = s.held := rfl
@[simp] theorem State.wr_tiers (s : State) (f : Fld) (v : Nat) : (s.wr f v).tiers = s.tiers := rfl
@[simp] theorem State.wr_telemetryInBrim (s : State) (f : Fld) (v : Nat) : (s.wr f v).telemetryInBrim = s.telemetryInBrim := rfl
@[simp] theorem State.wr_telemetry (s : State) (f : Fld) (v : Nat) : (s.wr f v).telemetry = s.telemetry := rfl
@[simp] theorem State.wr_recorder (s : State) (f : Fld) (v : Nat) : (s.wr f v).recorder = s.recorder := rfl
@[simp] theorem State.wr_hosts (s : State) (f : Fld) (v : Nat) : (s.wr f v).hosts = s.hosts := rfl
@[simp] theorem State.wr_cores (s : State) (f : Fld) (v : Nat) : (s.wr f v).cores = s.cores := rfl
@[simp] theorem State.wr_crowns (s : State) (f : Fld) (v : Nat) : (s.wr f v).crowns = s.crowns := rfl
@[simp] theorem State.wr_lstep (s : State) (f : Fld) (v : Nat) : (s.wr f v).lstep = s.lstep := rfl
@[simp] theorem State.wr_sync (s : State) (f : Fld) (v : Nat) : (s.wr f v).sync = s.sync := rfl
@[simp] theorem State.wr_units (s : State) (f : Fld) (v : Nat) : (s.wr f v).units = s.units := rfl
@[simp] theorem State.wr_urgents (s : State) (f : Fld) (v : Nat) : (s.wr f v).urgents = s.urgents := rfl
@[simp] theorem State.wr_barriers (s : State) (f : Fld) (v : Nat) : (s.wr f v).barriers = s.barriers := rfl
@[simp] theorem State.wr_syncInit (s : State) (f : Fld) (v : Nat) : (s.wr f v).syncInit = s.syncInit := rfl
@[simp] theorem State.wr_regions (s : State) (f : Fld) (v : Nat) : (s.wr f v).regions = s.regions := rfl
@[simp] theorem State.wr_roles (s : State) (f : Fld) (v : Nat) : (s.wr f v).roles = s.roles := rfl
@[simp] theorem State.wr_imageBase (s : State) (f : Fld) (v : Nat) : (s.wr f v).imageBase = s.imageBase := rfl
@[simp] theorem State.wr_stepQueue (s : State) (f : Fld) (v : Nat) : (s.wr f v).stepQueue = s.stepQueue := rfl
@[simp] theorem State.wr_step (s : State) (f : Fld) (v : Nat) : (s.wr f v).step = s.step := rfl
@[simp] theorem State.wr_urgentRuns (s : State) (f : Fld) (v : Nat) : (s.wr f v).urgentRuns = s.urgentRuns := rfl
@[simp] theorem State.wr_urgentHeld (s : State) (f : Fld) (v : Nat) : (s.wr f v).urgentHeld = s.urgentHeld := rfl
@[simp] theorem State.wr_barrierGens (s : State) (f : Fld) (v : Nat) : (s.wr f v).barrierGens = s.barrierGens := rfl
@[simp] theorem State.wr_remoteAdds (s : State) (f : Fld) (v : Nat) : (s.wr f v).remoteAdds = s.remoteAdds := rfl
@[simp] theorem State.wr_remoteSeen (s : State) (f : Fld) (v : Nat) : (s.wr f v).remoteSeen = s.remoteSeen := rfl
@[simp] theorem State.wr_fabric (s : State) (f : Fld) (v : Nat) : (s.wr f v).fabric = s.fabric := rfl
@[simp] theorem State.wr_upd (s : State) (f : Fld) (v : Nat) : (s.wr f v).upd = s.upd := rfl
@[simp] theorem State.wr_power (s : State) (f : Fld) (v : Nat) : (s.wr f v).power = s.power := rfl
@[simp] theorem State.wr_boot (s : State) (f : Fld) (v : Nat) : (s.wr f v).boot = s.boot := rfl
@[simp] theorem State.wr_refLost (s : State) (f : Fld) (v : Nat) : (s.wr f v).refLost = s.refLost := rfl
@[simp] theorem State.wr_entries (s : State) (f : Fld) (v : Nat) : (s.wr f v).entries = s.entries := rfl
@[simp] theorem State.wr_lastStepPort (s : State) (f : Fld) (v : Nat) : (s.wr f v).lastStepPort = s.lastStepPort := rfl
@[simp] theorem State.wr_tokenTimer (s : State) (f : Fld) (v : Nat) : (s.wr f v).tokenTimer = s.tokenTimer := rfl
@[simp] theorem State.wr_nextOp (s : State) (f : Fld) (v : Nat) : (s.wr f v).nextOp = s.nextOp := rfl
@[simp] theorem State.wr_outbox (s : State) (f : Fld) (v : Nat) : (s.wr f v).outbox = s.outbox := rfl
@[simp] theorem State.wr_heldOut (s : State) (f : Fld) (v : Nat) : (s.wr f v).heldOut = s.heldOut := rfl
@[simp] theorem State.wr_fresh (s : State) (f : Fld) (v : Nat) : (s.wr f v).fresh = s.fresh := rfl
@[simp] theorem State.wr_pending (s : State) (f : Fld) (v : Nat) : (s.wr f v).pending = s.pending := rfl
@[simp] theorem State.wr_upsets (s : State) (f : Fld) (v : Nat) : (s.wr f v).upsets = s.upsets := rfl
@[simp] theorem State.wr_standby (s : State) (f : Fld) (v : Nat) : (s.wr f v).standby = s.standby := rfl
@[simp] theorem State.wr_tdo (s : State) (f : Fld) (v : Nat) : (s.wr f v).tdo = s.tdo := rfl

/-! ### setTower changes `towers` alone -/

@[simp] theorem State.setTower_flds (s : State) (n : Nat) (x : TowerSt) : (s.setTower n x).flds = s.flds := rfl
@[simp] theorem State.setTower_latch (s : State) (n : Nat) (x : TowerSt) : (s.setTower n x).latch = s.latch := rfl
@[simp] theorem State.setTower_mem (s : State) (n : Nat) (x : TowerSt) : (s.setTower n x).mem = s.mem := rfl
@[simp] theorem State.setTower_poison (s : State) (n : Nat) (x : TowerSt) : (s.setTower n x).poison = s.poison := rfl
@[simp] theorem State.setTower_pages (s : State) (n : Nat) (x : TowerSt) : (s.setTower n x).pages = s.pages := rfl
@[simp] theorem State.setTower_silt (s : State) (n : Nat) (x : TowerSt) : (s.setTower n x).silt = s.silt := rfl
@[simp] theorem State.setTower_siltTaken (s : State) (n : Nat) (x : TowerSt) : (s.setTower n x).siltTaken = s.siltTaken := rfl
@[simp] theorem State.setTower_bridgesFailed (s : State) (n : Nat) (x : TowerSt) : (s.setTower n x).bridgesFailed = s.bridgesFailed := rfl
@[simp] theorem State.setTower_held (s : State) (n : Nat) (x : TowerSt) : (s.setTower n x).held = s.held := rfl
@[simp] theorem State.setTower_tiers (s : State) (n : Nat) (x : TowerSt) : (s.setTower n x).tiers = s.tiers := rfl
@[simp] theorem State.setTower_telemetryInBrim (s : State) (n : Nat) (x : TowerSt) : (s.setTower n x).telemetryInBrim = s.telemetryInBrim := rfl
@[simp] theorem State.setTower_telemetry (s : State) (n : Nat) (x : TowerSt) : (s.setTower n x).telemetry = s.telemetry := rfl
@[simp] theorem State.setTower_recorder (s : State) (n : Nat) (x : TowerSt) : (s.setTower n x).recorder = s.recorder := rfl
@[simp] theorem State.setTower_hosts (s : State) (n : Nat) (x : TowerSt) : (s.setTower n x).hosts = s.hosts := rfl
@[simp] theorem State.setTower_cores (s : State) (n : Nat) (x : TowerSt) : (s.setTower n x).cores = s.cores := rfl
@[simp] theorem State.setTower_crowns (s : State) (n : Nat) (x : TowerSt) : (s.setTower n x).crowns = s.crowns := rfl
@[simp] theorem State.setTower_lstep (s : State) (n : Nat) (x : TowerSt) : (s.setTower n x).lstep = s.lstep := rfl
@[simp] theorem State.setTower_sync (s : State) (n : Nat) (x : TowerSt) : (s.setTower n x).sync = s.sync := rfl
@[simp] theorem State.setTower_units (s : State) (n : Nat) (x : TowerSt) : (s.setTower n x).units = s.units := rfl
@[simp] theorem State.setTower_urgents (s : State) (n : Nat) (x : TowerSt) : (s.setTower n x).urgents = s.urgents := rfl
@[simp] theorem State.setTower_barriers (s : State) (n : Nat) (x : TowerSt) : (s.setTower n x).barriers = s.barriers := rfl
@[simp] theorem State.setTower_syncInit (s : State) (n : Nat) (x : TowerSt) : (s.setTower n x).syncInit = s.syncInit := rfl
@[simp] theorem State.setTower_regions (s : State) (n : Nat) (x : TowerSt) : (s.setTower n x).regions = s.regions := rfl
@[simp] theorem State.setTower_roles (s : State) (n : Nat) (x : TowerSt) : (s.setTower n x).roles = s.roles := rfl
@[simp] theorem State.setTower_imageBase (s : State) (n : Nat) (x : TowerSt) : (s.setTower n x).imageBase = s.imageBase := rfl
@[simp] theorem State.setTower_stepQueue (s : State) (n : Nat) (x : TowerSt) : (s.setTower n x).stepQueue = s.stepQueue := rfl
@[simp] theorem State.setTower_step (s : State) (n : Nat) (x : TowerSt) : (s.setTower n x).step = s.step := rfl
@[simp] theorem State.setTower_urgentRuns (s : State) (n : Nat) (x : TowerSt) : (s.setTower n x).urgentRuns = s.urgentRuns := rfl
@[simp] theorem State.setTower_urgentHeld (s : State) (n : Nat) (x : TowerSt) : (s.setTower n x).urgentHeld = s.urgentHeld := rfl
@[simp] theorem State.setTower_barrierGens (s : State) (n : Nat) (x : TowerSt) : (s.setTower n x).barrierGens = s.barrierGens := rfl
@[simp] theorem State.setTower_remoteAdds (s : State) (n : Nat) (x : TowerSt) : (s.setTower n x).remoteAdds = s.remoteAdds := rfl
@[simp] theorem State.setTower_remoteSeen (s : State) (n : Nat) (x : TowerSt) : (s.setTower n x).remoteSeen = s.remoteSeen := rfl
@[simp] theorem State.setTower_fabric (s : State) (n : Nat) (x : TowerSt) : (s.setTower n x).fabric = s.fabric := rfl
@[simp] theorem State.setTower_upd (s : State) (n : Nat) (x : TowerSt) : (s.setTower n x).upd = s.upd := rfl
@[simp] theorem State.setTower_power (s : State) (n : Nat) (x : TowerSt) : (s.setTower n x).power = s.power := rfl
@[simp] theorem State.setTower_boot (s : State) (n : Nat) (x : TowerSt) : (s.setTower n x).boot = s.boot := rfl
@[simp] theorem State.setTower_refLost (s : State) (n : Nat) (x : TowerSt) : (s.setTower n x).refLost = s.refLost := rfl
@[simp] theorem State.setTower_entries (s : State) (n : Nat) (x : TowerSt) : (s.setTower n x).entries = s.entries := rfl
@[simp] theorem State.setTower_lastStepPort (s : State) (n : Nat) (x : TowerSt) : (s.setTower n x).lastStepPort = s.lastStepPort := rfl
@[simp] theorem State.setTower_tokenTimer (s : State) (n : Nat) (x : TowerSt) : (s.setTower n x).tokenTimer = s.tokenTimer := rfl
@[simp] theorem State.setTower_nextOp (s : State) (n : Nat) (x : TowerSt) : (s.setTower n x).nextOp = s.nextOp := rfl
@[simp] theorem State.setTower_outbox (s : State) (n : Nat) (x : TowerSt) : (s.setTower n x).outbox = s.outbox := rfl
@[simp] theorem State.setTower_heldOut (s : State) (n : Nat) (x : TowerSt) : (s.setTower n x).heldOut = s.heldOut := rfl
@[simp] theorem State.setTower_fresh (s : State) (n : Nat) (x : TowerSt) : (s.setTower n x).fresh = s.fresh := rfl
@[simp] theorem State.setTower_pending (s : State) (n : Nat) (x : TowerSt) : (s.setTower n x).pending = s.pending := rfl
@[simp] theorem State.setTower_upsets (s : State) (n : Nat) (x : TowerSt) : (s.setTower n x).upsets = s.upsets := rfl
@[simp] theorem State.setTower_standby (s : State) (n : Nat) (x : TowerSt) : (s.setTower n x).standby = s.standby := rfl
@[simp] theorem State.setTower_tdo (s : State) (n : Nat) (x : TowerSt) : (s.setTower n x).tdo = s.tdo := rfl

/-! ### setTier changes `tiers` alone -/

@[simp] theorem State.setTier_flds (s : State) (n : Nat) (x : TierSt) : (s.setTier n x).flds = s.flds := rfl
@[simp] theorem State.setTier_latch (s : State) (n : Nat) (x : TierSt) : (s.setTier n x).latch = s.latch := rfl
@[simp] theorem State.setTier_mem (s : State) (n : Nat) (x : TierSt) : (s.setTier n x).mem = s.mem := rfl
@[simp] theorem State.setTier_poison (s : State) (n : Nat) (x : TierSt) : (s.setTier n x).poison = s.poison := rfl
@[simp] theorem State.setTier_pages (s : State) (n : Nat) (x : TierSt) : (s.setTier n x).pages = s.pages := rfl
@[simp] theorem State.setTier_towers (s : State) (n : Nat) (x : TierSt) : (s.setTier n x).towers = s.towers := rfl
@[simp] theorem State.setTier_silt (s : State) (n : Nat) (x : TierSt) : (s.setTier n x).silt = s.silt := rfl
@[simp] theorem State.setTier_siltTaken (s : State) (n : Nat) (x : TierSt) : (s.setTier n x).siltTaken = s.siltTaken := rfl
@[simp] theorem State.setTier_bridgesFailed (s : State) (n : Nat) (x : TierSt) : (s.setTier n x).bridgesFailed = s.bridgesFailed := rfl
@[simp] theorem State.setTier_held (s : State) (n : Nat) (x : TierSt) : (s.setTier n x).held = s.held := rfl
@[simp] theorem State.setTier_telemetryInBrim (s : State) (n : Nat) (x : TierSt) : (s.setTier n x).telemetryInBrim = s.telemetryInBrim := rfl
@[simp] theorem State.setTier_telemetry (s : State) (n : Nat) (x : TierSt) : (s.setTier n x).telemetry = s.telemetry := rfl
@[simp] theorem State.setTier_recorder (s : State) (n : Nat) (x : TierSt) : (s.setTier n x).recorder = s.recorder := rfl
@[simp] theorem State.setTier_hosts (s : State) (n : Nat) (x : TierSt) : (s.setTier n x).hosts = s.hosts := rfl
@[simp] theorem State.setTier_cores (s : State) (n : Nat) (x : TierSt) : (s.setTier n x).cores = s.cores := rfl
@[simp] theorem State.setTier_crowns (s : State) (n : Nat) (x : TierSt) : (s.setTier n x).crowns = s.crowns := rfl
@[simp] theorem State.setTier_lstep (s : State) (n : Nat) (x : TierSt) : (s.setTier n x).lstep = s.lstep := rfl
@[simp] theorem State.setTier_sync (s : State) (n : Nat) (x : TierSt) : (s.setTier n x).sync = s.sync := rfl
@[simp] theorem State.setTier_units (s : State) (n : Nat) (x : TierSt) : (s.setTier n x).units = s.units := rfl
@[simp] theorem State.setTier_urgents (s : State) (n : Nat) (x : TierSt) : (s.setTier n x).urgents = s.urgents := rfl
@[simp] theorem State.setTier_barriers (s : State) (n : Nat) (x : TierSt) : (s.setTier n x).barriers = s.barriers := rfl
@[simp] theorem State.setTier_syncInit (s : State) (n : Nat) (x : TierSt) : (s.setTier n x).syncInit = s.syncInit := rfl
@[simp] theorem State.setTier_regions (s : State) (n : Nat) (x : TierSt) : (s.setTier n x).regions = s.regions := rfl
@[simp] theorem State.setTier_roles (s : State) (n : Nat) (x : TierSt) : (s.setTier n x).roles = s.roles := rfl
@[simp] theorem State.setTier_imageBase (s : State) (n : Nat) (x : TierSt) : (s.setTier n x).imageBase = s.imageBase := rfl
@[simp] theorem State.setTier_stepQueue (s : State) (n : Nat) (x : TierSt) : (s.setTier n x).stepQueue = s.stepQueue := rfl
@[simp] theorem State.setTier_step (s : State) (n : Nat) (x : TierSt) : (s.setTier n x).step = s.step := rfl
@[simp] theorem State.setTier_urgentRuns (s : State) (n : Nat) (x : TierSt) : (s.setTier n x).urgentRuns = s.urgentRuns := rfl
@[simp] theorem State.setTier_urgentHeld (s : State) (n : Nat) (x : TierSt) : (s.setTier n x).urgentHeld = s.urgentHeld := rfl
@[simp] theorem State.setTier_barrierGens (s : State) (n : Nat) (x : TierSt) : (s.setTier n x).barrierGens = s.barrierGens := rfl
@[simp] theorem State.setTier_remoteAdds (s : State) (n : Nat) (x : TierSt) : (s.setTier n x).remoteAdds = s.remoteAdds := rfl
@[simp] theorem State.setTier_remoteSeen (s : State) (n : Nat) (x : TierSt) : (s.setTier n x).remoteSeen = s.remoteSeen := rfl
@[simp] theorem State.setTier_fabric (s : State) (n : Nat) (x : TierSt) : (s.setTier n x).fabric = s.fabric := rfl
@[simp] theorem State.setTier_upd (s : State) (n : Nat) (x : TierSt) : (s.setTier n x).upd = s.upd := rfl
@[simp] theorem State.setTier_power (s : State) (n : Nat) (x : TierSt) : (s.setTier n x).power = s.power := rfl
@[simp] theorem State.setTier_boot (s : State) (n : Nat) (x : TierSt) : (s.setTier n x).boot = s.boot := rfl
@[simp] theorem State.setTier_refLost (s : State) (n : Nat) (x : TierSt) : (s.setTier n x).refLost = s.refLost := rfl
@[simp] theorem State.setTier_entries (s : State) (n : Nat) (x : TierSt) : (s.setTier n x).entries = s.entries := rfl
@[simp] theorem State.setTier_lastStepPort (s : State) (n : Nat) (x : TierSt) : (s.setTier n x).lastStepPort = s.lastStepPort := rfl
@[simp] theorem State.setTier_tokenTimer (s : State) (n : Nat) (x : TierSt) : (s.setTier n x).tokenTimer = s.tokenTimer := rfl
@[simp] theorem State.setTier_nextOp (s : State) (n : Nat) (x : TierSt) : (s.setTier n x).nextOp = s.nextOp := rfl
@[simp] theorem State.setTier_outbox (s : State) (n : Nat) (x : TierSt) : (s.setTier n x).outbox = s.outbox := rfl
@[simp] theorem State.setTier_heldOut (s : State) (n : Nat) (x : TierSt) : (s.setTier n x).heldOut = s.heldOut := rfl
@[simp] theorem State.setTier_fresh (s : State) (n : Nat) (x : TierSt) : (s.setTier n x).fresh = s.fresh := rfl
@[simp] theorem State.setTier_pending (s : State) (n : Nat) (x : TierSt) : (s.setTier n x).pending = s.pending := rfl
@[simp] theorem State.setTier_upsets (s : State) (n : Nat) (x : TierSt) : (s.setTier n x).upsets = s.upsets := rfl
@[simp] theorem State.setTier_standby (s : State) (n : Nat) (x : TierSt) : (s.setTier n x).standby = s.standby := rfl
@[simp] theorem State.setTier_tdo (s : State) (n : Nat) (x : TierSt) : (s.setTier n x).tdo = s.tdo := rfl

/-! ### setHost changes `hosts` alone -/

@[simp] theorem State.setHost_flds (s : State) (n : Nat) (x : HostPort) : (s.setHost n x).flds = s.flds := rfl
@[simp] theorem State.setHost_latch (s : State) (n : Nat) (x : HostPort) : (s.setHost n x).latch = s.latch := rfl
@[simp] theorem State.setHost_mem (s : State) (n : Nat) (x : HostPort) : (s.setHost n x).mem = s.mem := rfl
@[simp] theorem State.setHost_poison (s : State) (n : Nat) (x : HostPort) : (s.setHost n x).poison = s.poison := rfl
@[simp] theorem State.setHost_pages (s : State) (n : Nat) (x : HostPort) : (s.setHost n x).pages = s.pages := rfl
@[simp] theorem State.setHost_towers (s : State) (n : Nat) (x : HostPort) : (s.setHost n x).towers = s.towers := rfl
@[simp] theorem State.setHost_silt (s : State) (n : Nat) (x : HostPort) : (s.setHost n x).silt = s.silt := rfl
@[simp] theorem State.setHost_siltTaken (s : State) (n : Nat) (x : HostPort) : (s.setHost n x).siltTaken = s.siltTaken := rfl
@[simp] theorem State.setHost_bridgesFailed (s : State) (n : Nat) (x : HostPort) : (s.setHost n x).bridgesFailed = s.bridgesFailed := rfl
@[simp] theorem State.setHost_held (s : State) (n : Nat) (x : HostPort) : (s.setHost n x).held = s.held := rfl
@[simp] theorem State.setHost_tiers (s : State) (n : Nat) (x : HostPort) : (s.setHost n x).tiers = s.tiers := rfl
@[simp] theorem State.setHost_telemetryInBrim (s : State) (n : Nat) (x : HostPort) : (s.setHost n x).telemetryInBrim = s.telemetryInBrim := rfl
@[simp] theorem State.setHost_telemetry (s : State) (n : Nat) (x : HostPort) : (s.setHost n x).telemetry = s.telemetry := rfl
@[simp] theorem State.setHost_recorder (s : State) (n : Nat) (x : HostPort) : (s.setHost n x).recorder = s.recorder := rfl
@[simp] theorem State.setHost_cores (s : State) (n : Nat) (x : HostPort) : (s.setHost n x).cores = s.cores := rfl
@[simp] theorem State.setHost_crowns (s : State) (n : Nat) (x : HostPort) : (s.setHost n x).crowns = s.crowns := rfl
@[simp] theorem State.setHost_lstep (s : State) (n : Nat) (x : HostPort) : (s.setHost n x).lstep = s.lstep := rfl
@[simp] theorem State.setHost_sync (s : State) (n : Nat) (x : HostPort) : (s.setHost n x).sync = s.sync := rfl
@[simp] theorem State.setHost_units (s : State) (n : Nat) (x : HostPort) : (s.setHost n x).units = s.units := rfl
@[simp] theorem State.setHost_urgents (s : State) (n : Nat) (x : HostPort) : (s.setHost n x).urgents = s.urgents := rfl
@[simp] theorem State.setHost_barriers (s : State) (n : Nat) (x : HostPort) : (s.setHost n x).barriers = s.barriers := rfl
@[simp] theorem State.setHost_syncInit (s : State) (n : Nat) (x : HostPort) : (s.setHost n x).syncInit = s.syncInit := rfl
@[simp] theorem State.setHost_regions (s : State) (n : Nat) (x : HostPort) : (s.setHost n x).regions = s.regions := rfl
@[simp] theorem State.setHost_roles (s : State) (n : Nat) (x : HostPort) : (s.setHost n x).roles = s.roles := rfl
@[simp] theorem State.setHost_imageBase (s : State) (n : Nat) (x : HostPort) : (s.setHost n x).imageBase = s.imageBase := rfl
@[simp] theorem State.setHost_stepQueue (s : State) (n : Nat) (x : HostPort) : (s.setHost n x).stepQueue = s.stepQueue := rfl
@[simp] theorem State.setHost_step (s : State) (n : Nat) (x : HostPort) : (s.setHost n x).step = s.step := rfl
@[simp] theorem State.setHost_urgentRuns (s : State) (n : Nat) (x : HostPort) : (s.setHost n x).urgentRuns = s.urgentRuns := rfl
@[simp] theorem State.setHost_urgentHeld (s : State) (n : Nat) (x : HostPort) : (s.setHost n x).urgentHeld = s.urgentHeld := rfl
@[simp] theorem State.setHost_barrierGens (s : State) (n : Nat) (x : HostPort) : (s.setHost n x).barrierGens = s.barrierGens := rfl
@[simp] theorem State.setHost_remoteAdds (s : State) (n : Nat) (x : HostPort) : (s.setHost n x).remoteAdds = s.remoteAdds := rfl
@[simp] theorem State.setHost_remoteSeen (s : State) (n : Nat) (x : HostPort) : (s.setHost n x).remoteSeen = s.remoteSeen := rfl
@[simp] theorem State.setHost_fabric (s : State) (n : Nat) (x : HostPort) : (s.setHost n x).fabric = s.fabric := rfl
@[simp] theorem State.setHost_upd (s : State) (n : Nat) (x : HostPort) : (s.setHost n x).upd = s.upd := rfl
@[simp] theorem State.setHost_power (s : State) (n : Nat) (x : HostPort) : (s.setHost n x).power = s.power := rfl
@[simp] theorem State.setHost_boot (s : State) (n : Nat) (x : HostPort) : (s.setHost n x).boot = s.boot := rfl
@[simp] theorem State.setHost_refLost (s : State) (n : Nat) (x : HostPort) : (s.setHost n x).refLost = s.refLost := rfl
@[simp] theorem State.setHost_entries (s : State) (n : Nat) (x : HostPort) : (s.setHost n x).entries = s.entries := rfl
@[simp] theorem State.setHost_lastStepPort (s : State) (n : Nat) (x : HostPort) : (s.setHost n x).lastStepPort = s.lastStepPort := rfl
@[simp] theorem State.setHost_tokenTimer (s : State) (n : Nat) (x : HostPort) : (s.setHost n x).tokenTimer = s.tokenTimer := rfl
@[simp] theorem State.setHost_nextOp (s : State) (n : Nat) (x : HostPort) : (s.setHost n x).nextOp = s.nextOp := rfl
@[simp] theorem State.setHost_outbox (s : State) (n : Nat) (x : HostPort) : (s.setHost n x).outbox = s.outbox := rfl
@[simp] theorem State.setHost_heldOut (s : State) (n : Nat) (x : HostPort) : (s.setHost n x).heldOut = s.heldOut := rfl
@[simp] theorem State.setHost_fresh (s : State) (n : Nat) (x : HostPort) : (s.setHost n x).fresh = s.fresh := rfl
@[simp] theorem State.setHost_pending (s : State) (n : Nat) (x : HostPort) : (s.setHost n x).pending = s.pending := rfl
@[simp] theorem State.setHost_upsets (s : State) (n : Nat) (x : HostPort) : (s.setHost n x).upsets = s.upsets := rfl
@[simp] theorem State.setHost_standby (s : State) (n : Nat) (x : HostPort) : (s.setHost n x).standby = s.standby := rfl
@[simp] theorem State.setHost_tdo (s : State) (n : Nat) (x : HostPort) : (s.setHost n x).tdo = s.tdo := rfl

/-! ### setCore changes `cores` alone -/

@[simp] theorem State.setCore_flds (s : State) (n : Nat) (x : CoreSt) : (s.setCore n x).flds = s.flds := rfl
@[simp] theorem State.setCore_latch (s : State) (n : Nat) (x : CoreSt) : (s.setCore n x).latch = s.latch := rfl
@[simp] theorem State.setCore_mem (s : State) (n : Nat) (x : CoreSt) : (s.setCore n x).mem = s.mem := rfl
@[simp] theorem State.setCore_poison (s : State) (n : Nat) (x : CoreSt) : (s.setCore n x).poison = s.poison := rfl
@[simp] theorem State.setCore_pages (s : State) (n : Nat) (x : CoreSt) : (s.setCore n x).pages = s.pages := rfl
@[simp] theorem State.setCore_towers (s : State) (n : Nat) (x : CoreSt) : (s.setCore n x).towers = s.towers := rfl
@[simp] theorem State.setCore_silt (s : State) (n : Nat) (x : CoreSt) : (s.setCore n x).silt = s.silt := rfl
@[simp] theorem State.setCore_siltTaken (s : State) (n : Nat) (x : CoreSt) : (s.setCore n x).siltTaken = s.siltTaken := rfl
@[simp] theorem State.setCore_bridgesFailed (s : State) (n : Nat) (x : CoreSt) : (s.setCore n x).bridgesFailed = s.bridgesFailed := rfl
@[simp] theorem State.setCore_held (s : State) (n : Nat) (x : CoreSt) : (s.setCore n x).held = s.held := rfl
@[simp] theorem State.setCore_tiers (s : State) (n : Nat) (x : CoreSt) : (s.setCore n x).tiers = s.tiers := rfl
@[simp] theorem State.setCore_telemetryInBrim (s : State) (n : Nat) (x : CoreSt) : (s.setCore n x).telemetryInBrim = s.telemetryInBrim := rfl
@[simp] theorem State.setCore_telemetry (s : State) (n : Nat) (x : CoreSt) : (s.setCore n x).telemetry = s.telemetry := rfl
@[simp] theorem State.setCore_recorder (s : State) (n : Nat) (x : CoreSt) : (s.setCore n x).recorder = s.recorder := rfl
@[simp] theorem State.setCore_hosts (s : State) (n : Nat) (x : CoreSt) : (s.setCore n x).hosts = s.hosts := rfl
@[simp] theorem State.setCore_crowns (s : State) (n : Nat) (x : CoreSt) : (s.setCore n x).crowns = s.crowns := rfl
@[simp] theorem State.setCore_lstep (s : State) (n : Nat) (x : CoreSt) : (s.setCore n x).lstep = s.lstep := rfl
@[simp] theorem State.setCore_sync (s : State) (n : Nat) (x : CoreSt) : (s.setCore n x).sync = s.sync := rfl
@[simp] theorem State.setCore_units (s : State) (n : Nat) (x : CoreSt) : (s.setCore n x).units = s.units := rfl
@[simp] theorem State.setCore_urgents (s : State) (n : Nat) (x : CoreSt) : (s.setCore n x).urgents = s.urgents := rfl
@[simp] theorem State.setCore_barriers (s : State) (n : Nat) (x : CoreSt) : (s.setCore n x).barriers = s.barriers := rfl
@[simp] theorem State.setCore_syncInit (s : State) (n : Nat) (x : CoreSt) : (s.setCore n x).syncInit = s.syncInit := rfl
@[simp] theorem State.setCore_regions (s : State) (n : Nat) (x : CoreSt) : (s.setCore n x).regions = s.regions := rfl
@[simp] theorem State.setCore_roles (s : State) (n : Nat) (x : CoreSt) : (s.setCore n x).roles = s.roles := rfl
@[simp] theorem State.setCore_imageBase (s : State) (n : Nat) (x : CoreSt) : (s.setCore n x).imageBase = s.imageBase := rfl
@[simp] theorem State.setCore_stepQueue (s : State) (n : Nat) (x : CoreSt) : (s.setCore n x).stepQueue = s.stepQueue := rfl
@[simp] theorem State.setCore_step (s : State) (n : Nat) (x : CoreSt) : (s.setCore n x).step = s.step := rfl
@[simp] theorem State.setCore_urgentRuns (s : State) (n : Nat) (x : CoreSt) : (s.setCore n x).urgentRuns = s.urgentRuns := rfl
@[simp] theorem State.setCore_urgentHeld (s : State) (n : Nat) (x : CoreSt) : (s.setCore n x).urgentHeld = s.urgentHeld := rfl
@[simp] theorem State.setCore_barrierGens (s : State) (n : Nat) (x : CoreSt) : (s.setCore n x).barrierGens = s.barrierGens := rfl
@[simp] theorem State.setCore_remoteAdds (s : State) (n : Nat) (x : CoreSt) : (s.setCore n x).remoteAdds = s.remoteAdds := rfl
@[simp] theorem State.setCore_remoteSeen (s : State) (n : Nat) (x : CoreSt) : (s.setCore n x).remoteSeen = s.remoteSeen := rfl
@[simp] theorem State.setCore_fabric (s : State) (n : Nat) (x : CoreSt) : (s.setCore n x).fabric = s.fabric := rfl
@[simp] theorem State.setCore_upd (s : State) (n : Nat) (x : CoreSt) : (s.setCore n x).upd = s.upd := rfl
@[simp] theorem State.setCore_power (s : State) (n : Nat) (x : CoreSt) : (s.setCore n x).power = s.power := rfl
@[simp] theorem State.setCore_boot (s : State) (n : Nat) (x : CoreSt) : (s.setCore n x).boot = s.boot := rfl
@[simp] theorem State.setCore_refLost (s : State) (n : Nat) (x : CoreSt) : (s.setCore n x).refLost = s.refLost := rfl
@[simp] theorem State.setCore_entries (s : State) (n : Nat) (x : CoreSt) : (s.setCore n x).entries = s.entries := rfl
@[simp] theorem State.setCore_lastStepPort (s : State) (n : Nat) (x : CoreSt) : (s.setCore n x).lastStepPort = s.lastStepPort := rfl
@[simp] theorem State.setCore_tokenTimer (s : State) (n : Nat) (x : CoreSt) : (s.setCore n x).tokenTimer = s.tokenTimer := rfl
@[simp] theorem State.setCore_nextOp (s : State) (n : Nat) (x : CoreSt) : (s.setCore n x).nextOp = s.nextOp := rfl
@[simp] theorem State.setCore_outbox (s : State) (n : Nat) (x : CoreSt) : (s.setCore n x).outbox = s.outbox := rfl
@[simp] theorem State.setCore_heldOut (s : State) (n : Nat) (x : CoreSt) : (s.setCore n x).heldOut = s.heldOut := rfl
@[simp] theorem State.setCore_fresh (s : State) (n : Nat) (x : CoreSt) : (s.setCore n x).fresh = s.fresh := rfl
@[simp] theorem State.setCore_pending (s : State) (n : Nat) (x : CoreSt) : (s.setCore n x).pending = s.pending := rfl
@[simp] theorem State.setCore_upsets (s : State) (n : Nat) (x : CoreSt) : (s.setCore n x).upsets = s.upsets := rfl
@[simp] theorem State.setCore_standby (s : State) (n : Nat) (x : CoreSt) : (s.setCore n x).standby = s.standby := rfl
@[simp] theorem State.setCore_tdo (s : State) (n : Nat) (x : CoreSt) : (s.setCore n x).tdo = s.tdo := rfl

/-! ### setCrown changes `crowns` alone -/

@[simp] theorem State.setCrown_flds (s : State) (n : Nat) (x : CrownSt) : (s.setCrown n x).flds = s.flds := rfl
@[simp] theorem State.setCrown_latch (s : State) (n : Nat) (x : CrownSt) : (s.setCrown n x).latch = s.latch := rfl
@[simp] theorem State.setCrown_mem (s : State) (n : Nat) (x : CrownSt) : (s.setCrown n x).mem = s.mem := rfl
@[simp] theorem State.setCrown_poison (s : State) (n : Nat) (x : CrownSt) : (s.setCrown n x).poison = s.poison := rfl
@[simp] theorem State.setCrown_pages (s : State) (n : Nat) (x : CrownSt) : (s.setCrown n x).pages = s.pages := rfl
@[simp] theorem State.setCrown_towers (s : State) (n : Nat) (x : CrownSt) : (s.setCrown n x).towers = s.towers := rfl
@[simp] theorem State.setCrown_silt (s : State) (n : Nat) (x : CrownSt) : (s.setCrown n x).silt = s.silt := rfl
@[simp] theorem State.setCrown_siltTaken (s : State) (n : Nat) (x : CrownSt) : (s.setCrown n x).siltTaken = s.siltTaken := rfl
@[simp] theorem State.setCrown_bridgesFailed (s : State) (n : Nat) (x : CrownSt) : (s.setCrown n x).bridgesFailed = s.bridgesFailed := rfl
@[simp] theorem State.setCrown_held (s : State) (n : Nat) (x : CrownSt) : (s.setCrown n x).held = s.held := rfl
@[simp] theorem State.setCrown_tiers (s : State) (n : Nat) (x : CrownSt) : (s.setCrown n x).tiers = s.tiers := rfl
@[simp] theorem State.setCrown_telemetryInBrim (s : State) (n : Nat) (x : CrownSt) : (s.setCrown n x).telemetryInBrim = s.telemetryInBrim := rfl
@[simp] theorem State.setCrown_telemetry (s : State) (n : Nat) (x : CrownSt) : (s.setCrown n x).telemetry = s.telemetry := rfl
@[simp] theorem State.setCrown_recorder (s : State) (n : Nat) (x : CrownSt) : (s.setCrown n x).recorder = s.recorder := rfl
@[simp] theorem State.setCrown_hosts (s : State) (n : Nat) (x : CrownSt) : (s.setCrown n x).hosts = s.hosts := rfl
@[simp] theorem State.setCrown_cores (s : State) (n : Nat) (x : CrownSt) : (s.setCrown n x).cores = s.cores := rfl
@[simp] theorem State.setCrown_lstep (s : State) (n : Nat) (x : CrownSt) : (s.setCrown n x).lstep = s.lstep := rfl
@[simp] theorem State.setCrown_sync (s : State) (n : Nat) (x : CrownSt) : (s.setCrown n x).sync = s.sync := rfl
@[simp] theorem State.setCrown_units (s : State) (n : Nat) (x : CrownSt) : (s.setCrown n x).units = s.units := rfl
@[simp] theorem State.setCrown_urgents (s : State) (n : Nat) (x : CrownSt) : (s.setCrown n x).urgents = s.urgents := rfl
@[simp] theorem State.setCrown_barriers (s : State) (n : Nat) (x : CrownSt) : (s.setCrown n x).barriers = s.barriers := rfl
@[simp] theorem State.setCrown_syncInit (s : State) (n : Nat) (x : CrownSt) : (s.setCrown n x).syncInit = s.syncInit := rfl
@[simp] theorem State.setCrown_regions (s : State) (n : Nat) (x : CrownSt) : (s.setCrown n x).regions = s.regions := rfl
@[simp] theorem State.setCrown_roles (s : State) (n : Nat) (x : CrownSt) : (s.setCrown n x).roles = s.roles := rfl
@[simp] theorem State.setCrown_imageBase (s : State) (n : Nat) (x : CrownSt) : (s.setCrown n x).imageBase = s.imageBase := rfl
@[simp] theorem State.setCrown_stepQueue (s : State) (n : Nat) (x : CrownSt) : (s.setCrown n x).stepQueue = s.stepQueue := rfl
@[simp] theorem State.setCrown_step (s : State) (n : Nat) (x : CrownSt) : (s.setCrown n x).step = s.step := rfl
@[simp] theorem State.setCrown_urgentRuns (s : State) (n : Nat) (x : CrownSt) : (s.setCrown n x).urgentRuns = s.urgentRuns := rfl
@[simp] theorem State.setCrown_urgentHeld (s : State) (n : Nat) (x : CrownSt) : (s.setCrown n x).urgentHeld = s.urgentHeld := rfl
@[simp] theorem State.setCrown_barrierGens (s : State) (n : Nat) (x : CrownSt) : (s.setCrown n x).barrierGens = s.barrierGens := rfl
@[simp] theorem State.setCrown_remoteAdds (s : State) (n : Nat) (x : CrownSt) : (s.setCrown n x).remoteAdds = s.remoteAdds := rfl
@[simp] theorem State.setCrown_remoteSeen (s : State) (n : Nat) (x : CrownSt) : (s.setCrown n x).remoteSeen = s.remoteSeen := rfl
@[simp] theorem State.setCrown_fabric (s : State) (n : Nat) (x : CrownSt) : (s.setCrown n x).fabric = s.fabric := rfl
@[simp] theorem State.setCrown_upd (s : State) (n : Nat) (x : CrownSt) : (s.setCrown n x).upd = s.upd := rfl
@[simp] theorem State.setCrown_power (s : State) (n : Nat) (x : CrownSt) : (s.setCrown n x).power = s.power := rfl
@[simp] theorem State.setCrown_boot (s : State) (n : Nat) (x : CrownSt) : (s.setCrown n x).boot = s.boot := rfl
@[simp] theorem State.setCrown_refLost (s : State) (n : Nat) (x : CrownSt) : (s.setCrown n x).refLost = s.refLost := rfl
@[simp] theorem State.setCrown_entries (s : State) (n : Nat) (x : CrownSt) : (s.setCrown n x).entries = s.entries := rfl
@[simp] theorem State.setCrown_lastStepPort (s : State) (n : Nat) (x : CrownSt) : (s.setCrown n x).lastStepPort = s.lastStepPort := rfl
@[simp] theorem State.setCrown_tokenTimer (s : State) (n : Nat) (x : CrownSt) : (s.setCrown n x).tokenTimer = s.tokenTimer := rfl
@[simp] theorem State.setCrown_nextOp (s : State) (n : Nat) (x : CrownSt) : (s.setCrown n x).nextOp = s.nextOp := rfl
@[simp] theorem State.setCrown_outbox (s : State) (n : Nat) (x : CrownSt) : (s.setCrown n x).outbox = s.outbox := rfl
@[simp] theorem State.setCrown_heldOut (s : State) (n : Nat) (x : CrownSt) : (s.setCrown n x).heldOut = s.heldOut := rfl
@[simp] theorem State.setCrown_fresh (s : State) (n : Nat) (x : CrownSt) : (s.setCrown n x).fresh = s.fresh := rfl
@[simp] theorem State.setCrown_pending (s : State) (n : Nat) (x : CrownSt) : (s.setCrown n x).pending = s.pending := rfl
@[simp] theorem State.setCrown_upsets (s : State) (n : Nat) (x : CrownSt) : (s.setCrown n x).upsets = s.upsets := rfl
@[simp] theorem State.setCrown_standby (s : State) (n : Nat) (x : CrownSt) : (s.setCrown n x).standby = s.standby := rfl
@[simp] theorem State.setCrown_tdo (s : State) (n : Nat) (x : CrownSt) : (s.setCrown n x).tdo = s.tdo := rfl

/-! ### modRec changes `recorder` alone -/

@[simp] theorem State.modRec_flds (s : State) (f : Recorder → Recorder) : (s.modRec f).flds = s.flds := rfl
@[simp] theorem State.modRec_latch (s : State) (f : Recorder → Recorder) : (s.modRec f).latch = s.latch := rfl
@[simp] theorem State.modRec_mem (s : State) (f : Recorder → Recorder) : (s.modRec f).mem = s.mem := rfl
@[simp] theorem State.modRec_poison (s : State) (f : Recorder → Recorder) : (s.modRec f).poison = s.poison := rfl
@[simp] theorem State.modRec_pages (s : State) (f : Recorder → Recorder) : (s.modRec f).pages = s.pages := rfl
@[simp] theorem State.modRec_towers (s : State) (f : Recorder → Recorder) : (s.modRec f).towers = s.towers := rfl
@[simp] theorem State.modRec_silt (s : State) (f : Recorder → Recorder) : (s.modRec f).silt = s.silt := rfl
@[simp] theorem State.modRec_siltTaken (s : State) (f : Recorder → Recorder) : (s.modRec f).siltTaken = s.siltTaken := rfl
@[simp] theorem State.modRec_bridgesFailed (s : State) (f : Recorder → Recorder) : (s.modRec f).bridgesFailed = s.bridgesFailed := rfl
@[simp] theorem State.modRec_held (s : State) (f : Recorder → Recorder) : (s.modRec f).held = s.held := rfl
@[simp] theorem State.modRec_tiers (s : State) (f : Recorder → Recorder) : (s.modRec f).tiers = s.tiers := rfl
@[simp] theorem State.modRec_telemetryInBrim (s : State) (f : Recorder → Recorder) : (s.modRec f).telemetryInBrim = s.telemetryInBrim := rfl
@[simp] theorem State.modRec_telemetry (s : State) (f : Recorder → Recorder) : (s.modRec f).telemetry = s.telemetry := rfl
@[simp] theorem State.modRec_hosts (s : State) (f : Recorder → Recorder) : (s.modRec f).hosts = s.hosts := rfl
@[simp] theorem State.modRec_cores (s : State) (f : Recorder → Recorder) : (s.modRec f).cores = s.cores := rfl
@[simp] theorem State.modRec_crowns (s : State) (f : Recorder → Recorder) : (s.modRec f).crowns = s.crowns := rfl
@[simp] theorem State.modRec_lstep (s : State) (f : Recorder → Recorder) : (s.modRec f).lstep = s.lstep := rfl
@[simp] theorem State.modRec_sync (s : State) (f : Recorder → Recorder) : (s.modRec f).sync = s.sync := rfl
@[simp] theorem State.modRec_units (s : State) (f : Recorder → Recorder) : (s.modRec f).units = s.units := rfl
@[simp] theorem State.modRec_urgents (s : State) (f : Recorder → Recorder) : (s.modRec f).urgents = s.urgents := rfl
@[simp] theorem State.modRec_barriers (s : State) (f : Recorder → Recorder) : (s.modRec f).barriers = s.barriers := rfl
@[simp] theorem State.modRec_syncInit (s : State) (f : Recorder → Recorder) : (s.modRec f).syncInit = s.syncInit := rfl
@[simp] theorem State.modRec_regions (s : State) (f : Recorder → Recorder) : (s.modRec f).regions = s.regions := rfl
@[simp] theorem State.modRec_roles (s : State) (f : Recorder → Recorder) : (s.modRec f).roles = s.roles := rfl
@[simp] theorem State.modRec_imageBase (s : State) (f : Recorder → Recorder) : (s.modRec f).imageBase = s.imageBase := rfl
@[simp] theorem State.modRec_stepQueue (s : State) (f : Recorder → Recorder) : (s.modRec f).stepQueue = s.stepQueue := rfl
@[simp] theorem State.modRec_step (s : State) (f : Recorder → Recorder) : (s.modRec f).step = s.step := rfl
@[simp] theorem State.modRec_urgentRuns (s : State) (f : Recorder → Recorder) : (s.modRec f).urgentRuns = s.urgentRuns := rfl
@[simp] theorem State.modRec_urgentHeld (s : State) (f : Recorder → Recorder) : (s.modRec f).urgentHeld = s.urgentHeld := rfl
@[simp] theorem State.modRec_barrierGens (s : State) (f : Recorder → Recorder) : (s.modRec f).barrierGens = s.barrierGens := rfl
@[simp] theorem State.modRec_remoteAdds (s : State) (f : Recorder → Recorder) : (s.modRec f).remoteAdds = s.remoteAdds := rfl
@[simp] theorem State.modRec_remoteSeen (s : State) (f : Recorder → Recorder) : (s.modRec f).remoteSeen = s.remoteSeen := rfl
@[simp] theorem State.modRec_fabric (s : State) (f : Recorder → Recorder) : (s.modRec f).fabric = s.fabric := rfl
@[simp] theorem State.modRec_upd (s : State) (f : Recorder → Recorder) : (s.modRec f).upd = s.upd := rfl
@[simp] theorem State.modRec_power (s : State) (f : Recorder → Recorder) : (s.modRec f).power = s.power := rfl
@[simp] theorem State.modRec_boot (s : State) (f : Recorder → Recorder) : (s.modRec f).boot = s.boot := rfl
@[simp] theorem State.modRec_refLost (s : State) (f : Recorder → Recorder) : (s.modRec f).refLost = s.refLost := rfl
@[simp] theorem State.modRec_entries (s : State) (f : Recorder → Recorder) : (s.modRec f).entries = s.entries := rfl
@[simp] theorem State.modRec_lastStepPort (s : State) (f : Recorder → Recorder) : (s.modRec f).lastStepPort = s.lastStepPort := rfl
@[simp] theorem State.modRec_tokenTimer (s : State) (f : Recorder → Recorder) : (s.modRec f).tokenTimer = s.tokenTimer := rfl
@[simp] theorem State.modRec_nextOp (s : State) (f : Recorder → Recorder) : (s.modRec f).nextOp = s.nextOp := rfl
@[simp] theorem State.modRec_outbox (s : State) (f : Recorder → Recorder) : (s.modRec f).outbox = s.outbox := rfl
@[simp] theorem State.modRec_heldOut (s : State) (f : Recorder → Recorder) : (s.modRec f).heldOut = s.heldOut := rfl
@[simp] theorem State.modRec_fresh (s : State) (f : Recorder → Recorder) : (s.modRec f).fresh = s.fresh := rfl
@[simp] theorem State.modRec_pending (s : State) (f : Recorder → Recorder) : (s.modRec f).pending = s.pending := rfl
@[simp] theorem State.modRec_upsets (s : State) (f : Recorder → Recorder) : (s.modRec f).upsets = s.upsets := rfl
@[simp] theorem State.modRec_standby (s : State) (f : Recorder → Recorder) : (s.modRec f).standby = s.standby := rfl
@[simp] theorem State.modRec_tdo (s : State) (f : Recorder → Recorder) : (s.modRec f).tdo = s.tdo := rfl

/-! ### emit changes `outbox` alone -/

@[simp] theorem State.emit_flds (s : State) (o : Out) : (s.emit o).flds = s.flds := rfl
@[simp] theorem State.emit_latch (s : State) (o : Out) : (s.emit o).latch = s.latch := rfl
@[simp] theorem State.emit_mem (s : State) (o : Out) : (s.emit o).mem = s.mem := rfl
@[simp] theorem State.emit_poison (s : State) (o : Out) : (s.emit o).poison = s.poison := rfl
@[simp] theorem State.emit_pages (s : State) (o : Out) : (s.emit o).pages = s.pages := rfl
@[simp] theorem State.emit_towers (s : State) (o : Out) : (s.emit o).towers = s.towers := rfl
@[simp] theorem State.emit_silt (s : State) (o : Out) : (s.emit o).silt = s.silt := rfl
@[simp] theorem State.emit_siltTaken (s : State) (o : Out) : (s.emit o).siltTaken = s.siltTaken := rfl
@[simp] theorem State.emit_bridgesFailed (s : State) (o : Out) : (s.emit o).bridgesFailed = s.bridgesFailed := rfl
@[simp] theorem State.emit_held (s : State) (o : Out) : (s.emit o).held = s.held := rfl
@[simp] theorem State.emit_tiers (s : State) (o : Out) : (s.emit o).tiers = s.tiers := rfl
@[simp] theorem State.emit_telemetryInBrim (s : State) (o : Out) : (s.emit o).telemetryInBrim = s.telemetryInBrim := rfl
@[simp] theorem State.emit_telemetry (s : State) (o : Out) : (s.emit o).telemetry = s.telemetry := rfl
@[simp] theorem State.emit_recorder (s : State) (o : Out) : (s.emit o).recorder = s.recorder := rfl
@[simp] theorem State.emit_hosts (s : State) (o : Out) : (s.emit o).hosts = s.hosts := rfl
@[simp] theorem State.emit_cores (s : State) (o : Out) : (s.emit o).cores = s.cores := rfl
@[simp] theorem State.emit_crowns (s : State) (o : Out) : (s.emit o).crowns = s.crowns := rfl
@[simp] theorem State.emit_lstep (s : State) (o : Out) : (s.emit o).lstep = s.lstep := rfl
@[simp] theorem State.emit_sync (s : State) (o : Out) : (s.emit o).sync = s.sync := rfl
@[simp] theorem State.emit_units (s : State) (o : Out) : (s.emit o).units = s.units := rfl
@[simp] theorem State.emit_urgents (s : State) (o : Out) : (s.emit o).urgents = s.urgents := rfl
@[simp] theorem State.emit_barriers (s : State) (o : Out) : (s.emit o).barriers = s.barriers := rfl
@[simp] theorem State.emit_syncInit (s : State) (o : Out) : (s.emit o).syncInit = s.syncInit := rfl
@[simp] theorem State.emit_regions (s : State) (o : Out) : (s.emit o).regions = s.regions := rfl
@[simp] theorem State.emit_roles (s : State) (o : Out) : (s.emit o).roles = s.roles := rfl
@[simp] theorem State.emit_imageBase (s : State) (o : Out) : (s.emit o).imageBase = s.imageBase := rfl
@[simp] theorem State.emit_stepQueue (s : State) (o : Out) : (s.emit o).stepQueue = s.stepQueue := rfl
@[simp] theorem State.emit_step (s : State) (o : Out) : (s.emit o).step = s.step := rfl
@[simp] theorem State.emit_urgentRuns (s : State) (o : Out) : (s.emit o).urgentRuns = s.urgentRuns := rfl
@[simp] theorem State.emit_urgentHeld (s : State) (o : Out) : (s.emit o).urgentHeld = s.urgentHeld := rfl
@[simp] theorem State.emit_barrierGens (s : State) (o : Out) : (s.emit o).barrierGens = s.barrierGens := rfl
@[simp] theorem State.emit_remoteAdds (s : State) (o : Out) : (s.emit o).remoteAdds = s.remoteAdds := rfl
@[simp] theorem State.emit_remoteSeen (s : State) (o : Out) : (s.emit o).remoteSeen = s.remoteSeen := rfl
@[simp] theorem State.emit_fabric (s : State) (o : Out) : (s.emit o).fabric = s.fabric := rfl
@[simp] theorem State.emit_upd (s : State) (o : Out) : (s.emit o).upd = s.upd := rfl
@[simp] theorem State.emit_power (s : State) (o : Out) : (s.emit o).power = s.power := rfl
@[simp] theorem State.emit_boot (s : State) (o : Out) : (s.emit o).boot = s.boot := rfl
@[simp] theorem State.emit_refLost (s : State) (o : Out) : (s.emit o).refLost = s.refLost := rfl
@[simp] theorem State.emit_entries (s : State) (o : Out) : (s.emit o).entries = s.entries := rfl
@[simp] theorem State.emit_lastStepPort (s : State) (o : Out) : (s.emit o).lastStepPort = s.lastStepPort := rfl
@[simp] theorem State.emit_tokenTimer (s : State) (o : Out) : (s.emit o).tokenTimer = s.tokenTimer := rfl
@[simp] theorem State.emit_nextOp (s : State) (o : Out) : (s.emit o).nextOp = s.nextOp := rfl
@[simp] theorem State.emit_heldOut (s : State) (o : Out) : (s.emit o).heldOut = s.heldOut := rfl
@[simp] theorem State.emit_fresh (s : State) (o : Out) : (s.emit o).fresh = s.fresh := rfl
@[simp] theorem State.emit_pending (s : State) (o : Out) : (s.emit o).pending = s.pending := rfl
@[simp] theorem State.emit_upsets (s : State) (o : Out) : (s.emit o).upsets = s.upsets := rfl
@[simp] theorem State.emit_standby (s : State) (o : Out) : (s.emit o).standby = s.standby := rfl
@[simp] theorem State.emit_tdo (s : State) (o : Out) : (s.emit o).tdo = s.tdo := rfl

/-! ### setPage changes `pages` alone -/

@[simp] theorem State.setPage_flds (s : State) (n : Nat) (x : Page) : (s.setPage n x).flds = s.flds := rfl
@[simp] theorem State.setPage_latch (s : State) (n : Nat) (x : Page) : (s.setPage n x).latch = s.latch := rfl
@[simp] theorem State.setPage_mem (s : State) (n : Nat) (x : Page) : (s.setPage n x).mem = s.mem := rfl
@[simp] theorem State.setPage_poison (s : State) (n : Nat) (x : Page) : (s.setPage n x).poison = s.poison := rfl
@[simp] theorem State.setPage_towers (s : State) (n : Nat) (x : Page) : (s.setPage n x).towers = s.towers := rfl
@[simp] theorem State.setPage_silt (s : State) (n : Nat) (x : Page) : (s.setPage n x).silt = s.silt := rfl
@[simp] theorem State.setPage_siltTaken (s : State) (n : Nat) (x : Page) : (s.setPage n x).siltTaken = s.siltTaken := rfl
@[simp] theorem State.setPage_bridgesFailed (s : State) (n : Nat) (x : Page) : (s.setPage n x).bridgesFailed = s.bridgesFailed := rfl
@[simp] theorem State.setPage_held (s : State) (n : Nat) (x : Page) : (s.setPage n x).held = s.held := rfl
@[simp] theorem State.setPage_tiers (s : State) (n : Nat) (x : Page) : (s.setPage n x).tiers = s.tiers := rfl
@[simp] theorem State.setPage_telemetryInBrim (s : State) (n : Nat) (x : Page) : (s.setPage n x).telemetryInBrim = s.telemetryInBrim := rfl
@[simp] theorem State.setPage_telemetry (s : State) (n : Nat) (x : Page) : (s.setPage n x).telemetry = s.telemetry := rfl
@[simp] theorem State.setPage_recorder (s : State) (n : Nat) (x : Page) : (s.setPage n x).recorder = s.recorder := rfl
@[simp] theorem State.setPage_hosts (s : State) (n : Nat) (x : Page) : (s.setPage n x).hosts = s.hosts := rfl
@[simp] theorem State.setPage_cores (s : State) (n : Nat) (x : Page) : (s.setPage n x).cores = s.cores := rfl
@[simp] theorem State.setPage_crowns (s : State) (n : Nat) (x : Page) : (s.setPage n x).crowns = s.crowns := rfl
@[simp] theorem State.setPage_lstep (s : State) (n : Nat) (x : Page) : (s.setPage n x).lstep = s.lstep := rfl
@[simp] theorem State.setPage_sync (s : State) (n : Nat) (x : Page) : (s.setPage n x).sync = s.sync := rfl
@[simp] theorem State.setPage_units (s : State) (n : Nat) (x : Page) : (s.setPage n x).units = s.units := rfl
@[simp] theorem State.setPage_urgents (s : State) (n : Nat) (x : Page) : (s.setPage n x).urgents = s.urgents := rfl
@[simp] theorem State.setPage_barriers (s : State) (n : Nat) (x : Page) : (s.setPage n x).barriers = s.barriers := rfl
@[simp] theorem State.setPage_syncInit (s : State) (n : Nat) (x : Page) : (s.setPage n x).syncInit = s.syncInit := rfl
@[simp] theorem State.setPage_regions (s : State) (n : Nat) (x : Page) : (s.setPage n x).regions = s.regions := rfl
@[simp] theorem State.setPage_roles (s : State) (n : Nat) (x : Page) : (s.setPage n x).roles = s.roles := rfl
@[simp] theorem State.setPage_imageBase (s : State) (n : Nat) (x : Page) : (s.setPage n x).imageBase = s.imageBase := rfl
@[simp] theorem State.setPage_stepQueue (s : State) (n : Nat) (x : Page) : (s.setPage n x).stepQueue = s.stepQueue := rfl
@[simp] theorem State.setPage_step (s : State) (n : Nat) (x : Page) : (s.setPage n x).step = s.step := rfl
@[simp] theorem State.setPage_urgentRuns (s : State) (n : Nat) (x : Page) : (s.setPage n x).urgentRuns = s.urgentRuns := rfl
@[simp] theorem State.setPage_urgentHeld (s : State) (n : Nat) (x : Page) : (s.setPage n x).urgentHeld = s.urgentHeld := rfl
@[simp] theorem State.setPage_barrierGens (s : State) (n : Nat) (x : Page) : (s.setPage n x).barrierGens = s.barrierGens := rfl
@[simp] theorem State.setPage_remoteAdds (s : State) (n : Nat) (x : Page) : (s.setPage n x).remoteAdds = s.remoteAdds := rfl
@[simp] theorem State.setPage_remoteSeen (s : State) (n : Nat) (x : Page) : (s.setPage n x).remoteSeen = s.remoteSeen := rfl
@[simp] theorem State.setPage_fabric (s : State) (n : Nat) (x : Page) : (s.setPage n x).fabric = s.fabric := rfl
@[simp] theorem State.setPage_upd (s : State) (n : Nat) (x : Page) : (s.setPage n x).upd = s.upd := rfl
@[simp] theorem State.setPage_power (s : State) (n : Nat) (x : Page) : (s.setPage n x).power = s.power := rfl
@[simp] theorem State.setPage_boot (s : State) (n : Nat) (x : Page) : (s.setPage n x).boot = s.boot := rfl
@[simp] theorem State.setPage_refLost (s : State) (n : Nat) (x : Page) : (s.setPage n x).refLost = s.refLost := rfl
@[simp] theorem State.setPage_entries (s : State) (n : Nat) (x : Page) : (s.setPage n x).entries = s.entries := rfl
@[simp] theorem State.setPage_lastStepPort (s : State) (n : Nat) (x : Page) : (s.setPage n x).lastStepPort = s.lastStepPort := rfl
@[simp] theorem State.setPage_tokenTimer (s : State) (n : Nat) (x : Page) : (s.setPage n x).tokenTimer = s.tokenTimer := rfl
@[simp] theorem State.setPage_nextOp (s : State) (n : Nat) (x : Page) : (s.setPage n x).nextOp = s.nextOp := rfl
@[simp] theorem State.setPage_outbox (s : State) (n : Nat) (x : Page) : (s.setPage n x).outbox = s.outbox := rfl
@[simp] theorem State.setPage_heldOut (s : State) (n : Nat) (x : Page) : (s.setPage n x).heldOut = s.heldOut := rfl
@[simp] theorem State.setPage_fresh (s : State) (n : Nat) (x : Page) : (s.setPage n x).fresh = s.fresh := rfl
@[simp] theorem State.setPage_pending (s : State) (n : Nat) (x : Page) : (s.setPage n x).pending = s.pending := rfl
@[simp] theorem State.setPage_upsets (s : State) (n : Nat) (x : Page) : (s.setPage n x).upsets = s.upsets := rfl
@[simp] theorem State.setPage_standby (s : State) (n : Nat) (x : Page) : (s.setPage n x).standby = s.standby := rfl
@[simp] theorem State.setPage_tdo (s : State) (n : Nat) (x : Page) : (s.setPage n x).tdo = s.tdo := rfl

/-! ### modPower changes `power` alone -/

@[simp] theorem State.modPower_flds (s : State) (f : PowerSt → PowerSt) : (s.modPower f).flds = s.flds := rfl
@[simp] theorem State.modPower_latch (s : State) (f : PowerSt → PowerSt) : (s.modPower f).latch = s.latch := rfl
@[simp] theorem State.modPower_mem (s : State) (f : PowerSt → PowerSt) : (s.modPower f).mem = s.mem := rfl
@[simp] theorem State.modPower_poison (s : State) (f : PowerSt → PowerSt) : (s.modPower f).poison = s.poison := rfl
@[simp] theorem State.modPower_pages (s : State) (f : PowerSt → PowerSt) : (s.modPower f).pages = s.pages := rfl
@[simp] theorem State.modPower_towers (s : State) (f : PowerSt → PowerSt) : (s.modPower f).towers = s.towers := rfl
@[simp] theorem State.modPower_silt (s : State) (f : PowerSt → PowerSt) : (s.modPower f).silt = s.silt := rfl
@[simp] theorem State.modPower_siltTaken (s : State) (f : PowerSt → PowerSt) : (s.modPower f).siltTaken = s.siltTaken := rfl
@[simp] theorem State.modPower_bridgesFailed (s : State) (f : PowerSt → PowerSt) : (s.modPower f).bridgesFailed = s.bridgesFailed := rfl
@[simp] theorem State.modPower_held (s : State) (f : PowerSt → PowerSt) : (s.modPower f).held = s.held := rfl
@[simp] theorem State.modPower_tiers (s : State) (f : PowerSt → PowerSt) : (s.modPower f).tiers = s.tiers := rfl
@[simp] theorem State.modPower_telemetryInBrim (s : State) (f : PowerSt → PowerSt) : (s.modPower f).telemetryInBrim = s.telemetryInBrim := rfl
@[simp] theorem State.modPower_telemetry (s : State) (f : PowerSt → PowerSt) : (s.modPower f).telemetry = s.telemetry := rfl
@[simp] theorem State.modPower_recorder (s : State) (f : PowerSt → PowerSt) : (s.modPower f).recorder = s.recorder := rfl
@[simp] theorem State.modPower_hosts (s : State) (f : PowerSt → PowerSt) : (s.modPower f).hosts = s.hosts := rfl
@[simp] theorem State.modPower_cores (s : State) (f : PowerSt → PowerSt) : (s.modPower f).cores = s.cores := rfl
@[simp] theorem State.modPower_crowns (s : State) (f : PowerSt → PowerSt) : (s.modPower f).crowns = s.crowns := rfl
@[simp] theorem State.modPower_lstep (s : State) (f : PowerSt → PowerSt) : (s.modPower f).lstep = s.lstep := rfl
@[simp] theorem State.modPower_sync (s : State) (f : PowerSt → PowerSt) : (s.modPower f).sync = s.sync := rfl
@[simp] theorem State.modPower_units (s : State) (f : PowerSt → PowerSt) : (s.modPower f).units = s.units := rfl
@[simp] theorem State.modPower_urgents (s : State) (f : PowerSt → PowerSt) : (s.modPower f).urgents = s.urgents := rfl
@[simp] theorem State.modPower_barriers (s : State) (f : PowerSt → PowerSt) : (s.modPower f).barriers = s.barriers := rfl
@[simp] theorem State.modPower_syncInit (s : State) (f : PowerSt → PowerSt) : (s.modPower f).syncInit = s.syncInit := rfl
@[simp] theorem State.modPower_regions (s : State) (f : PowerSt → PowerSt) : (s.modPower f).regions = s.regions := rfl
@[simp] theorem State.modPower_roles (s : State) (f : PowerSt → PowerSt) : (s.modPower f).roles = s.roles := rfl
@[simp] theorem State.modPower_imageBase (s : State) (f : PowerSt → PowerSt) : (s.modPower f).imageBase = s.imageBase := rfl
@[simp] theorem State.modPower_stepQueue (s : State) (f : PowerSt → PowerSt) : (s.modPower f).stepQueue = s.stepQueue := rfl
@[simp] theorem State.modPower_step (s : State) (f : PowerSt → PowerSt) : (s.modPower f).step = s.step := rfl
@[simp] theorem State.modPower_urgentRuns (s : State) (f : PowerSt → PowerSt) : (s.modPower f).urgentRuns = s.urgentRuns := rfl
@[simp] theorem State.modPower_urgentHeld (s : State) (f : PowerSt → PowerSt) : (s.modPower f).urgentHeld = s.urgentHeld := rfl
@[simp] theorem State.modPower_barrierGens (s : State) (f : PowerSt → PowerSt) : (s.modPower f).barrierGens = s.barrierGens := rfl
@[simp] theorem State.modPower_remoteAdds (s : State) (f : PowerSt → PowerSt) : (s.modPower f).remoteAdds = s.remoteAdds := rfl
@[simp] theorem State.modPower_remoteSeen (s : State) (f : PowerSt → PowerSt) : (s.modPower f).remoteSeen = s.remoteSeen := rfl
@[simp] theorem State.modPower_fabric (s : State) (f : PowerSt → PowerSt) : (s.modPower f).fabric = s.fabric := rfl
@[simp] theorem State.modPower_upd (s : State) (f : PowerSt → PowerSt) : (s.modPower f).upd = s.upd := rfl
@[simp] theorem State.modPower_boot (s : State) (f : PowerSt → PowerSt) : (s.modPower f).boot = s.boot := rfl
@[simp] theorem State.modPower_refLost (s : State) (f : PowerSt → PowerSt) : (s.modPower f).refLost = s.refLost := rfl
@[simp] theorem State.modPower_entries (s : State) (f : PowerSt → PowerSt) : (s.modPower f).entries = s.entries := rfl
@[simp] theorem State.modPower_lastStepPort (s : State) (f : PowerSt → PowerSt) : (s.modPower f).lastStepPort = s.lastStepPort := rfl
@[simp] theorem State.modPower_tokenTimer (s : State) (f : PowerSt → PowerSt) : (s.modPower f).tokenTimer = s.tokenTimer := rfl
@[simp] theorem State.modPower_nextOp (s : State) (f : PowerSt → PowerSt) : (s.modPower f).nextOp = s.nextOp := rfl
@[simp] theorem State.modPower_outbox (s : State) (f : PowerSt → PowerSt) : (s.modPower f).outbox = s.outbox := rfl
@[simp] theorem State.modPower_heldOut (s : State) (f : PowerSt → PowerSt) : (s.modPower f).heldOut = s.heldOut := rfl
@[simp] theorem State.modPower_fresh (s : State) (f : PowerSt → PowerSt) : (s.modPower f).fresh = s.fresh := rfl
@[simp] theorem State.modPower_pending (s : State) (f : PowerSt → PowerSt) : (s.modPower f).pending = s.pending := rfl
@[simp] theorem State.modPower_upsets (s : State) (f : PowerSt → PowerSt) : (s.modPower f).upsets = s.upsets := rfl
@[simp] theorem State.modPower_standby (s : State) (f : PowerSt → PowerSt) : (s.modPower f).standby = s.standby := rfl
@[simp] theorem State.modPower_tdo (s : State) (f : PowerSt → PowerSt) : (s.modPower f).tdo = s.tdo := rfl

/-! ### modBoot changes `boot` alone -/

@[simp] theorem State.modBoot_flds (s : State) (f : BootSt → BootSt) : (s.modBoot f).flds = s.flds := rfl
@[simp] theorem State.modBoot_latch (s : State) (f : BootSt → BootSt) : (s.modBoot f).latch = s.latch := rfl
@[simp] theorem State.modBoot_mem (s : State) (f : BootSt → BootSt) : (s.modBoot f).mem = s.mem := rfl
@[simp] theorem State.modBoot_poison (s : State) (f : BootSt → BootSt) : (s.modBoot f).poison = s.poison := rfl
@[simp] theorem State.modBoot_pages (s : State) (f : BootSt → BootSt) : (s.modBoot f).pages = s.pages := rfl
@[simp] theorem State.modBoot_towers (s : State) (f : BootSt → BootSt) : (s.modBoot f).towers = s.towers := rfl
@[simp] theorem State.modBoot_silt (s : State) (f : BootSt → BootSt) : (s.modBoot f).silt = s.silt := rfl
@[simp] theorem State.modBoot_siltTaken (s : State) (f : BootSt → BootSt) : (s.modBoot f).siltTaken = s.siltTaken := rfl
@[simp] theorem State.modBoot_bridgesFailed (s : State) (f : BootSt → BootSt) : (s.modBoot f).bridgesFailed = s.bridgesFailed := rfl
@[simp] theorem State.modBoot_held (s : State) (f : BootSt → BootSt) : (s.modBoot f).held = s.held := rfl
@[simp] theorem State.modBoot_tiers (s : State) (f : BootSt → BootSt) : (s.modBoot f).tiers = s.tiers := rfl
@[simp] theorem State.modBoot_telemetryInBrim (s : State) (f : BootSt → BootSt) : (s.modBoot f).telemetryInBrim = s.telemetryInBrim := rfl
@[simp] theorem State.modBoot_telemetry (s : State) (f : BootSt → BootSt) : (s.modBoot f).telemetry = s.telemetry := rfl
@[simp] theorem State.modBoot_recorder (s : State) (f : BootSt → BootSt) : (s.modBoot f).recorder = s.recorder := rfl
@[simp] theorem State.modBoot_hosts (s : State) (f : BootSt → BootSt) : (s.modBoot f).hosts = s.hosts := rfl
@[simp] theorem State.modBoot_cores (s : State) (f : BootSt → BootSt) : (s.modBoot f).cores = s.cores := rfl
@[simp] theorem State.modBoot_crowns (s : State) (f : BootSt → BootSt) : (s.modBoot f).crowns = s.crowns := rfl
@[simp] theorem State.modBoot_lstep (s : State) (f : BootSt → BootSt) : (s.modBoot f).lstep = s.lstep := rfl
@[simp] theorem State.modBoot_sync (s : State) (f : BootSt → BootSt) : (s.modBoot f).sync = s.sync := rfl
@[simp] theorem State.modBoot_units (s : State) (f : BootSt → BootSt) : (s.modBoot f).units = s.units := rfl
@[simp] theorem State.modBoot_urgents (s : State) (f : BootSt → BootSt) : (s.modBoot f).urgents = s.urgents := rfl
@[simp] theorem State.modBoot_barriers (s : State) (f : BootSt → BootSt) : (s.modBoot f).barriers = s.barriers := rfl
@[simp] theorem State.modBoot_syncInit (s : State) (f : BootSt → BootSt) : (s.modBoot f).syncInit = s.syncInit := rfl
@[simp] theorem State.modBoot_regions (s : State) (f : BootSt → BootSt) : (s.modBoot f).regions = s.regions := rfl
@[simp] theorem State.modBoot_roles (s : State) (f : BootSt → BootSt) : (s.modBoot f).roles = s.roles := rfl
@[simp] theorem State.modBoot_imageBase (s : State) (f : BootSt → BootSt) : (s.modBoot f).imageBase = s.imageBase := rfl
@[simp] theorem State.modBoot_stepQueue (s : State) (f : BootSt → BootSt) : (s.modBoot f).stepQueue = s.stepQueue := rfl
@[simp] theorem State.modBoot_step (s : State) (f : BootSt → BootSt) : (s.modBoot f).step = s.step := rfl
@[simp] theorem State.modBoot_urgentRuns (s : State) (f : BootSt → BootSt) : (s.modBoot f).urgentRuns = s.urgentRuns := rfl
@[simp] theorem State.modBoot_urgentHeld (s : State) (f : BootSt → BootSt) : (s.modBoot f).urgentHeld = s.urgentHeld := rfl
@[simp] theorem State.modBoot_barrierGens (s : State) (f : BootSt → BootSt) : (s.modBoot f).barrierGens = s.barrierGens := rfl
@[simp] theorem State.modBoot_remoteAdds (s : State) (f : BootSt → BootSt) : (s.modBoot f).remoteAdds = s.remoteAdds := rfl
@[simp] theorem State.modBoot_remoteSeen (s : State) (f : BootSt → BootSt) : (s.modBoot f).remoteSeen = s.remoteSeen := rfl
@[simp] theorem State.modBoot_fabric (s : State) (f : BootSt → BootSt) : (s.modBoot f).fabric = s.fabric := rfl
@[simp] theorem State.modBoot_upd (s : State) (f : BootSt → BootSt) : (s.modBoot f).upd = s.upd := rfl
@[simp] theorem State.modBoot_power (s : State) (f : BootSt → BootSt) : (s.modBoot f).power = s.power := rfl
@[simp] theorem State.modBoot_refLost (s : State) (f : BootSt → BootSt) : (s.modBoot f).refLost = s.refLost := rfl
@[simp] theorem State.modBoot_entries (s : State) (f : BootSt → BootSt) : (s.modBoot f).entries = s.entries := rfl
@[simp] theorem State.modBoot_lastStepPort (s : State) (f : BootSt → BootSt) : (s.modBoot f).lastStepPort = s.lastStepPort := rfl
@[simp] theorem State.modBoot_tokenTimer (s : State) (f : BootSt → BootSt) : (s.modBoot f).tokenTimer = s.tokenTimer := rfl
@[simp] theorem State.modBoot_nextOp (s : State) (f : BootSt → BootSt) : (s.modBoot f).nextOp = s.nextOp := rfl
@[simp] theorem State.modBoot_outbox (s : State) (f : BootSt → BootSt) : (s.modBoot f).outbox = s.outbox := rfl
@[simp] theorem State.modBoot_heldOut (s : State) (f : BootSt → BootSt) : (s.modBoot f).heldOut = s.heldOut := rfl
@[simp] theorem State.modBoot_fresh (s : State) (f : BootSt → BootSt) : (s.modBoot f).fresh = s.fresh := rfl
@[simp] theorem State.modBoot_pending (s : State) (f : BootSt → BootSt) : (s.modBoot f).pending = s.pending := rfl
@[simp] theorem State.modBoot_upsets (s : State) (f : BootSt → BootSt) : (s.modBoot f).upsets = s.upsets := rfl
@[simp] theorem State.modBoot_standby (s : State) (f : BootSt → BootSt) : (s.modBoot f).standby = s.standby := rfl
@[simp] theorem State.modBoot_tdo (s : State) (f : BootSt → BootSt) : (s.modBoot f).tdo = s.tdo := rfl

/-! ### modFabric changes `fabric` alone -/

@[simp] theorem State.modFabric_flds (s : State) (f : FabricSt → FabricSt) : (s.modFabric f).flds = s.flds := rfl
@[simp] theorem State.modFabric_latch (s : State) (f : FabricSt → FabricSt) : (s.modFabric f).latch = s.latch := rfl
@[simp] theorem State.modFabric_mem (s : State) (f : FabricSt → FabricSt) : (s.modFabric f).mem = s.mem := rfl
@[simp] theorem State.modFabric_poison (s : State) (f : FabricSt → FabricSt) : (s.modFabric f).poison = s.poison := rfl
@[simp] theorem State.modFabric_pages (s : State) (f : FabricSt → FabricSt) : (s.modFabric f).pages = s.pages := rfl
@[simp] theorem State.modFabric_towers (s : State) (f : FabricSt → FabricSt) : (s.modFabric f).towers = s.towers := rfl
@[simp] theorem State.modFabric_silt (s : State) (f : FabricSt → FabricSt) : (s.modFabric f).silt = s.silt := rfl
@[simp] theorem State.modFabric_siltTaken (s : State) (f : FabricSt → FabricSt) : (s.modFabric f).siltTaken = s.siltTaken := rfl
@[simp] theorem State.modFabric_bridgesFailed (s : State) (f : FabricSt → FabricSt) : (s.modFabric f).bridgesFailed = s.bridgesFailed := rfl
@[simp] theorem State.modFabric_held (s : State) (f : FabricSt → FabricSt) : (s.modFabric f).held = s.held := rfl
@[simp] theorem State.modFabric_tiers (s : State) (f : FabricSt → FabricSt) : (s.modFabric f).tiers = s.tiers := rfl
@[simp] theorem State.modFabric_telemetryInBrim (s : State) (f : FabricSt → FabricSt) : (s.modFabric f).telemetryInBrim = s.telemetryInBrim := rfl
@[simp] theorem State.modFabric_telemetry (s : State) (f : FabricSt → FabricSt) : (s.modFabric f).telemetry = s.telemetry := rfl
@[simp] theorem State.modFabric_recorder (s : State) (f : FabricSt → FabricSt) : (s.modFabric f).recorder = s.recorder := rfl
@[simp] theorem State.modFabric_hosts (s : State) (f : FabricSt → FabricSt) : (s.modFabric f).hosts = s.hosts := rfl
@[simp] theorem State.modFabric_cores (s : State) (f : FabricSt → FabricSt) : (s.modFabric f).cores = s.cores := rfl
@[simp] theorem State.modFabric_crowns (s : State) (f : FabricSt → FabricSt) : (s.modFabric f).crowns = s.crowns := rfl
@[simp] theorem State.modFabric_lstep (s : State) (f : FabricSt → FabricSt) : (s.modFabric f).lstep = s.lstep := rfl
@[simp] theorem State.modFabric_sync (s : State) (f : FabricSt → FabricSt) : (s.modFabric f).sync = s.sync := rfl
@[simp] theorem State.modFabric_units (s : State) (f : FabricSt → FabricSt) : (s.modFabric f).units = s.units := rfl
@[simp] theorem State.modFabric_urgents (s : State) (f : FabricSt → FabricSt) : (s.modFabric f).urgents = s.urgents := rfl
@[simp] theorem State.modFabric_barriers (s : State) (f : FabricSt → FabricSt) : (s.modFabric f).barriers = s.barriers := rfl
@[simp] theorem State.modFabric_syncInit (s : State) (f : FabricSt → FabricSt) : (s.modFabric f).syncInit = s.syncInit := rfl
@[simp] theorem State.modFabric_regions (s : State) (f : FabricSt → FabricSt) : (s.modFabric f).regions = s.regions := rfl
@[simp] theorem State.modFabric_roles (s : State) (f : FabricSt → FabricSt) : (s.modFabric f).roles = s.roles := rfl
@[simp] theorem State.modFabric_imageBase (s : State) (f : FabricSt → FabricSt) : (s.modFabric f).imageBase = s.imageBase := rfl
@[simp] theorem State.modFabric_stepQueue (s : State) (f : FabricSt → FabricSt) : (s.modFabric f).stepQueue = s.stepQueue := rfl
@[simp] theorem State.modFabric_step (s : State) (f : FabricSt → FabricSt) : (s.modFabric f).step = s.step := rfl
@[simp] theorem State.modFabric_urgentRuns (s : State) (f : FabricSt → FabricSt) : (s.modFabric f).urgentRuns = s.urgentRuns := rfl
@[simp] theorem State.modFabric_urgentHeld (s : State) (f : FabricSt → FabricSt) : (s.modFabric f).urgentHeld = s.urgentHeld := rfl
@[simp] theorem State.modFabric_barrierGens (s : State) (f : FabricSt → FabricSt) : (s.modFabric f).barrierGens = s.barrierGens := rfl
@[simp] theorem State.modFabric_remoteAdds (s : State) (f : FabricSt → FabricSt) : (s.modFabric f).remoteAdds = s.remoteAdds := rfl
@[simp] theorem State.modFabric_remoteSeen (s : State) (f : FabricSt → FabricSt) : (s.modFabric f).remoteSeen = s.remoteSeen := rfl
@[simp] theorem State.modFabric_upd (s : State) (f : FabricSt → FabricSt) : (s.modFabric f).upd = s.upd := rfl
@[simp] theorem State.modFabric_power (s : State) (f : FabricSt → FabricSt) : (s.modFabric f).power = s.power := rfl
@[simp] theorem State.modFabric_boot (s : State) (f : FabricSt → FabricSt) : (s.modFabric f).boot = s.boot := rfl
@[simp] theorem State.modFabric_refLost (s : State) (f : FabricSt → FabricSt) : (s.modFabric f).refLost = s.refLost := rfl
@[simp] theorem State.modFabric_entries (s : State) (f : FabricSt → FabricSt) : (s.modFabric f).entries = s.entries := rfl
@[simp] theorem State.modFabric_lastStepPort (s : State) (f : FabricSt → FabricSt) : (s.modFabric f).lastStepPort = s.lastStepPort := rfl
@[simp] theorem State.modFabric_tokenTimer (s : State) (f : FabricSt → FabricSt) : (s.modFabric f).tokenTimer = s.tokenTimer := rfl
@[simp] theorem State.modFabric_nextOp (s : State) (f : FabricSt → FabricSt) : (s.modFabric f).nextOp = s.nextOp := rfl
@[simp] theorem State.modFabric_outbox (s : State) (f : FabricSt → FabricSt) : (s.modFabric f).outbox = s.outbox := rfl
@[simp] theorem State.modFabric_heldOut (s : State) (f : FabricSt → FabricSt) : (s.modFabric f).heldOut = s.heldOut := rfl
@[simp] theorem State.modFabric_fresh (s : State) (f : FabricSt → FabricSt) : (s.modFabric f).fresh = s.fresh := rfl
@[simp] theorem State.modFabric_pending (s : State) (f : FabricSt → FabricSt) : (s.modFabric f).pending = s.pending := rfl
@[simp] theorem State.modFabric_upsets (s : State) (f : FabricSt → FabricSt) : (s.modFabric f).upsets = s.upsets := rfl
@[simp] theorem State.modFabric_standby (s : State) (f : FabricSt → FabricSt) : (s.modFabric f).standby = s.standby := rfl
@[simp] theorem State.modFabric_tdo (s : State) (f : FabricSt → FabricSt) : (s.modFabric f).tdo = s.tdo := rfl

/-! ### setUpd changes `upd` alone -/

@[simp] theorem State.setUpd_flds (s : State) (n : Nat) (x : UpdSt) : (s.setUpd n x).flds = s.flds := rfl
@[simp] theorem State.setUpd_latch (s : State) (n : Nat) (x : UpdSt) : (s.setUpd n x).latch = s.latch := rfl
@[simp] theorem State.setUpd_mem (s : State) (n : Nat) (x : UpdSt) : (s.setUpd n x).mem = s.mem := rfl
@[simp] theorem State.setUpd_poison (s : State) (n : Nat) (x : UpdSt) : (s.setUpd n x).poison = s.poison := rfl
@[simp] theorem State.setUpd_pages (s : State) (n : Nat) (x : UpdSt) : (s.setUpd n x).pages = s.pages := rfl
@[simp] theorem State.setUpd_towers (s : State) (n : Nat) (x : UpdSt) : (s.setUpd n x).towers = s.towers := rfl
@[simp] theorem State.setUpd_silt (s : State) (n : Nat) (x : UpdSt) : (s.setUpd n x).silt = s.silt := rfl
@[simp] theorem State.setUpd_siltTaken (s : State) (n : Nat) (x : UpdSt) : (s.setUpd n x).siltTaken = s.siltTaken := rfl
@[simp] theorem State.setUpd_bridgesFailed (s : State) (n : Nat) (x : UpdSt) : (s.setUpd n x).bridgesFailed = s.bridgesFailed := rfl
@[simp] theorem State.setUpd_held (s : State) (n : Nat) (x : UpdSt) : (s.setUpd n x).held = s.held := rfl
@[simp] theorem State.setUpd_tiers (s : State) (n : Nat) (x : UpdSt) : (s.setUpd n x).tiers = s.tiers := rfl
@[simp] theorem State.setUpd_telemetryInBrim (s : State) (n : Nat) (x : UpdSt) : (s.setUpd n x).telemetryInBrim = s.telemetryInBrim := rfl
@[simp] theorem State.setUpd_telemetry (s : State) (n : Nat) (x : UpdSt) : (s.setUpd n x).telemetry = s.telemetry := rfl
@[simp] theorem State.setUpd_recorder (s : State) (n : Nat) (x : UpdSt) : (s.setUpd n x).recorder = s.recorder := rfl
@[simp] theorem State.setUpd_hosts (s : State) (n : Nat) (x : UpdSt) : (s.setUpd n x).hosts = s.hosts := rfl
@[simp] theorem State.setUpd_cores (s : State) (n : Nat) (x : UpdSt) : (s.setUpd n x).cores = s.cores := rfl
@[simp] theorem State.setUpd_crowns (s : State) (n : Nat) (x : UpdSt) : (s.setUpd n x).crowns = s.crowns := rfl
@[simp] theorem State.setUpd_lstep (s : State) (n : Nat) (x : UpdSt) : (s.setUpd n x).lstep = s.lstep := rfl
@[simp] theorem State.setUpd_sync (s : State) (n : Nat) (x : UpdSt) : (s.setUpd n x).sync = s.sync := rfl
@[simp] theorem State.setUpd_units (s : State) (n : Nat) (x : UpdSt) : (s.setUpd n x).units = s.units := rfl
@[simp] theorem State.setUpd_urgents (s : State) (n : Nat) (x : UpdSt) : (s.setUpd n x).urgents = s.urgents := rfl
@[simp] theorem State.setUpd_barriers (s : State) (n : Nat) (x : UpdSt) : (s.setUpd n x).barriers = s.barriers := rfl
@[simp] theorem State.setUpd_syncInit (s : State) (n : Nat) (x : UpdSt) : (s.setUpd n x).syncInit = s.syncInit := rfl
@[simp] theorem State.setUpd_regions (s : State) (n : Nat) (x : UpdSt) : (s.setUpd n x).regions = s.regions := rfl
@[simp] theorem State.setUpd_roles (s : State) (n : Nat) (x : UpdSt) : (s.setUpd n x).roles = s.roles := rfl
@[simp] theorem State.setUpd_imageBase (s : State) (n : Nat) (x : UpdSt) : (s.setUpd n x).imageBase = s.imageBase := rfl
@[simp] theorem State.setUpd_stepQueue (s : State) (n : Nat) (x : UpdSt) : (s.setUpd n x).stepQueue = s.stepQueue := rfl
@[simp] theorem State.setUpd_step (s : State) (n : Nat) (x : UpdSt) : (s.setUpd n x).step = s.step := rfl
@[simp] theorem State.setUpd_urgentRuns (s : State) (n : Nat) (x : UpdSt) : (s.setUpd n x).urgentRuns = s.urgentRuns := rfl
@[simp] theorem State.setUpd_urgentHeld (s : State) (n : Nat) (x : UpdSt) : (s.setUpd n x).urgentHeld = s.urgentHeld := rfl
@[simp] theorem State.setUpd_barrierGens (s : State) (n : Nat) (x : UpdSt) : (s.setUpd n x).barrierGens = s.barrierGens := rfl
@[simp] theorem State.setUpd_remoteAdds (s : State) (n : Nat) (x : UpdSt) : (s.setUpd n x).remoteAdds = s.remoteAdds := rfl
@[simp] theorem State.setUpd_remoteSeen (s : State) (n : Nat) (x : UpdSt) : (s.setUpd n x).remoteSeen = s.remoteSeen := rfl
@[simp] theorem State.setUpd_fabric (s : State) (n : Nat) (x : UpdSt) : (s.setUpd n x).fabric = s.fabric := rfl
@[simp] theorem State.setUpd_power (s : State) (n : Nat) (x : UpdSt) : (s.setUpd n x).power = s.power := rfl
@[simp] theorem State.setUpd_boot (s : State) (n : Nat) (x : UpdSt) : (s.setUpd n x).boot = s.boot := rfl
@[simp] theorem State.setUpd_refLost (s : State) (n : Nat) (x : UpdSt) : (s.setUpd n x).refLost = s.refLost := rfl
@[simp] theorem State.setUpd_entries (s : State) (n : Nat) (x : UpdSt) : (s.setUpd n x).entries = s.entries := rfl
@[simp] theorem State.setUpd_lastStepPort (s : State) (n : Nat) (x : UpdSt) : (s.setUpd n x).lastStepPort = s.lastStepPort := rfl
@[simp] theorem State.setUpd_tokenTimer (s : State) (n : Nat) (x : UpdSt) : (s.setUpd n x).tokenTimer = s.tokenTimer := rfl
@[simp] theorem State.setUpd_nextOp (s : State) (n : Nat) (x : UpdSt) : (s.setUpd n x).nextOp = s.nextOp := rfl
@[simp] theorem State.setUpd_outbox (s : State) (n : Nat) (x : UpdSt) : (s.setUpd n x).outbox = s.outbox := rfl
@[simp] theorem State.setUpd_heldOut (s : State) (n : Nat) (x : UpdSt) : (s.setUpd n x).heldOut = s.heldOut := rfl
@[simp] theorem State.setUpd_fresh (s : State) (n : Nat) (x : UpdSt) : (s.setUpd n x).fresh = s.fresh := rfl
@[simp] theorem State.setUpd_pending (s : State) (n : Nat) (x : UpdSt) : (s.setUpd n x).pending = s.pending := rfl
@[simp] theorem State.setUpd_upsets (s : State) (n : Nat) (x : UpdSt) : (s.setUpd n x).upsets = s.upsets := rfl
@[simp] theorem State.setUpd_standby (s : State) (n : Nat) (x : UpdSt) : (s.setUpd n x).standby = s.standby := rfl
@[simp] theorem State.setUpd_tdo (s : State) (n : Nat) (x : UpdSt) : (s.setUpd n x).tdo = s.tdo := rfl

/-! ### setEntry changes `entries` alone -/

@[simp] theorem State.setEntry_flds (s : State) (n : Nat) (x : EntrySt) : (s.setEntry n x).flds = s.flds := rfl
@[simp] theorem State.setEntry_latch (s : State) (n : Nat) (x : EntrySt) : (s.setEntry n x).latch = s.latch := rfl
@[simp] theorem State.setEntry_mem (s : State) (n : Nat) (x : EntrySt) : (s.setEntry n x).mem = s.mem := rfl
@[simp] theorem State.setEntry_poison (s : State) (n : Nat) (x : EntrySt) : (s.setEntry n x).poison = s.poison := rfl
@[simp] theorem State.setEntry_pages (s : State) (n : Nat) (x : EntrySt) : (s.setEntry n x).pages = s.pages := rfl
@[simp] theorem State.setEntry_towers (s : State) (n : Nat) (x : EntrySt) : (s.setEntry n x).towers = s.towers := rfl
@[simp] theorem State.setEntry_silt (s : State) (n : Nat) (x : EntrySt) : (s.setEntry n x).silt = s.silt := rfl
@[simp] theorem State.setEntry_siltTaken (s : State) (n : Nat) (x : EntrySt) : (s.setEntry n x).siltTaken = s.siltTaken := rfl
@[simp] theorem State.setEntry_bridgesFailed (s : State) (n : Nat) (x : EntrySt) : (s.setEntry n x).bridgesFailed = s.bridgesFailed := rfl
@[simp] theorem State.setEntry_held (s : State) (n : Nat) (x : EntrySt) : (s.setEntry n x).held = s.held := rfl
@[simp] theorem State.setEntry_tiers (s : State) (n : Nat) (x : EntrySt) : (s.setEntry n x).tiers = s.tiers := rfl
@[simp] theorem State.setEntry_telemetryInBrim (s : State) (n : Nat) (x : EntrySt) : (s.setEntry n x).telemetryInBrim = s.telemetryInBrim := rfl
@[simp] theorem State.setEntry_telemetry (s : State) (n : Nat) (x : EntrySt) : (s.setEntry n x).telemetry = s.telemetry := rfl
@[simp] theorem State.setEntry_recorder (s : State) (n : Nat) (x : EntrySt) : (s.setEntry n x).recorder = s.recorder := rfl
@[simp] theorem State.setEntry_hosts (s : State) (n : Nat) (x : EntrySt) : (s.setEntry n x).hosts = s.hosts := rfl
@[simp] theorem State.setEntry_cores (s : State) (n : Nat) (x : EntrySt) : (s.setEntry n x).cores = s.cores := rfl
@[simp] theorem State.setEntry_crowns (s : State) (n : Nat) (x : EntrySt) : (s.setEntry n x).crowns = s.crowns := rfl
@[simp] theorem State.setEntry_lstep (s : State) (n : Nat) (x : EntrySt) : (s.setEntry n x).lstep = s.lstep := rfl
@[simp] theorem State.setEntry_sync (s : State) (n : Nat) (x : EntrySt) : (s.setEntry n x).sync = s.sync := rfl
@[simp] theorem State.setEntry_units (s : State) (n : Nat) (x : EntrySt) : (s.setEntry n x).units = s.units := rfl
@[simp] theorem State.setEntry_urgents (s : State) (n : Nat) (x : EntrySt) : (s.setEntry n x).urgents = s.urgents := rfl
@[simp] theorem State.setEntry_barriers (s : State) (n : Nat) (x : EntrySt) : (s.setEntry n x).barriers = s.barriers := rfl
@[simp] theorem State.setEntry_syncInit (s : State) (n : Nat) (x : EntrySt) : (s.setEntry n x).syncInit = s.syncInit := rfl
@[simp] theorem State.setEntry_regions (s : State) (n : Nat) (x : EntrySt) : (s.setEntry n x).regions = s.regions := rfl
@[simp] theorem State.setEntry_roles (s : State) (n : Nat) (x : EntrySt) : (s.setEntry n x).roles = s.roles := rfl
@[simp] theorem State.setEntry_imageBase (s : State) (n : Nat) (x : EntrySt) : (s.setEntry n x).imageBase = s.imageBase := rfl
@[simp] theorem State.setEntry_stepQueue (s : State) (n : Nat) (x : EntrySt) : (s.setEntry n x).stepQueue = s.stepQueue := rfl
@[simp] theorem State.setEntry_step (s : State) (n : Nat) (x : EntrySt) : (s.setEntry n x).step = s.step := rfl
@[simp] theorem State.setEntry_urgentRuns (s : State) (n : Nat) (x : EntrySt) : (s.setEntry n x).urgentRuns = s.urgentRuns := rfl
@[simp] theorem State.setEntry_urgentHeld (s : State) (n : Nat) (x : EntrySt) : (s.setEntry n x).urgentHeld = s.urgentHeld := rfl
@[simp] theorem State.setEntry_barrierGens (s : State) (n : Nat) (x : EntrySt) : (s.setEntry n x).barrierGens = s.barrierGens := rfl
@[simp] theorem State.setEntry_remoteAdds (s : State) (n : Nat) (x : EntrySt) : (s.setEntry n x).remoteAdds = s.remoteAdds := rfl
@[simp] theorem State.setEntry_remoteSeen (s : State) (n : Nat) (x : EntrySt) : (s.setEntry n x).remoteSeen = s.remoteSeen := rfl
@[simp] theorem State.setEntry_fabric (s : State) (n : Nat) (x : EntrySt) : (s.setEntry n x).fabric = s.fabric := rfl
@[simp] theorem State.setEntry_upd (s : State) (n : Nat) (x : EntrySt) : (s.setEntry n x).upd = s.upd := rfl
@[simp] theorem State.setEntry_power (s : State) (n : Nat) (x : EntrySt) : (s.setEntry n x).power = s.power := rfl
@[simp] theorem State.setEntry_boot (s : State) (n : Nat) (x : EntrySt) : (s.setEntry n x).boot = s.boot := rfl
@[simp] theorem State.setEntry_refLost (s : State) (n : Nat) (x : EntrySt) : (s.setEntry n x).refLost = s.refLost := rfl
@[simp] theorem State.setEntry_lastStepPort (s : State) (n : Nat) (x : EntrySt) : (s.setEntry n x).lastStepPort = s.lastStepPort := rfl
@[simp] theorem State.setEntry_tokenTimer (s : State) (n : Nat) (x : EntrySt) : (s.setEntry n x).tokenTimer = s.tokenTimer := rfl
@[simp] theorem State.setEntry_nextOp (s : State) (n : Nat) (x : EntrySt) : (s.setEntry n x).nextOp = s.nextOp := rfl
@[simp] theorem State.setEntry_outbox (s : State) (n : Nat) (x : EntrySt) : (s.setEntry n x).outbox = s.outbox := rfl
@[simp] theorem State.setEntry_heldOut (s : State) (n : Nat) (x : EntrySt) : (s.setEntry n x).heldOut = s.heldOut := rfl
@[simp] theorem State.setEntry_fresh (s : State) (n : Nat) (x : EntrySt) : (s.setEntry n x).fresh = s.fresh := rfl
@[simp] theorem State.setEntry_pending (s : State) (n : Nat) (x : EntrySt) : (s.setEntry n x).pending = s.pending := rfl
@[simp] theorem State.setEntry_upsets (s : State) (n : Nat) (x : EntrySt) : (s.setEntry n x).upsets = s.upsets := rfl
@[simp] theorem State.setEntry_standby (s : State) (n : Nat) (x : EntrySt) : (s.setEntry n x).standby = s.standby := rfl
@[simp] theorem State.setEntry_tdo (s : State) (n : Nat) (x : EntrySt) : (s.setEntry n x).tdo = s.tdo := rfl

@[simp] theorem State.setTower_rd (s : State) (n : Nat) (x : TowerSt) (g : Fld) : (s.setTower n x).rd g = s.rd g := rfl
@[simp] theorem State.setTier_rd (s : State) (n : Nat) (x : TierSt) (g : Fld) : (s.setTier n x).rd g = s.rd g := rfl
@[simp] theorem State.setHost_rd (s : State) (n : Nat) (x : HostPort) (g : Fld) : (s.setHost n x).rd g = s.rd g := rfl
@[simp] theorem State.setCore_rd (s : State) (n : Nat) (x : CoreSt) (g : Fld) : (s.setCore n x).rd g = s.rd g := rfl
@[simp] theorem State.setCrown_rd (s : State) (n : Nat) (x : CrownSt) (g : Fld) : (s.setCrown n x).rd g = s.rd g := rfl
@[simp] theorem State.modRec_rd (s : State) (f : Recorder → Recorder) (g : Fld) : (s.modRec f).rd g = s.rd g := rfl
@[simp] theorem State.emit_rd (s : State) (o : Out) (g : Fld) : (s.emit o).rd g = s.rd g := rfl
@[simp] theorem State.setPage_rd (s : State) (n : Nat) (x : Page) (g : Fld) : (s.setPage n x).rd g = s.rd g := rfl
@[simp] theorem State.modPower_rd (s : State) (f : PowerSt → PowerSt) (g : Fld) : (s.modPower f).rd g = s.rd g := rfl
@[simp] theorem State.modBoot_rd (s : State) (f : BootSt → BootSt) (g : Fld) : (s.modBoot f).rd g = s.rd g := rfl
@[simp] theorem State.modFabric_rd (s : State) (f : FabricSt → FabricSt) (g : Fld) : (s.modFabric f).rd g = s.rd g := rfl
@[simp] theorem State.setUpd_rd (s : State) (n : Nat) (x : UpdSt) (g : Fld) : (s.setUpd n x).rd g = s.rd g := rfl
@[simp] theorem State.setEntry_rd (s : State) (n : Nat) (x : EntrySt) (g : Fld) : (s.setEntry n x).rd g = s.rd g := rfl

end Sys2Proof.Machine
end

