-- ==== Sys2Proof/Laws/Recorder.lean ====
section
/-! SUPPORT. What recording an event can do: everything it may change, and the record it leaves where the recorder admits it
at once. -/

namespace Sys2Proof.Machine

/-! ### Frames compose -/

theorem SameFields.rfl' (s : State) (l : List Fld) : SameFields s s l := fun _ _ => rfl

theorem SameFields.trans' {s t u : State} {l : List Fld} (h : SameFields s t l) (k : SameFields t u l) : SameFields s u l :=
  fun f hf => (k f hf).trans (h f hf)

theorem SameFields.wr (s : State) (f : Fld) (v : Nat) (l : List Fld) (h : f ∈ l) : SameFields s (s.wr f v) l :=
  fun g hg => State.rd_wr_ne s f g v (hg f h)

theorem SameFields.mono {s t : State} {l m : List Fld} (h : SameFields s t l) (k : ∀ f ∈ l, f ∈ m) : SameFields s t m :=
  fun f hf => h f fun g hg => hf g (k g hg)

theorem OnlyLogged.refl (s : State) (l : List Fld) : OnlyLogged s s l :=
  ⟨rfl, SameFields.rfl' s _, fun _ => rfl, rfl, rfl⟩

theorem OnlyLogged.trans {s t u : State} {l : List Fld} (h : OnlyLogged s t l) (k : OnlyLogged t u l) : OnlyLogged s u l := by
  obtain ⟨h1, h2, h3, h4, h5⟩ := h
  obtain ⟨k1, k2, k3, k4, k5⟩ := k
  refine ⟨?_, h2.trans' k2, fun p => ?_, k4.trans h4, k5.trans h5⟩
  · rw [k1, h1]
  · have a := h3 p
    have b := k3 p
    rw [← b] at a
    exact a

theorem OnlyLogged.wr (s : State) (f : Fld) (v : Nat) (l : List Fld) (h : f ∈ logFields ++ l) : OnlyLogged s (s.wr f v) l :=
  ⟨rfl, SameFields.wr s f v _ h, fun _ => rfl, rfl, rfl⟩

theorem OnlyLogged.emitHost (s : State) (p : Nat) (o : Out) (l : List Fld) : OnlyLogged s (s.emitHost p o) l := by
  unfold State.emitHost; split <;> exact ⟨rfl, SameFields.rfl' s _, fun _ => rfl, rfl, rfl⟩

theorem OnlyLogged.modRec (s : State) (f : Recorder → Recorder) (l : List Fld) (ha : (f s.recorder).areaA = s.recorder.areaA)
    (hb : (f s.recorder).areaB = s.recorder.areaB) : OnlyLogged s (s.modRec f) l :=
  ⟨rfl, SameFields.rfl' s _, fun _ => rfl, ha, hb⟩

theorem OnlyLogged.setEvents (s : State) (p : Nat) (ev : List (Nat × EventQueue)) (l : List Fld) :
    OnlyLogged s (s.setHost p { s.host p with events := ev }) l := by
  refine ⟨rfl, SameFields.rfl' s _, fun q => ?_, rfl, rfl⟩
  by_cases h : q = p
  · subst h; simp
  · rw [State.host_setHost_ne _ _ _ _ h]

theorem OnlyLogged.setMsix (s : State) (p : Nat) (pend : List (Nat × Bool)) (l : List Fld) :
    OnlyLogged s (s.setHost p { s.host p with msixPending := pend }) l := by
  refine ⟨rfl, SameFields.rfl' s _, fun q => ?_, rfl, rfl⟩
  by_cases h : q = p
  · subst h; simp
  · rw [State.host_setHost_ne _ _ _ _ h]

/-- What a loop keeps, its rounds keep. -/
theorem OnlyLogged.foldl {β : Type} (l : List Fld) (f : State → β → State) (hf : ∀ s x, OnlyLogged s (f s x) l) (xs : List β)
    (s : State) : OnlyLogged s (xs.foldl f s) l := by
  induction xs generalizing s with
  | nil => exact OnlyLogged.refl s l
  | cons x r ih => exact (hf s x).trans (ih _)

theorem OnlyLogged.mono {s t : State} {l m : List Fld} (h : OnlyLogged s t l) (k : ∀ f ∈ l, f ∈ m) : OnlyLogged s t m :=
  ⟨h.1, h.2.1.mono fun f hf => by
    rcases List.mem_append.1 hf with a | a
    · exact List.mem_append_left _ a
    · exact List.mem_append_right _ (k f a), h.2.2⟩

/-! ### Recording -/

theorem State.sendVector_frame (s : State) (p v : Nat) : OnlyLogged s (s.sendVector p v) [] := by
  unfold State.sendVector
  dsimp only
  split
  · exact OnlyLogged.refl s []
  · split
    · exact OnlyLogged.setMsix s p _ []
    · exact OnlyLogged.emitHost s p _ []

theorem State.eqPost_frame (s : State) (p e : Nat) (body : List Byte) (hp : p = 0 ∨ p = 1) : OnlyLogged s (s.eqPost p e body) [] := by
  have hm : Reg.HQ_ERR_EQ_OVF p ∈ logFields ++ [] := by rcases hp with rfl | rfl <;> simp [logFields]
  unfold State.eqPost
  dsimp only
  split
  · exact (OnlyLogged.setEvents s p _ []).trans (OnlyLogged.wr _ _ _ _ hm)
  · split <;> split
    all_goals first
      | exact ((OnlyLogged.setEvents s p _ []).trans (OnlyLogged.emitHost _ p _ [])).trans (State.sendVector_frame _ p _)
      | exact (OnlyLogged.setEvents s p _ []).trans (OnlyLogged.emitHost _ p _ [])

theorem State.eqBroadcast_frame (s : State) (sel : State → Nat → Nat → Bool) (body : List Byte) :
    OnlyLogged s (s.eqBroadcast sel body) [] := by
  unfold State.eqBroadcast
  have in_ (p : Nat) (hp : p = 0 ∨ p = 1) (s : State) : OnlyLogged s (((s.host p).events.map (·.1)).foldl (fun s e =>
      if s.rdB (Reg.HQ_EQ_CFG_EN p e) && sel s p e then s.eqPost p e body else s) s) [] := by
    refine OnlyLogged.foldl [] (fun s e => if s.rdB (Reg.HQ_EQ_CFG_EN p e) && sel s p e then s.eqPost p e body else s)
      (fun s e => ?_) _ _
    split
    · exact State.eqPost_frame s p e body hp
    · exact OnlyLogged.refl s []
  simp only [List.foldl_cons, List.foldl_nil]
  exact (in_ 0 (.inl rfl) s).trans (in_ 1 (.inr rfl) _)

theorem State.admitNow_frame (s : State) (w : WaitingEvent) : OnlyLogged s (s.admitNow w) [] := by
  unfold State.admitNow
  dsimp only
  refine OnlyLogged.trans ?_ (State.eqBroadcast_frame ..)
  have a := (OnlyLogged.modRec s (fun k => { k with
      ring := Sparse.put none k.ring (s.rd Reg.EVR_STATUS_NEXT_SEQ % 65536) (some
        { seq := s.rd Reg.EVR_STATUS_NEXT_SEQ, powered := s.rd Reg.EVR_LIFE_POWERED, sev := w.sev,
          cycles := s.rd Reg.EVR_LIFE_CYCLES, source := w.source, code := w.code, payload := w.payload })
      unflushed := k.unflushed ++ [s.rd Reg.EVR_STATUS_NEXT_SEQ]
      lastSeq := Sparse.put 0 k.lastSeq w.code (s.rd Reg.EVR_STATUS_NEXT_SEQ) }) [] rfl rfl).trans
    (OnlyLogged.wr _ Reg.EVR_STATUS_NEXT_SEQ (s.rd Reg.EVR_STATUS_NEXT_SEQ + 1) [] (by simp [logFields]))
  split
  · exact a.trans (OnlyLogged.wr _ Reg.EVR_STATUS_FLUSHING 1 [] (by simp [logFields]))
  · exact a

/-- Everything that recording an event may change. -/
theorem State.recordCode_frame (s : State) (code sev src : Nat) (body : List Byte) :
    OnlyLogged s (s.recordCode code sev src body) [] := by
  have adm (s : State) (w : WaitingEvent) : OnlyLogged s (s.enterRecord w) [] := by
    unfold State.enterRecord
    split
    · exact OnlyLogged.modRec s _ [] rfl rfl
    · exact State.admitNow_frame s w
  have sup (s : State) : OnlyLogged s (s.suppress code) [] :=
    (OnlyLogged.modRec s _ [] rfl rfl).trans (OnlyLogged.wr _ Reg.EVR_CNT_SUPPRESSED _ [] (by simp [logFields]))
  unfold State.recordCode
  split
  · exact sup s
  · split
    · exact adm s _
    · dsimp only
      split
      · exact sup s
      · exact (OnlyLogged.modRec s _ [] rfl rfl).trans (adm _ _)

theorem State.record_frame (s : State) (e : Event) (src : Nat) (vals : List PayVal) :
    OnlyLogged s (s.record e src vals) [] := State.recordCode_frame ..

/-- Writing an entry to the event queues leaves the recorder, and every field but the overflow flags, as they were. -/
theorem State.eqPost_recorder (s : State) (p e : Nat) (body : List Byte) : (s.eqPost p e body).recorder = s.recorder := by
  have em (s : State) (o : Out) : (s.emitHost p o).recorder = s.recorder := by unfold State.emitHost; split <;> rfl
  have sv (s : State) (v : Nat) : (s.sendVector p v).recorder = s.recorder := by
    unfold State.sendVector; dsimp only; split <;> [rfl; (split <;> [rfl; exact em ..])]
  unfold State.eqPost
  dsimp only
  split
  · rfl
  · split <;> split <;> simp only [em, sv, State.setHost_recorder]

theorem State.eqBroadcast_recorder (s : State) (sel : State → Nat → Nat → Bool) (body : List Byte) :
    (s.eqBroadcast sel body).recorder = s.recorder := by
  have loop (p : Nat) (es : List Nat) (s : State) : (es.foldl (fun s e =>
      if s.rdB (Reg.HQ_EQ_CFG_EN p e) && sel s p e then s.eqPost p e body else s) s).recorder = s.recorder := by
    induction es generalizing s with
    | nil => rfl
    | cons e r ih =>
      rw [List.foldl_cons, ih]
      split
      · exact State.eqPost_recorder ..
      · rfl
  simp only [State.eqBroadcast, List.foldl_cons, List.foldl_nil]
  rw [loop, loop]

theorem State.eqPost_seq (s : State) (p e : Nat) (body : List Byte) (hp : p = 0 ∨ p = 1) (f : Fld)
    (hf : f.key ≠ (Reg.HQ_ERR_EQ_OVF 0).key ∧ f.key ≠ (Reg.HQ_ERR_EQ_OVF 1).key) : (s.eqPost p e body).rd f = s.rd f := by
  have em (s : State) (o : Out) : (s.emitHost p o).rd f = s.rd f := by unfold State.emitHost; split <;> rfl
  have sv (s : State) (v : Nat) : (s.sendVector p v).rd f = s.rd f := by
    unfold State.sendVector; dsimp only; split <;> [rfl; (split <;> [rfl; exact em ..])]
  unfold State.eqPost
  dsimp only
  split
  · rcases hp with rfl | rfl
    · exact State.rd_wr_ne _ _ _ _ hf.1
    · exact State.rd_wr_ne _ _ _ _ hf.2
  · split <;> split <;> simp only [em, sv, State.setHost_rd]

theorem State.eqBroadcast_seq (s : State) (sel : State → Nat → Nat → Bool) (body : List Byte) (f : Fld)
    (hf : f.key ≠ (Reg.HQ_ERR_EQ_OVF 0).key ∧ f.key ≠ (Reg.HQ_ERR_EQ_OVF 1).key) : (s.eqBroadcast sel body).rd f = s.rd f := by
  have loop (p : Nat) (hp : p = 0 ∨ p = 1) (es : List Nat) (s : State) : (es.foldl (fun s e =>
      if s.rdB (Reg.HQ_EQ_CFG_EN p e) && sel s p e then s.eqPost p e body else s) s).rd f = s.rd f := by
    induction es generalizing s with
    | nil => rfl
    | cons e r ih =>
      rw [List.foldl_cons, ih]
      split
      · exact State.eqPost_seq _ _ _ _ hp f hf
      · rfl
  simp only [State.eqBroadcast, List.foldl_cons, List.foldl_nil]
  rw [loop 1 (.inr rfl), loop 0 (.inl rfl)]

/-- An event that is admitted at once has the next number, and its record is in the ring. -/
theorem State.admitNow_logs (s : State) (w : WaitingEvent) (h : s.rd Reg.EVR_STATUS_NEXT_SEQ + 1 < 2 ^ 48) :
    Sparse.get none (s.admitNow w).recorder.ring (s.rd Reg.EVR_STATUS_NEXT_SEQ % 65536) = some
        { seq := s.rd Reg.EVR_STATUS_NEXT_SEQ, powered := s.rd Reg.EVR_LIFE_POWERED, sev := w.sev,
          cycles := s.rd Reg.EVR_LIFE_CYCLES, source := w.source, code := w.code, payload := w.payload } ∧
      (s.admitNow w).rd Reg.EVR_STATUS_NEXT_SEQ = s.rd Reg.EVR_STATUS_NEXT_SEQ + 1 := by
  unfold State.admitNow
  dsimp only
  rw [State.eqBroadcast_recorder, State.eqBroadcast_seq _ _ _ _ (by decide)]
  have hm : (s.rd Reg.EVR_STATUS_NEXT_SEQ + 1) % 2 ^ Reg.EVR_STATUS_NEXT_SEQ.width = s.rd Reg.EVR_STATUS_NEXT_SEQ + 1 :=
    Nat.mod_eq_of_lt h
  split
  · refine ⟨?_, ?_⟩
    · simp [State.setB, State.modRec]
    · rw [State.setB, State.rd_wr_ne _ _ _ _ (by decide), State.rd_wr, hm]
  · refine ⟨?_, ?_⟩
    · simp [State.modRec]
    · rw [State.rd_wr, hm]

theorem State.record_logs (s : State) (e : Event) (src : Nat) (vals : List PayVal) : Logs s (s.record e src vals) e src vals := by
  intro h
  simp only [State.admits, Bool.and_eq_true, Bool.not_eq_true', beq_iff_eq, decide_eq_true_eq, Bool.or_eq_true] at h
  obtain ⟨⟨⟨⟨h1, h2⟩, h3⟩, h4⟩, h5⟩ := h
  have adm (t : State) (ht : t.recorder.waiting = []) (hr : t.reserve = s.reserve) (hf : ∀ f, t.rd f = s.rd f) (w : WaitingEvent) :
      t.enterRecord w = t.admitNow w := by
    unfold State.enterRecord
    rw [if_neg]
    rw [ht, hr, hf]
    simp only [ne_eq, not_true_eq_false, false_or]
    omega
  unfold State.record State.recordCode
  rw [h1]
  simp only [Bool.false_eq_true, if_false]
  split
  · rw [adm s h2 rfl fun _ => rfl]
    exact State.admitNow_logs s _ h4
  · rename_i hx
    have hb : Sparse.get 64 s.recorder.buckets e.code ≠ 0 := by
      rcases h5 with h5 | h5
      · exact absurd h5 hx
      · omega
    rw [if_neg hb, adm (s.modRec fun k =>
      { k with buckets := Sparse.put 64 k.buckets e.code (Sparse.get 64 s.recorder.buckets e.code - 1) }) h2 rfl fun _ => rfl]
    exact State.admitNow_logs (s.modRec _) _ h4

end Sys2Proof.Machine
end

