-- ==== Sys2Proof/Laws/Memory.lean ====
section
/-! SUPPORT. Every operation over storage keeps the canonical forms of the memory and of the poison map. -/

namespace Sys2Proof.Machine

/-- Storage alone decides whether it is stored canonically. -/
theorem State.stored_of (s t : State) (hm : t.mem = s.mem) (hp : t.poison = s.poison) (h : s.stored) : t.stored := by
  unfold State.stored at *
  rw [hm, hp]
  exact h

/-- A loop keeps what its rounds keep. -/
theorem State.foldl_stored {β : Type} (f : State → β → State) (hf : ∀ s x, s.stored → (f s x).stored) (l : List β) (s : State)
    (h : s.stored) : (l.foldl f s).stored := by
  induction l generalizing s with
  | nil => exact h
  | cons x r ih => exact ih _ (hf s x h)

theorem State.reset_stored : State.reset.stored := ⟨rfl, rfl⟩

theorem State.putBytes_stored (s : State) (key : Nat) (bs : List Byte) (h : s.stored) : (s.putBytes key bs).stored :=
  ⟨Sparse.wf_foldl_put memDefault (fun x : Byte × Nat => key + x.2) (fun x => x.1) bs.zipIdx s.mem h.1, h.2⟩

theorem State.poisonKey_stored (s : State) (key : Nat) (h : s.stored) : (s.poisonKey key).stored := by
  have hp := s.putBytes_stored (key / 16 * 16) (List.replicate 16 0) h
  unfold State.poisonKey
  generalize s.putBytes (key / 16 * 16) (List.replicate 16 0) = t at hp
  exact ⟨hp.1, Sparse.wf_put _ _ _ _ hp.2⟩

theorem State.unpoisonKey_stored (s : State) (key : Nat) (h : s.stored) : (s.unpoisonKey key).stored :=
  ⟨h.1, Sparse.wf_put _ _ _ _ h.2⟩

theorem State.clearRange_stored (s : State) (k n : Nat) (h : s.stored) : (s.clearRange k n).stored :=
  ⟨Sparse.wf_filter _ _ _ h.1, Sparse.wf_filter _ _ _ h.2⟩

theorem State.copyRange_stored (s : State) (src dst n : Nat) (h : s.stored) : (s.copyRange src dst n).stored :=
  ⟨Sparse.wf_foldl_put memDefault (fun c : Host.Cell => c.1 - src + dst) (fun c => c.2) _ _ (s.clearRange_stored dst n h).1,
    Sparse.wf_foldl_put false (fun c : Nat × Bool => c.1 - src / 16 + dst / 16) (fun c => c.2) _ _ (s.clearRange_stored dst n h).2⟩

theorem State.zeroFrame_stored (s : State) (t f : Nat) (h : s.stored) : (s.zeroFrame t f).stored := s.clearRange_stored _ _ h

theorem State.loseSram_stored (s : State) (c : Nat) (h : s.stored) : (s.loseSram c).stored :=
  ⟨Sparse.wf_filter _ _ _ h.1, Sparse.wf_filter _ _ _ h.2⟩

theorem State.copyPage_stored (s : State) (t ta f : Nat) (b : Bool) (h : s.stored) : (s.copyPage t ta f b).stored := by
  unfold State.copyPage
  refine State.foldl_stored _ (fun s x hs => ?_) _ s h
  dsimp only
  split
  · split
    · exact State.foldl_stored (fun s w => { s with poison := Sparse.put false s.poison _ true })
        (fun s x hs => ⟨hs.1, Sparse.wf_put _ _ _ _ hs.2⟩) _ _ (s.clearRange_stored _ _ hs)
    · exact s.copyRange_stored _ _ _ hs
  · split
    · exact hs
    · exact s.copyRange_stored _ _ _ hs

theorem State.wr_stored (s : State) (f : Fld) (v : Nat) (h : s.stored) : (s.wr f v).stored :=
  State.stored_of s _ (State.wr_mem ..) (State.wr_poison ..) h

theorem State.setPage_stored (s : State) (pg : Nat) (x : Page) (h : s.stored) : (s.setPage pg x).stored :=
  State.stored_of s _ rfl rfl h

theorem State.setTier_stored (s : State) (t : Nat) (x : TierSt) (h : s.stored) : (s.setTier t x).stored :=
  State.stored_of s _ rfl rfl h

/-- Recording an event stores nothing. -/
theorem State.record_stored (s : State) (e : Event) (src : Nat) (vals : List PayVal) (h : s.stored) :
    (s.record e src vals).stored := by
  have k := (s.record_frame e src vals).1
  exact State.stored_of s _ (by rw [k]) (by rw [k]) h

theorem State.errAddr_stored (s : State) (t kind a : Nat) (h : s.stored) : (s.errAddr t kind a).stored := by
  unfold State.errAddr State.setB
  split
  · exact h
  · exact State.wr_stored _ _ _ (State.wr_stored _ _ _ (State.wr_stored _ _ _ h))

/-- Consuming poison stores nothing. -/
theorem State.consumePoison_stored (s : State) (o : Orig) (ws : List Nat) (b : Bool) (h : s.stored) :
    (s.consumePoison o ws b).stored := by
  have hc : (s.countPoison ws).stored := by
    refine State.foldl_stored _ (fun s x hs => ?_) ws s h
    split
    · exact State.wr_stored _ _ _ hs
    · exact hs
  unfold State.consumePoison
  split
  · exact h
  · dsimp only
    split
    · exact hc
    · exact State.stored_of _ _ rfl rfl (State.record_stored _ _ _ _ hc)

theorem State.poisonMoved_stored (s : State) (t ta f : Nat) (b : Bool) (ws : List Nat) (h : s.stored) :
    (s.poisonMoved t ta f b ws).stored := by
  unfold State.poisonMoved
  refine State.foldl_stored _ (fun s x hs => ?_) ws s h
  dsimp only
  split
  · exact s.poisonKey_stored _ hs
  · split
    · exact hs
    · exact s.poisonKey_stored _ hs

theorem State.movePage_stored (s : State) (pg t ta f : Nat) (b : Bool) (bad : List Nat) (h : s.stored) :
    (s.movePage pg t ta f b bad).stored := by
  unfold State.movePage
  dsimp only
  refine State.consumePoison_stored _ _ _ _ ?_
  split
  · exact State.errAddr_stored _ _ _ _ (State.poisonMoved_stored _ _ _ _ _ _ (s.copyPage_stored _ _ _ b h))
  · exact State.poisonMoved_stored _ _ _ _ _ _ (s.copyPage_stored _ _ _ b h)

theorem State.finishLeave_stored (s : State) (pg : Nat) (bad : List Nat) (h : s.stored) : (s.finishLeave pg bad).stored := by
  unfold State.finishLeave
  dsimp only
  split
  · exact State.errAddr_stored _ _ _ _ (State.setPage_stored _ _ _ h)
  · refine State.wr_stored _ _ _ (State.setTier_stored _ _ _ (State.setPage_stored _ _ _ ?_))
    split
    · exact State.movePage_stored _ _ _ _ _ _ _ h
    · exact h

theorem State.makeRoom_stored (s : State) (t cls : Nat) (h : s.stored) : (s.makeRoom t cls).stored := by
  unfold State.makeRoom
  split
  · split
    · exact s.finishLeave_stored _ _ h
    · exact h
  · exact h

theorem State.cleanFrame_stored (s : State) (t f : Nat) (h : s.stored) : (s.cleanFrame t f).stored := by
  unfold State.cleanFrame
  split
  · exact s.zeroFrame_stored _ _ h
  · exact h

theorem State.zeroDeepPage_stored (s : State) (t ta : Nat) (h : s.stored) : (s.zeroDeepPage t ta).stored := by
  unfold State.zeroDeepPage
  refine State.foldl_stored _ (fun s x hs => ?_) _ s h
  split
  · exact hs
  · exact s.clearRange_stored _ _ hs

theorem State.firstWrite_stored (s : State) (pg : Nat) (r : Region) (h : s.stored) : (s.firstWrite pg r).stored := by
  have hr := s.makeRoom_stored (s.pageHome pg).1 r.cls h
  unfold State.firstWrite
  dsimp only
  generalize s.makeRoom (s.pageHome pg).1 r.cls = u at hr
  split
  · exact State.setPage_stored _ _ _ (State.setTier_stored _ _ _ (State.setTier_stored _ _ _ (u.cleanFrame_stored _ _ hr)))
  · refine State.wr_stored _ _ _ (State.wr_stored _ _ _ (State.setPage_stored _ _ _ ?_))
    split
    · exact hr
    · exact u.zeroDeepPage_stored _ _ hr

theorem State.openPage_stored (s : State) (a : Nat) (h : s.stored) : (s.openPage a).stored := by
  unfold State.openPage
  split
  · split
    · exact s.firstWrite_stored _ _ h
    · exact h
  · exact h

theorem State.markDirty_stored (s : State) (a : Nat) (h : s.stored) : (s.markDirty a).stored := by
  unfold State.markDirty
  split
  · dsimp only
    split
    · exact State.stored_of s _ rfl rfl h
    · exact h
  · exact h

theorem State.putWord_stored (s : State) (k : Nat) (bs : List DataByte) (h : s.stored) : (s.putWord k bs).stored := by
  unfold State.putWord
  split
  · exact s.poisonKey_stored _ h
  · split
    · split
      · exact State.putBytes_stored _ _ _ (s.unpoisonKey_stored _ h)
      · exact h
    · exact s.putBytes_stored _ _ h

theorem State.writeWord_stored (s : State) (a : Nat) (bs : List DataByte) (h : s.stored) : (s.writeWord a bs).stored := by
  have ho := s.openPage_stored a h
  unfold State.writeWord
  dsimp only
  split
  · exact ho
  · split
    · exact ho
    · exact State.putWord_stored _ _ _ (State.markDirty_stored _ _ ho)

theorem State.writeBytes_stored (s : State) (a : Nat) (bs : List DataByte) (h : s.stored) : (s.writeBytes a bs).stored :=
  State.foldl_stored _ (fun s _ hs => s.writeWord_stored _ _ hs) _ s h

theorem State.openRange_stored (s : State) (a n : Nat) (h : s.stored) : (s.openRange a n).stored :=
  State.foldl_stored _ (fun s _ hs => s.openPage_stored _ hs) _ s h

theorem State.putData_stored (s : State) (k : Nat) (d : BitVec 128) (h : s.stored) : (s.putData k d).stored :=
  s.putBytes_stored _ _ h

/-- What a controller does with a word it decoded keeps the canonical forms. -/
theorem State.storageWord_stored (s : State) (t key addr pos : Nat) (row : Option Nat) (error : Word144) (h : s.stored) :
    (s.storageWord t key addr pos row error).stored := by
  have put (d : BitVec 128) : ((s.unpoisonKey key).putData key d).stored :=
    State.putData_stored _ _ _ (s.unpoisonKey_stored _ h)
  unfold State.storageWord
  split
  · split
    · exact put _
    · exact h
  · split
    · exact h
    · exact s.poisonKey_stored _ h
  · dsimp only
    refine State.wr_stored _ _ _ (State.setTier_stored _ _ _ ?_)
    split
    · exact put _
    · exact h
  · exact State.errAddr_stored _ _ _ _ (State.record_stored _ _ _ _ (State.wr_stored _ _ _ (State.wr_stored _ _ _
      (State.setTier_stored _ _ _ (s.poisonKey_stored _ h)))))

theorem State.eccHits_stored (s : State) (hs : List EccHit) (h : s.stored) : (s.eccHits hs).stored := by
  unfold State.eccHits
  refine State.foldl_stored _ (fun s x k => ?_) hs s h
  unfold State.eccHit
  split
  · exact State.stored_of s _ rfl rfl k
  split
  · exact k
  · split
    · exact State.storageWord_stored _ _ _ _ _ _ _ k
    · exact k

end Sys2Proof.Machine
end

