-- ==== Sys2Proof/Tests/Slice0.lean ====
section
/-! SUPPORT. Tests: the check of operands, words of the manual, witnesses of the statements' hypotheses, and single steps with
results worked out from the manual. -/

set_option Elab.async false

namespace Sys2Proof.Tests

open Sys2Proof Sys2Proof.Machine

/-! ### Small states -/

/-- A state with some register fields set. -/
def wrs (s : State) (l : List (Fld × Nat)) : State := l.foldl (fun s e => s.wr e.1 e.2) s

/-- The package in operation (boot phase 8, mode 1), with port A holding the control token. -/
def base : State := wrs State.reset [(Reg.MGT_STATUS_PHASE, 8), (Reg.MGT_STATUS_MODE, 1), (Reg.MGT_TOKEN_HOLDER, 1)]

/-- The same, shaped. -/
def shaped : State := base.wr Reg.SHP_STATUS_STATE 3

/-- The same, with a step running. -/
def running : State := { shaped with step := some { cmd := ⟨⟨0, 0, 0, 0, 0⟩, 0, 7, 0, 0x1FFFF, []⟩ } }

/-- A whole write of a register through port A, and one through port B. -/
def wholeA (v : Nat) : RegAccess := ⟨0, .whole, v⟩
def wholeB (v : Nat) : RegAccess := ⟨1, .whole, v⟩

/-- What a test reads of the state after a command. -/
def after (i : Instr) (s : State) (f : State → α) : Option α :=
  match exec i s with
  | .next t => some (f t)
  | _ => none

/-- No command stops. -/
def goes (i : Instr) (s : State) : Bool := (after i s fun _ => ()).isSome

/-- The canonical form of storage and of the register file, as it is evaluated. -/
def canonB (s : State) : Bool :=
  Memory.wf s.mem && Sparse.wf false s.poison && decide (s.flds.Pairwise fun a b => a.1 < b.1)

theorem canonical_of (s : State) (h : canonB s = true) : s.canonical := by
  simp only [canonB, Bool.and_eq_true, decide_eq_true_eq] at h
  exact ⟨h.1, h.2⟩

theorem base_canonical : base.canonical := canonical_of _ (by decide +kernel)

/-- A write of port A to tower 0 waits for its cache die. -/
def postedReq : HeldReq := ⟨.cacheDie 0, .port 0, .hostWrite 0, 0x4000000000, 4, [some 1, some 2, some 3, some 4]⟩

/-- The package with the cache die of tower 0 in reset. -/
def cold : State := base.setTower 0 { cacheReset := true }

/-- The same, with a tower asleep, and one on its way to sleep. -/
def asleep : State := base.setTower 0 { sleep := .asleep, trained := false }
def entering : State := base.setTower 0 { sleep := .entering }

/-! ### Witnesses: states and operands that meet the hypotheses of the statements, clause by clause -/

theorem wit_StepTakesTheFrontCommand :
    ({ base with pending := [.stepStart, .unshape (wholeA 4)] } : State).pending = .stepStart :: [.unshape (wholeA 4)] ∧
      base.pending = [] ∧ base.boot.signing = [] := by decide

theorem wit_StorageStaysCanonical :
    ({ base with mem := [(0x5000000000, 7)], pending := [.registerWrite 0 0x40000 8 0] } : State).canonical ∧
      ∃ t, step { base with mem := [(0x5000000000, 7)], pending := [.registerWrite 0 0x40000 8 0] } = .next t :=
  ⟨canonical_of _ (by decide +kernel), _, rfl⟩

theorem wit_EncodedInstructionsDecodeBack :
    (CInsn.alu 63 63 63 9).wf = true ∧ (CInsn.br 63 63 5 511).wf = true ∧ (CInsn.jmp 16777215).wf = true ∧
      (ArrCmd.load 1 31 3 1 127 127 63 63 63).wf = true ∧ (ArrCmd.qparam 1 1 1 255 255).wf = true ∧
      (VopCmd.mk 15 31 16384 16384 63 63 true).wf = true ∧ (VopCmd.mk 0 0 1 1 0 0 false).wf = true := by decide

/-- An access reaches a field that a test picks, and BAR0 serves it. -/
def reaches (s : State) (p off size v : Nat) (sel : FieldRow → Bool) : Bool :=
  match regAccess off size with
  | some (fam, ro, part) => s.bar0Open ro && fam.fields.any fun r =>
    !r.own && (writtenValue s (homeOff fam p ro) (rowFld fam p ro r) part v).isSome && sel r
  | none => false

def rejects (s : State) (p off size v : Nat) : Bool :=
  match regAccess off size with
  | some (fam, ro, part) => !s.holds p && rwtDiffers s fam p ro part v
  | none => false

theorem wit_RegisterWriteFollowsAccessCodes :
    reaches base 0 0x40010 8 (2 ^ 63 + 5) (·.acc == .rw) = true ∧
      reaches base 0 0x40000 8 0x40F03 (·.acc == .rwt) = true ∧ base.holds 0 = true ∧
      reaches base 1 0x40000 8 0x40F03 (·.acc == .rwt) = true ∧ base.holds 1 = false ∧
      rejects base 1 0x40000 8 0x40F03 = true ∧ rejects base 0 0x40000 8 0x40F03 = false ∧
      reaches base 0 0x100010 4 0x3F (·.acc == .rw1c) = true ∧ reaches base 0 0 8 0 (·.acc == .ro) = true ∧
      reaches base 0 0x40014 4 0x80000000 (·.acc == .rw) = true ∧ base.regPathLost (.port 0) 0x40010 = false ∧
      (base.setTower 0 { lost := [3] }).regPathLost (.port 0) 0x100010 = true ∧ base.postedHolder 0 = none ∧
      cold.regPathLost (.port 0) 0x100010 = false ∧ cold.regHolder (.port 0) 0x100010 = some (.cacheDie 0) ∧
      base.reaches 0 0x40010 = true ∧ base.reaches 1 0x40000 = true ∧ base.resetBits (wholeA 0x5E7A0000) = 0 ∧
      (regAccess 0x600000 8).isSome = true ∧ base.bar0Open 0x600000 = true ∧ 1 < base.tokenBits (wholeA 6) ∧
      (regAccess 0x500000 8).isSome = true ∧ base.bar0Open 0x500000 = true := by decide +kernel

/-- A register of whole, lower and upper accesses without RW1C fields. -/
def halves (s : State) (off : Nat) : Bool :=
  match regAccess off 8, regAccess off 4, regAccess (off + 4) 4 with
  | some (fam, o, .whole), some (gam, q, .lower), some (ham, r, .upper) =>
    fam == gam && gam == ham && o == off && q == off && r == off && s.bar0Open off &&
      fam.fields.all (·.acc != .rw1c) && fam.fields.any fun f => decide (f.lo < 32) && decide (32 < f.lo + f.width)
  | _, _, _ => false

theorem wit_TwoHalvesWriteTheWhole : halves base 0x40010 = true ∧ base.holds 0 = true ∧
    base.reaches 0 0x40010 = true ∧ (regAccess 0x500000 8).isSome = true ∧ base.reaches 0 0x500000 = true ∧
    base.tokenBits (wholeA 8) ≤ 1 := by decide +kernel

theorem wit_WriteOutsideRegistersIsDiscarded :
    (2 ≠ 4 ∧ 2 ≠ 8) ∧ 0x40002 % 4 ≠ 0 ∧ familyAt 0xFFFFF8 = none ∧ familyAt (0xFFFFF8 - 4) = none ∧
      (regAccess 0x60008 8).isSome = true ∧ State.reset.bar0Open 0x60008 = false ∧
      base.postedHolder 0 = none ∧ (regAccess 0x20000 8).isSome = false ∧ (wrs base [(Reg.MGT_STATUS_MODE, 3)]).bar0Open 0x60008 = false := by
  decide +kernel

/-- A read that clears: the RC fields of RED_STATUS and PWR_PKG, and the window's last word. -/
theorem wit_ReadClearReturnsThenClears :
    (match regAccess 0x300008 8 with
      | some (fam, ro, part) => base.bar0Open ro && part == .whole && fam.fields.any (·.acc == .rc)
      | none => false) = true ∧
      (match regAccess 0x50018 4 with
      | some (fam, ro, part) => base.bar0Open ro && part == .lower && fam.fields.any fun r => r.acc == .rc && decide (r.lo < 32)
      | none => false) = true ∧
      (match regAccess 0x401FC 4 with
      | some (_, ro, part) => base.bar0Open ro && part == .upper && ro == 0x401F8
      | none => false) = true ∧ (base.setB (Reg.EVR_CURSOR_AUTO 0)).rdB (Reg.EVR_CURSOR_AUTO 0) = true ∧
      base.postedHolder 0 = none ∧ base.reaches 0 0x300008 = true ∧ base.reaches 0 0x50018 = true ∧ base.reaches 0 0x401FC = true ∧
      (regAccess 0x100010 4).isSome = true ∧ base.bar0Open 0x100010 = true ∧ cold.regPathLost (.port 0) 0x100010 = false ∧
      cold.regHolder (.port 0) 0x100010 = some (.cacheDie 0) ∧ (base.setTower 0 { lost := [3] }).regPathLost (.port 0) 0x100010 = true := by
  decide +kernel

theorem wit_ClockLossAndReturn :
    (0 : Nat) ≠ 3 ∧ linkBrim 0 = 0 ∧ (∃ l < 14, linkBrim l = 3) ∧ (base.wr (Reg.HB_LINK_STATUS_STATE 0) 2).linkState 0 = 2 ∧
      (base.wr (Reg.HB_LINK_STATUS_STATE 0) 8).linkState 0 = 8 ∧ base.linkState 0 < 2 ∧
      8 < (base.wr (Reg.HB_LINK_STATUS_STATE 0) 9).linkState 0 ∧ (6 : Nat) ≤ (9 : Fin 10).val ∧
      (5 : Fin 10).val < 6 ∧ (5 : Fin 10).val ∈ ({ base with refLost := [5] } : State).refLost ∧
      (5 : Fin 10).val ∉ base.refLost := by decide +kernel

/-- RST_CTL as R482 and R483 have it written. -/
theorem wit_WarmResetsEmptyThePackage :
    base.canonical ∧ base.accessBits (wholeA 0x5E7A0001) Reg.RST_CTL_WARM = 1 ∧ base.holds 0 = true ∧
      base.accessBits (wholeA 0x5E7A0001) Reg.RST_CTL_TOWER = 0 ∧ base.accessBits (wholeA 0x5E7A0001) Reg.RST_CTL_JOB = 0 ∧
      base.accessBits (wholeA 0x5E7A0001) Reg.RST_CTL_CONFIRM = 0x5E7A ∧ base.holds 1 = false ∧
      base.accessBits (wholeA 0x5E7A0003) Reg.RST_CTL_TOWER = 1 ∧ base.accessBits (wholeA 0x5E7A0005) Reg.RST_CTL_JOB = 1 ∧
      base.postedHolder 0 = none ∧ base.bar0Open 0x600000 = true ∧ base.resetBits (wholeA 0x5E7A0000) = 0 ∧
      ({ base with recorder := { closed := true } } : State).poweringDown = true ∧ base.poweringDown = false ∧
      base.accessBits (wholeA 1) Reg.RST_CTL_CONFIRM ≠ 0x5E7A ∧ (4 ≤ (8 : Fin 10).val ∧ (8 : Fin 10).val < 9) ∧
      ({ base with recorder := { closed := true } } : State).recorder.closed = true ∧
      (({ base with boot := { types := [(0, { trial := true })] } } : State).fwType 0).trial = true ∧
      State.reset.rd Reg.MGT_STATUS_PHASE ≠ 8 ∧ base.boot.standbyTimer = 0 ∧ base.rdB Reg.MGT_STATUS_STBY_OK = false :=
  ⟨base_canonical, by decide +kernel⟩

theorem wit_TowerResetsLoseTheTower :
    base.canonical ∧ base.accessBits (wholeA 0x5E7A0802) Reg.RST_CTL_TOWER = 1 ∧
      base.accessBits (wholeA 0x5E7A0802) Reg.RST_CTL_WARM = 0 ∧ base.accessBits (wholeA 0x5E7A0802) Reg.RST_CTL_JOB = 0 ∧
      base.accessBits (wholeA 0x5E7A0802) Reg.RST_CTL_CONFIRM = 0x5E7A ∧ base.holds 0 = true ∧
      ([0, 1, 2, 3].filter fun t => bit (base.accessBits (wholeA 0x5E7A0802) Reg.RST_CTL_TMASK) t) = [3] ∧
      base.holds 1 = false ∧ (3 : Fin 10).val < 4 ∧ base.poweringDown = false ∧ base.postedHolder 0 = none ∧
      base.postedHolder 1 = none ∧ base.accessBits (wholeB 0x5E7A0802) Reg.RST_CTL_TOWER = 1 ∧ base.rd Reg.MGT_STATUS_PHASE = 8 ∧
      (base.wr Reg.MGT_STATUS_PHASE 4).rd Reg.MGT_STATUS_PHASE ≠ 8 ∧
      (∀ n < 4, (base.tower n).sleep = .entering → base.sleepHeld n = false) :=
  ⟨base_canonical, by decide +kernel⟩

theorem wit_JobResetKeepsTheImage :
    base.canonical ∧ base.accessBits (wholeA 4) Reg.RST_CTL_JOB = 1 ∧ base.holds 0 = true ∧
      base.accessBits (wholeA 4) Reg.RST_CTL_WARM = 0 ∧ base.accessBits (wholeA 4) Reg.RST_CTL_TOWER = 0 ∧
      base.postedHolder 0 = none ∧ (∀ t < 4, (base.tower t).cacheReset = false) ∧ (cold.tower 0).cacheReset = true ∧
      base.step = none ∧ base.urgentRuns = [] ∧ base.holds 1 = false ∧ running.step.isSome = true ∧
      base.rd Reg.MGT_STATUS_PHASE = 8 ∧ (base.wr Reg.MGT_STATUS_PHASE 4).rd Reg.MGT_STATUS_PHASE ≠ 8 ∧
      (∀ n < 4, (base.tower n).sleep = .entering → base.sleepHeld n = false) :=
  ⟨base_canonical, by decide +kernel⟩

/-- Both links up and nothing running: standby may begin. -/
def quietBase : State := { base with hosts := [(0, { linkUp := true, memEnable := true })] }

theorem wit_PackageStandbyEntersAndLeaves :
    base.bar0Open 0x600008 = true ∧ base.accessVal (wholeA 0x10000) 0x600008 Reg.RST_LP_STANDBY = 1 ∧
      quietBase.standby = false ∧ quietBase.postedHolder 0 = none ∧ quietBase.held = [] ∧ base.accessVal (wholeA 0) 0x600008 Reg.RST_LP_STANDBY = 0 ∧
      quietBase.rd Reg.SHP_STATUS_STATE = 0 ∧ (∀ p < 2, ∀ c < 8, Sparse.get none (quietBase.host p).dma c = none) ∧
      ({ quietBase with standby := true } : State).standby = true ∧ quietBase.holds 0 = true ∧ quietBase.holds 1 = false ∧
      (quietBase.wr Reg.SHP_STATUS_STATE 3).rd Reg.SHP_STATUS_STATE ≠ 0 ∧
      (Sparse.get none ((quietBase.setHost 1
        { dma := [(7, some ⟨⟨0, 0, 0, 0, 0⟩, true, 0, 0, 1, ⟨0x1FFFF, 0, false⟩, 0, false, 0, 0⟩)] }).host 1).dma 7).isSome = true := by
  decide +kernel

/-- Tower 0 with a change, and tower 3. -/
def tow (x : TowerSt) : State := base.setTower 0 x

/-- A host read of one deep-tier word that waits for tower 0. -/
def waiting (s : State) (h : Holder) : State := { s with held := [⟨h, .port 0, .hostRead 0 9, 0, 4, []⟩] }

def waitsB (s : State) (h : Holder) (o : Orig) (p tag a len : Nat) : Bool :=
  s.held == [⟨h, o, .hostRead p tag, a, len, []⟩] && decide (0 < len) &&
    (List.range len).all (fun i => s.holderOf o (a + i) == some h) && !s.accessFault a len false &&
    !s.rangePathLost o a len && s.failedWords a len == [] && (s.readBytes a len).all (·.isSome)

theorem wit_DieResetsHoldRequests :
    4 ∉ (base.tower 3).horizonReset ∧ base.dieOf 0 = some (0, .horizon 0) ∧
      (base.tower 0).cacheReset = false ∧ (base.tower 0).sleep = .awake ∧ (base.tower 0).trained = true ∧
      0 ∈ ((tow { horizonReset := [0], refreshDue := [(63, 2)] }).tower 0).horizonReset ∧ base.held = [] ∧
      ((tow { horizonReset := [0], refreshDue := [(63, 2)] }).tower 0).refreshDue = [(63, 2)] ∧ 63 / 64 = 0 ∧
      waitsB (waiting (tow { horizonReset := [0] }) (.horizon 0 0)) (.horizon 0 0) (.port 0) 0 9 0 4 = true ∧
      ((tow { cacheReset := true }).tower 0).cacheReset = true ∧
      waitsB (waiting (tow { cacheReset := true }) (.cacheDie 0)) (.cacheDie 0) (.port 0) 0 9 0 4 = true ∧
      ((tow { cacheReset := true }).tower 0).horizonReset = [] ∧ base.horizonsUnpowered = false ∧ base.cacheUnpowered 0 = false ∧
      ({ base with boot := { missing := [4, 5] } } : State).horizonsUnpowered = true ∧
      ({ base with boot := { missing := [4, 5] } } : State).cacheUnpowered 0 = true ∧ base.upsets = [] := by decide +kernel

theorem wit_TowerSleepLosesTheNearTier :
    (base.setB Reg.RST_LP_SLEEP_EN).maySleep 3 = true ∧
      ((rangeWords 0x4000000000 17).any fun w => (base.place w).inTiers 0) = true ∧
      ((rangeWords 0x4000000000 17).any fun w => (base.place w).inTiers 1) = false ∧ (tow { sleep := .entering }).sleepHeld 0 = false ∧
      (waiting (tow { sleep := .entering }) (.sleep 0)).sleepHeld 0 = true ∧
      (((tow { idle := true }).setB Reg.RST_LP_SLEEP_EN).tower 0).idle = true ∧
      ((tow { idle := true }).setB Reg.RST_LP_SLEEP_EN).maySleep 0 = true ∧
      base.dieOf 0x4000000000 = some (0, .cacheDie) ∧ base.dieOf 0x5000000000 = some (0, .crown) ∧
      ¬(origInCrown (.port 0) = true) ∧ (base.tower 0).cacheReset = false ∧ canonB (tow { sleep := .entering }) = true ∧
      ((tow { sleep := .entering }).tower 0).sleep = .entering ∧ base.held = [] ∧
      ((tow { sleep := .asleep, trained := false }).tower 0).sleep = .asleep ∧
      ((tow { sleep := .leaving, trained := false }).tower 0).sleep = .leaving ∧
      waitsB (waiting (tow { sleep := .leaving, trained := false }) (.sleep 0)) (.sleep 0) (.port 0) 0 9 0 4 = true := by
  decide +kernel

theorem wit_LostDomainsLoseTheirPaths :
    (base.tower 0).sleep ≠ .asleep ∧ 6 ∉ (base.tower 0).lost ∧ 6 ∉ (base.tower 0).lostOnce ∧ base.held = [] ∧
      (0, 6) ∈ base.domains (.port 0) 0x5000000000 ∧ (0, 6) ∉ base.domains (.core 0) 0x5000000000 ∧ base.pages = [] ∧
      base.keyOf (0x5000000000 + 3) = some 0x5000000003 ∧ base.failedWords 0x5000000000 16 = [] ∧
      [(⟨.port 0, 0x5000000000, [1, 2, 3, 4], .new, .fabric 1 2 3⟩ : Cut), ⟨.port 0, 0x5000000000, [1, 2, 3, 4], .poison, .none⟩,
        ⟨.port 0, 0x5000000000, [1, 2, 3, 4], .old, .none⟩].length = 3 ∧
      base.homeLostPages 0 = [] ∧
      ({ base with pages := [(0, { state := .homeLost })] } : State).homeLostPages 0 = [0] ∧
      (5 ∉ ((tow { lostOnce := [5] }).tower 0).lost ∧ 5 ∈ ((tow { lostOnce := [5] }).tower 0).lostOnce) ∧
      (1 ∈ ((tow { lost := [1], lostOnce := [1] }).tower 0).lost ∧ 1 ∉ ((tow { lost := [1], lostOnce := [1] }).tower 0).staysOff) ∧
      ((tow { sleep := .asleep }).tower 0).sleep = .asleep ∧ (0 : Fin 7).val = 0 := by decide +kernel

/-- Frames for the cache die of tower 0 (address 6), and for its crown (7). -/
def testMode : State := { base with boot := { siltTest := true } }
def siltTo (dst ty : Nat) : List Byte := siltFrame dst 0 ty [1, 2, 3, 4, 5, 6, 7, 8]

theorem wit_SiltFramesAreAcknowledged :
    siltOk (siltTo 6 2) = true ∧ fieldNat (siltTo 6 2) 2 1 = 2 ∧ fieldNat (siltTo 6 2) 0 1 % 32 = siltAddr 0 6 ∧
      siltOk (siltTo 6 1) = true ∧ fieldNat (siltTo 6 1) 2 1 = 1 ∧ siltOk (siltTo 7 5) = true ∧
      fieldNat (siltTo 7 5) 2 1 = 5 ∧ ¬fieldNat (siltTo 7 5) 0 1 % 32 = siltAddr 0 6 ∧
      (base.siltSender 0 6 .up).waiting = none ∧ State.reset.rd Reg.MGT_STATUS_PHASE < 8 ∧
      (base.rd Reg.MGT_STATUS_PHASE = 8 ∧ base.boot.siltTest = false ∧ base.siltOnly 0 6 = false ∧ base.siltOnly 0 0 = false) ∧
      (let u := base.setTower 0 { untrained := true }
       (u.tower 0).untrained = true ∧ u.siltCarries 0 (siltTo 6 4) = true) ∧ (base.tower 0).untrained = false ∧
      (let u := base.setTower 0 { lost := [3] }
       u.siltOpen 0 (siltTo 6 4) = true ∧ u.siltCarries 0 (siltTo 6 4) = false ∧ siltOk (siltTo 6 4) = true ∧
         fieldNat (siltTo 6 4) 2 1 = 4 ∧ u.siltOpen 0 (siltTo 6 7) = true) ∧ base.siltOpen 0 (siltTo 6 2) = false ∧
      testMode.siltCarries 0 (siltTo 6 2) = true ∧ testMode.siltCarries 0 (siltTo 6 7) = true ∧
      (base.setTower 0 { lost := [3] }).siltCarries 0 (siltTo 6 2) = true ∧ base.siltCarries 0 (siltTo 6 2) = false ∧ siltOk (siltTo 6 7) = true ∧ fieldNat (siltTo 6 7) 2 1 = 7 ∧
      siltOk (siltTo 6 0) = true ∧ fieldNat (siltTo 6 0) 2 1 = 0 ∧ siltOk (List.replicate 72 0) = false := by
  decide +kernel

/-- The sender of the cache die of tower 0 toward the crown waits for an acknowledgement. -/
def sending (n : Nat) (q : List (List Byte)) : State :=
  { base with silt := [(12, { waiting := some (siltTo 7 5), resends := n, queue := q }),
                       (13, { waiting := some (siltTo 7 5), resends := n, queue := q })] }

theorem wit_SiltSendersResendEightTimes :
    siltOk (siltTo 6 6) = true ∧ fieldNat (siltTo 6 6) 2 1 = 6 ∧
      ((sending 0 []).siltSender 0 6 (siltBack .down)).waiting = some (siltTo 7 5) ∧
      ((sending 7 []).siltSender 0 6 .up).resends < 8 ∧ 8 ≤ ((sending 8 []).siltSender 0 6 .up).resends ∧
      ((sending 8 []).siltSender 0 6 .up).queue = [] := by decide +kernel

theorem wit_BridgeFailureReroutes :
    (3 : Fin 4).val ∉ base.bridgesFailed ∧ base.bridgesFailed = [] ∧
      (3 : Fin 4).val ∈ ({ base with bridgesFailed := [3] } : State).bridgesFailed := by decide

/-- Core 0 with something in array F. -/
def arrF (y : ArraySt) : State := base.setArr 0 .F y
/-- A command at the head of array F's queue. -/
def headF (w : Nat) : State := arrF { queue := [{ word := w, thread := .F }] }

def atHeadB (s : State) (e : ArrEntry) (cmd : Option ArrCmd) : Bool :=
  (s.arr 0 .F).queue.head? == some e && decodeArr e.word == cmd && !s.power.stopped &&
    ((s.arr 0 .F).queue ++ (s.arr 0 .F).entering).all fun e => decide (1 ≤ bits e.word 63 60) && decide (bits e.word 63 60 ≤ 5)

/-- A LOAD of a full BF16 stationary: 32 × 64, base in s1, stride in s2. -/
def loadWord : Nat := encodeArr (.load 0 1 0 0 32 64 1 2 0)

/-- Thread F of core 0 with registers s1 and s2 for a load from local SRAM. -/
def withRegs (s : State) (l : List (Nat × Nat)) : State := s.setThr 0 .F { s.thr 0 .F with regs := l }

theorem wit_BadArrayCommandsAreDiscarded :
    atHeadB (headF 0x2000000000000001) { word := 0x2000000000000001, thread := .F } none = true ∧
      atHeadB (headF 0x1000000000000001) { word := 0x1000000000000001, thread := .F } none = true ∧
      atHeadB (headF 0x3000000000000FFF) { word := 0x3000000000000FFF, thread := .F } none = true ∧
      atHeadB (headF 0x4000000000000001) { word := 0x4000000000000001, thread := .F } none = true ∧
      atHeadB (headF 0x5100000000000000) { word := 0x5100000000000000, thread := .F } none = true ∧
      ((headF 0x2000000000000001).arr 0 .F).stream.any (·.next == 0) = false ∧ ∀ th, ((headF 0x2000000000000001).thr 0 th).ops = [] :=
  ⟨by decide +kernel, by decide +kernel, by decide +kernel, by decide +kernel, by decide +kernel, by decide +kernel,
    fun th => by cases th <;> decide +kernel⟩

/-- A stationary, as a LOAD of one BF16 row and column left it. -/
def stat1 : Stationary := ⟨.load 0 1 0 0 1 1 1 2 0, [0, 0, 0, 0], none, .bf16, 0, 1, [[some (.fin false 1 0)]], []⟩

def loadState : State := withRegs (headF loadWord) [(1, 0x5000000000), (2, 64)]

theorem wit_ZeroPointsAndStationaries :
    atHeadB (headF (encodeArr (.qparam 0 1 1 255 255))) { word := encodeArr (.qparam 0 1 1 255 255), thread := .F }
        (some (.qparam (arrBit .F) 1 1 255 255)) = true ∧
      atHeadB loadState { word := loadWord, thread := .F } (some (.load (arrBit .F) 1 0 0 32 64 1 2 0)) = true ∧
      loadState.cmdReg 0 { word := loadWord, thread := .F } 2 = 64 ∧
      loadOk .F 64 (.load (arrBit .F) 1 0 0 32 64 1 2 0) = true ∧ Fmt.ofCode 1 = some .bf16 ∧ fmtClass .bf16 = some 0 ∧
      (loadState.arr 0 .F).shadowValid = false ∧ (loadState.arr 0 .F).loading = none ∧
      (loadState.arr 0 .F).saving = false ∧ (loadState.arr 0 .F).preempting = false ∧
      loadState.cmdReg 0 { word := loadWord, thread := .F } 1 = 0x5000000000 ∧ ((loadRanges (.load (arrBit .F) 1 0 0 32 64 1 2 0) [0x5000000000, 64, 0, 64]).all fun r =>
        decide (0x5000000000 ≤ r.1) && decide (r.1 + r.2 ≤ 0x5000100000)) = true ∧ loadState.poison = [] ∧
      (base.setArr 0 .F { shadowValid := true }).arr 0 .F = { shadowValid := true } ∧ ((arrF { loading := some stat1 }).arr 0 .F).loading = some stat1 ∧
      atHeadB (headF 0x2000000000000000) { word := 0x2000000000000000, thread := .F } (some (.swap (arrBit .F))) = true ∧
      ((headF 0x2000000000000000).arr 0 .F).loading = none ∧ ((headF 0x2000000000000000).arr 0 .F).stream = none := by
  decide +kernel

def streamCmd (tr rows : Nat) : ArrCmd := .stream 0 1 0 tr 1 0 0 rows 0 1 0 1 2 3
def stream1 (tr rows next : Nat) : StreamSt := ⟨streamCmd tr rows, .F, 0x5000000000, 64, 0, 0, none, next, false⟩

/-- A STREAM of one row at the head, with its stationary live and its slot valid. -/
def streamState : State :=
  (arrF { queue := [{ word := encodeArr (streamCmd 0 32), thread := .F }], live := some stat1 }).installSlot 0 .F 0 ⟨true, 0, 1, 0⟩

theorem wit_StreamsIssueTheirRows :
    atHeadB streamState { word := encodeArr (streamCmd 0 32), thread := .F } (some (streamCmd 0 32)) = true ∧
      ((arrF { stream := some (stream1 0 32 1) }).arr 0 .F).stream.isSome = true ∧
      (streamState.arr 0 .F).stream = none ∧ (streamState.arr 0 .F).preempting = false ∧
      streamState.streamOk 0 .F 64 0 (streamCmd 0 32) = true ∧ streamState.power.stopped = false ∧
      (let s := arrF { stream := some (stream1 1 32 0), live := some stat1 }
       (match (s.setArr 0 .F (s.arr 0 .F).dropBlocks).fillNext 0 .F with
        | some (j, i) => j.ahead && j.rows == 32 && j.ks == 32 && j.base == 0x5000000000 && j.stride == 64 && j.part == 0 && i == 0
        | none => false) = true ∧ s.poison = [] ∧ (64 * 0 + 32) * 16 / 8 + 1 ≤ 0x100000) ∧
      (let y : ArraySt := { stream := some (stream1 0 1 0), live := some stat1, fuller := { phase := .full } }
       let s := arrF y
       y.workReady = true ∧ y.fuller.mayIssue = true ∧ y.queue ++ y.entering = [] ∧
         (readStreamRow 0 (stream1 0 1 0) .bf16 0 (innerLen .F stat1) 0 none { s, met := false }).2.2.fault = false ∧
         (readStreamRow 0 (stream1 0 1 0) .bf16 0 (innerLen .F stat1) 0 none { s, met := false }).2.2.held = false ∧
         (readStreamRow 0 (stream1 0 1 0) .bf16 0 (innerLen .F stat1) 0 none { s, met := false }).2.2.s = s) ∧
      ({ phase := .full } : Fuller).mayIssue = true ∧ ({} : ArraySt).workReady = false ∧
      ({ queue := [{ word := 0x2000000000000000, thread := .F }], loading := some stat1 } : ArraySt).swapPending = true := by
  decide +kernel

theorem wit_RowsAccumulateColumnByColumn : (64 : Nat) ≤ 64 := by decide

/-- A fuller in a phase, with a command's row ready. -/
def fullerF (f : Fuller) : State := arrF { stream := some (stream1 0 32 0), fuller := f }

theorem wit_FullersRampInStepsUnderQuotas :
    base.power.stopped = false ∧ ((fullerF {}).arr 0 .F).workReady = true ∧ ((fullerF {}).arr 0 .F).fuller.phase = .idle ∧
      ((fullerF {}).arr 0 .F).fuller.granted = false ∧
      ((fullerF { phase := .rampDown, step := 3 }).arr 0 .F).fuller.phase = .rampDown ∧
      (let f := ((fullerF { phase := .waitDown, step := 8, granted := true }).arr 0 .F).fuller
       f.granted = true ∧ f.later = false ∧ f.phase = .waitDown) ∧
      (let f := ((fullerF { phase := .waitUp, granted := true }).arr 0 .F).fuller
       f.granted = true ∧ f.later = false ∧ f.phase = .waitUp) ∧
      (let y := (fullerF { phase := .waitDown, step := 8 }).arr 0 .F
       y.fuller.phase = .waitDown ∧ 8 ≤ y.fuller.step ∧ y.fuller.granted = false ∧ y.workReady = true) ∧
      base.reaches 0 (0x1000100 + 3 * 0x400000) = true ∧ ({} : ArraySt).workReady = false ∧
      (base.crown 0).holdCycles ≤ ((fullerF { phase := .hold, held := 16 }).arr 0 .F).fuller.held ∧
      (let f : Fuller := { phase := .rampUp, step := 7, cyc := 6 }
       f.phase = .rampUp ∧ f.stepOver = true ∧ f.step < 8) ∧
      (let f : Fuller := { phase := .rampDown, step := 1, cyc := 6 }
       f.phase = .rampDown ∧ f.stepOver = true ∧ 0 < f.step) ∧
      (let f : Fuller := { phase := .rampUp, step := 8, cyc := 6 }
       f.phase = .rampUp ∧ f.stepOver = true ∧ f.step = 8) ∧
      (let f : Fuller := { phase := .rampDown, step := 0 }
       f.phase = .rampDown ∧ f.stepOver = true ∧ f.step = 0) ∧
      (wholeA 0x7F3F0F).part = .whole ∧ base.holds 0 = true := by
  decide +kernel

theorem wit_SlotDescriptorsAreCheckedAsWritten :
    base.reaches 0 (slotOff 575 .B 15) = true ∧ running.reaches 0 (slotOff 575 .B 15) = true ∧ base.step = none ∧ (Slot.ofNat 0).valid = false ∧
      base.slotRefused 575 .B 15 (Slot.ofNat 0x80000000) = false ∧ (Slot.ofNat 0xF0000000).valid = true ∧
      base.slotRefused 575 .B 15 (Slot.ofNat 0xF0000000) = true ∧ running.step.isSome = true ∧
      (let s := (arrF { deferred := [(15, 0, .F)] }).setThr 0 .F { wait := some .slot }
       (s.arr 0 .F).deferred = [(15, 0, .F)] ∧ (s.arr 0 .F).slotBusy .F 15 = false ∧ s.power.stopped = false ∧
         (s.thr 0 .F).wait = some .slot ∧ (s.arr 0 .B).deferred = []) := by decide +kernel

def drainCmd : ArrCmd := .drain 0 0 0 0 0 0 0 0
def drain1 : DrainSt := ⟨drainCmd, .F, 0, 0, 32, ⟨[], 0, 0, [], [], []⟩, 0, false, 0⟩

/-- A QUANT stage to BF16 whose parameter block s1 names. -/
def quantStage : Nat := 14 * 2 ^ 60 + 1 * 2 ^ 55 + 1 * 2 ^ 5

def drainState : State :=
  withRegs (wrs ((headF (encodeArr drainCmd)).installSlot 0 .F 0 ⟨true, 0, 0, 0⟩)
    [(Reg.CRN_VEC_HDR_VALID 0 0 0, 1), (Reg.CRN_VEC_STG_ENTRY 0 0 0 0, quantStage)]) [(1, 0x5000000000)]

/-- The same with a RESCALE stage to FP32, on an integer tile; its record, at s1, is all zeros. -/
def rescaleStage : Nat := 15 * 2 ^ 60 + 1 * 2 ^ 41
def rescaleState : State :=
  withRegs (wrs ((headF (encodeArr drainCmd)).installSlot 0 .F 0 ⟨true, 1, 0, 0⟩)
    [(Reg.CRN_VEC_HDR_VALID 0 0 0, 1), (Reg.CRN_VEC_STG_ENTRY 0 0 0 0, rescaleStage)]) [(1, 0x5000000000)]

def savedArr : ArraySaved := ⟨none, none, false, none, none, [], [0, 0, 0, 0], true⟩

/-- An urgent unit has taken core 0, and array F is being preempted. -/
def urgentState (y : ArraySt) : State :=
  let x : CoreSt := { urgent := true, thrU := { running := true } }
  ({ base with urgents := [⟨0, 1, 1, 0, 0x1FFFF, 0, 1, 0, 1⟩] }.setCore 0 x).setArr 0 .F y

theorem wit_DrainsAndPreemption :
    atHeadB drainState { word := encodeArr drainCmd, thread := .F } (some drainCmd) = true ∧
      (drainState.arr 0 .F).drain = none ∧ (drainState.arr 0 .F).preempting = false ∧
      drainState.drainOk 0 .F 0 0 0 0 0 0 = true ∧ (drainState.chainStages 0 0).map stKind = [14] ∧
      rescaleState.drainOk 0 .F 0 0 0 0 0 0 = true ∧ (rescaleState.chainStages 0 0).map stKind = [15] ∧
      (Rescale.ofBytes ((readRecord 0 .F 0x5000000000 { s := rescaleState }).1.map (·.getD 0))).ok .fp32 0 = true ∧
      chainRules (drainState.chainStages 0 0) false = true ∧
      stageBlocks 64 (fun r => ((drainState.thr 0 .F).snapshot).getD r 0) (drainState.chainStages 0 0) = [(0x5000000000, 64)] ∧
      drainState.poison = [] ∧ columnVectors (fun r => ((drainState.thr 0 .F).snapshot).getD r 0) (drainState.chainStages 0 0) = [] ∧
      ((arrF { drain := some drain1 }).drainRows 0 .F drain1 [] 0 32).isSome = true ∧
      ((arrF { drain := some drain1 }).arr 0 .F).drain = some drain1 ∧ ((arrF { drain := some drain1 }).core 0).drainWaits .F drain1 = false ∧
      ((urgentState {}).core 0).urgent = true ∧ ((urgentState {}).arr 0 .F).saved = none ∧
      ((urgentState {}).arr 0 .F).drain = none ∧
      (let s := (urgentState { preempting := true, saved := some savedArr }).installSlot 0 .F 0 ⟨true, 0, 0, 0⟩
       (s.arr 0 .F).preempting = true ∧ (s.arr 0 .F).saving = false ∧ (s.arr 0 .F).fuller.phase = .idle ∧
         s.urgentDesc 0 = some ⟨0, 1, 1, 0, 0x1FFFF, 0, 1, 0, 1⟩ ∧ ((List.range 16).map (s.slot 0 .F)).any (·.valid) = true) ∧
      (let s := urgentState { drain := some drain1 }
       (s.core 0).urgent = true ∧ (s.arr 0 .F).saved = none ∧ (s.arr 0 .F).drain = some drain1 ∧ (s.core 0).drainWaits .F drain1 = false ∧
         clampNat drain1.next drain1.rows 1 ≠ drain1.next ∧ (s.drainRows 0 .F drain1 [] 0 1).isSome = true) ∧
      ((urgentState { saving := true }).arr 0 .F).saving = true ∧
      (let s := (urgentState { saved := some savedArr }).setThr 0 .U {}
       (s.arr 0 .F).saved = some savedArr ∧ savedArr.record = true ∧ savedArr.live = none ∧ savedArr.shadow = none ∧
         (s.thr 0 .U).running = false ∧ (s.core 0).urgent = true ∧ (s.arr 0 .F).queue = [] ∧
         (s.arr 0 .F).stream = none ∧ (s.arr 0 .F).preempting = false ∧
         (recordSlots .F (s.readBytes (s.saveBase 0 .F) 128)).isSome = true ∧ savedArr.zp = [0, 0, 0, 0]) := by decide +kernel

/-- Core 0 with a command in its vector queue. -/
def vecF (w : Nat) : State := base.setCore 0 { vecQueue := [⟨w, .F⟩] }

/-- A VOP of one BF16 element from the address in s1, through chain 0, whose stage sums to s2. -/
def vopCmd : VopCmd := ⟨0, 1, 1, 1, 1, 0, false⟩
def sumStage : Nat := 7 * 2 ^ 60 + 2 * 4 + 2
def vopState : State :=
  withRegs (wrs (vecF (encodeVop vopCmd)) [(Reg.CRN_VEC_HDR_VALID 0 0 0, 1), (Reg.CRN_VEC_STG_ENTRY 0 0 0 0, sumStage)])
    [(1, 0x5000000000)]

/-- Core 0 with a VOP running. -/
def vopRunning (v : VopRun) : State := base.setCore 0 { vop := some v }
def vopRun1 : VopRun := ⟨.F, none, [], [], none⟩

/-- The same VOP with FENCE, while a DRAIN of array B runs. -/
def fenceCmd : VopCmd := { vopCmd with fence := true }
def fenceState : State :=
  let s := withRegs (wrs (vecF (encodeVop fenceCmd)) [(Reg.CRN_VEC_HDR_VALID 0 0 0, 1), (Reg.CRN_VEC_STG_ENTRY 0 0 0 0, sumStage)])
    [(1, 0x5000000000)]
  s.setCore 0 { (s.core 0) with arrB := { drain := some drain1 }, drainNo := 1 }

theorem wit_VectorOperationsCommitAtTheirEnd :
    ((vecF 0x9000000000000000).core 0).vecQueue = ⟨0x9000000000000000, .F⟩ :: [] ∧ decodeVop 0x9000000000000000 = none ∧
      (∀ th, ((vecF 0x9000000000000000).thr 0 th).ops = []) ∧
      (vopState.core 0).vecQueue = ⟨encodeVop vopCmd, .F⟩ :: [] ∧ (vopState.core 0).vop = none ∧
      (vopState.arr 0 .F).drain = none ∧ decodeVop (encodeVop vopCmd) = some vopCmd ∧ vopCmd.fence = false ∧
      Fmt.ofCode vopCmd.ifmt = some .bf16 ∧ Fmt.bf16.isMx = false ∧ vopState.chainStages 0 0 = [sumStage] ∧
      stKind sumStage = 7 ∧ chainRules [sumStage] false = true ∧ vopOk vopCmd (vopState.chainHdr 0 0) [sumStage] = true ∧
      (vopState.chainHdr 0 0).ssreg = 0 ∧ (vopState.thr 0 .F).reg 1 = 0x5000000000 ∧ vopState.poison = [] ∧
      ((vopRunning vopRun1).core 0).vop = some vopRun1 ∧ vopRun1.fence = none ∧ vopRun1.stores = [] ∧ vopRun1.counts = [] ∧ vopRun1.toscal = none ∧
      ({ vopRun1 with toscal := some ⟨63, some (2 ^ 64), none⟩ } : VopRun).toscal = some ⟨63, some (2 ^ 64), none⟩ ∧
      base.accessFault 0x50000FFFF0 16 true = false ∧ base.inRegion 0x50000FFFF0 = false ∧
      base.rangePathLost (.core 0) 0x50000FFFF0 16 = false ∧ base.failedWords 0x50000FFFF0 16 = [] ∧
      base.storesHeld (.core 0) [(0x50000FFFF0, List.replicate 16 none)] = false ∧ stToscal sumStage = true ∧
      (fenceState.core 0).vecQueue = ⟨encodeVop fenceCmd, .F⟩ :: [] ∧ (fenceState.core 0).vop = none ∧
      (fenceState.arr 0 .F).drain = none ∧ (fenceState.arr 0 .B).drain = some drain1 ∧ drain1.seq < (fenceState.core 0).drainNo ∧
      decodeVop (encodeVop fenceCmd) = some fenceCmd ∧ fenceCmd.fence = true ∧
      vopOk fenceCmd (fenceState.chainHdr 0 0) (fenceState.chainStages 0 0) = true ∧
      ((fenceState.chainStages 0 0).all fun k => stKind k != 9 && stKind k != 13 && stKind k != 14) = true ∧
      ({ vopRun1 with fence := some ⟨0, { regs := [], blocks := [] }, false, 1⟩ } : VopRun).fence.isSome = true ∧
      (let w : VopFence := ⟨encodeVop fenceCmd, { regs := [], blocks := [] }, false, 1⟩
       let v : VopRun := { vopRun1 with fence := some w }
       let s := (vopRunning v).setArr 0 .B { drain := some drain1 }
       (s.core 0).vop = some v ∧ v.fence = some w ∧ (s.arr 0 .B).drain = some drain1 ∧ drain1.seq < w.before) :=
  ⟨by decide +kernel, by decide +kernel, fun th => by cases th <;> decide +kernel, by decide +kernel⟩

theorem wit_ChainsAndCounterBanks :
    base.reaches 0 (chainOff 575 15 (some 7)) = true ∧ running.reaches 0 (chainOff 575 15 none) = true ∧
      running.step.isSome = true ∧ base.step = none ∧ (0 : Nat) ≤ (base.chainHdr 575 15).nst ∧
      partLow (wholeA 2).part = true ∧ base.reaches 0 (bankClear (.crown 3)) = true ∧ base.reaches 0 (bankClear (.update 3)) = true ∧
      base.reaches 0 (bankOff (.core 575)) = true ∧ bits (wholeA 0x1107).value 12 8 ≤ 0x11 ∧
      0x11 < bits (wholeA 0x1200).value 12 8 ∧ bit (wholeA 2).value 1 = true ∧ bit (wholeA 1).value 0 = true ∧
      base.rd (bankFlds (.update 3)).1 ≤ 0x11 := by decide +kernel

/-- A flex job block: one DRAIN to either array, nothing to wait for. -/
def jobBytes : List Byte :=
  padBytes 192 (leBytes 8 (1 * 2 ^ 54) ++ List.replicate 80 0 ++ leBytes 8 (encodeArr drainCmd))

/-- Flex core 13 (row 1, column 1), its scheduler enabled, with a block at the start of its SRAM. -/
def flexState (bs : List Byte) : State :=
  wrs (base.putBytes (0x5000000000 + 13 * 0x100000) bs) [(Reg.CRN_FLEX_CFG_EN 0 13, 1)]

def job1 : FlexJob := ⟨.F, 0, 0, false, 0, [], List.replicate 8 0, [encodeArr drainCmd]⟩

theorem wit_FlexJobsArePostedAndAssigned :
    isFlex 0 = false ∧ base.postedHolder 0 = none ∧ isFlex 13 = true ∧ base.reaches 0 (0x1010048 + 13 * 0x1000) = true ∧
      (flexState jobBytes).rdB (Reg.CRN_FLEX_CFG_EN 0 13) = true ∧ ((flexState jobBytes).core 13).jobs.length < 16 ∧
      ((List.range 192).map fun i => (flexState jobBytes).readByte (0x5000000000 + 13 * 0x100000 + (bits 0 19 6 * 64 + i) % 0x100000))
        = jobBytes.map some ∧ jobOf .F jobBytes = some job1 ∧ jobOf .F (List.replicate 192 0) = none ∧
      ((List.range 192).map fun i =>
        (flexState []).readByte (0x5000000000 + 13 * 0x100000 + (bits 0xFFFC0 19 6 * 64 + i) % 0x100000)) =
        (List.replicate 192 (0 : Byte)).map some ∧
      (let s := (flexState []).setCore 13 { jobs := [job1] }
       s.power.stopped = false ∧ (s.core 13).urgent = false ∧ (s.core 13).jobs = [job1] ∧ (s.core 13).bindings = [] ∧
         job1.group = 0 ∧ job1.arrSel = 0 ∧ job1.conds.all s.condHolds = true ∧ (s.arr 13 .F).canTake = true ∧
         (s.arr 13 .B).canTake = true ∧ [Arr.F, .B].all (fun a => (s.arr 13 a).queue ++ (s.arr 13 a).entering == []) = true) := by
  decide +kernel

/-- Thread F of core 0 about to issue an instruction, with some registers. -/
def insnState (w : Nat) (regs : List (Nat × Nat)) : State :=
  (base.putBytes 0x5000000000 (leBytes 4 w)).setThr 0 .F { running := true, regs }
def issues (i : CInsn) (regs : List (Nat × Nat)) : Bool := (insnState (encodeInsn i) regs).issuing 0 .F == some i

theorem wit_ComputeAndBranchInstructions :
    issues (.alu 63 63 63 9) [(63, 2 ^ 64 - 1)] = true ∧ issues (.alu 0 1 2 0) [] = true ∧
      issues (.addi 1 2 4095) [] = true ∧ issues (.lix 63 262143) [] = true ∧ issues (.br 1 2 5 511) [] = true ∧
      issues (.jmp 16777215) [] = true ∧ (insnState 0 []).upsets = [] := by decide +kernel

theorem wit_MemoryAndEngineInstructions :
    (insnState 0 []).fetched 0 .F = insnState 0 [] ∧ issues (.ld 3 1 4095) [(1, 0x5000000008)] = true ∧ issues (.st 3 1 0) [(1, 0x50000FFFF8)] = true ∧
      ((0x5000000008 + 8 * signed 12 4095) % 2 ^ 64).toNat = 0x5000000000 ∧ base.poison = [] ∧
      issues (.acmd 1 0) [(1, 0x2000000000000000)] = true ∧ issues (.vcmd 1) [] = true ∧
      base.rd (Reg.CRN_FLEX_CFG_EN 0 0) = 0 ∧ (base.arr 0 .F).queue.length < 8 ∧ (base.arr 0 .F).entering = [] ∧
      bits 0x2000000000000000 63 60 = 2 ∧ (base.core 0).vecQueue.length < 8 ∧
      issues (.ld 3 1 0) [(1, 0x10)] = true ∧ base.rangeHolder (.core 0) 0x10 8 = none ∧
      (base.memRead (.core 0) 0x10 8).1 = stOk ∧ (base.memRead (.core 0) 0x10 8).2.1 = (List.replicate 8 (0 : Byte)).map some ∧
      (let s := base.setTower 0 { cacheReset := true }
       (s.rangeHolder (.core 0) 0x10 8).isSome = true) ∧
      (base.memRead (.core 0) 0x7000000000 8).1 = stAddrFault ∧ (base.memWrite (.core 0) 0x7000000000 [none]).1 = stAddrFault ∧
      running.step.isSome = true ∧ base.place 0x6000000000 = .reg 0 ∧ regionFault 0x81 8 true = true ∧
      regionFault 0x1010048 8 true = false ∧ (base.memWrite (.core 0) 0x10 (List.replicate 8 (some 1))).1 = stOk ∧
      base.storeWaits 0 .F 0x1010048 0 = false ∧
      (wrs base [(Reg.CRN_FLEX_CFG_EN 0 13, 1)]).rdB (Reg.CRN_FLEX_CFG_EN 0 13) = true ∧
      bits 0x6000000000000000 63 60 = 6 ∧
      (let s := (insnState (encodeInsn (.acmd 1 0)) [(1, 0x2000000000000000)]).setArr 0 .F
        { queue := List.replicate 8 { word := 0x2000000000000000, thread := .F } }
       s.issuing 0 .F = some (.acmd 1 0) ∧ 8 ≤ (s.arr 0 .F).queue.length) ∧
      (let s := insnState (encodeInsn (.vcmd 1)) []
       let s := s.setCore 0 { s.core 0 with vecQueue := List.replicate 8 ⟨0, .F⟩ }
       s.issuing 0 .F = some (.vcmd 1) ∧ 8 ≤ (s.core 0).vecQueue.length) := by decide +kernel

def plainB (s : State) (o : Nat) : Bool := s.barriersAt o == [] && (s.host 0).events == [] && (s.host 1).events == []

/-- A work unit of thread F of core 0 that signals object 5. -/
def unit1 : UnitDesc := ⟨0, 0, 0, 1, 0xFFFF, false, 64, ⟨0x1FFFF, 0, false⟩, ⟨0x1FFFF, 0, false⟩, 5, 0, 1, 0, 1, 0⟩

theorem wit_SyncInstructionsAndUnitEnds :
    ((insnState 0 []).fetched 0 .F = insnState 0 [] ∧ cold.objHolder (coreOrig 0) 5 = none ∧
      asleep.objHolder (coreOrig 144) 5 = some (.sleep 0) ∧ base.crownPathLost (coreOrig 0) 0 = false ∧
      (base.setTower 0 { lost := [6] }).crownPathLost (coreOrig 0) 3 = true ∧
      (let s := insnState 0 []
       poisonWords (sramBase 0 + 0) (s.fetch 0 0).1 = []) ∧
      (let s := { insnState 0 [] with poison := [(0x500000000, true)] }
       s.insn 0 .F = some none ∧ poisonWords (sramBase 0 + 0) (s.fetch 0 0).1 = [0x5000000000])) ∧
    ((base.core 0).quiet .F = true ∧ (base.thr 0 .F).ops = [] ∧ plainB base 0x1FFFF = true ∧
      base.objReached (coreOrig 0) 0x1FFFF = true ∧ (base.setTower 0 { lost := [6] }).objReached (coreOrig 0) 0x1FFFF = false ∧
      (base.setTower 0 { lost := [3] }).cutOff (.core 0) = true ∧ base.cutOff (.core 575) = false) ∧
      issues (.sadd 1 2) [(1, 131071)] = true ∧ issues (.sset 1 2) [(1, 131071)] = true ∧
      issues (.swait 1 2 1) [] = true ∧ issues (.radd 1 2) [] = true ∧ issues .fence [] = true ∧
      issues .endUnit [] = true ∧
      (let s := { (base.setThr 0 .F { running := true, wait := some (.sync 7 3 true) }) with sync := [(7, 3)] }
       (s.thr 0 .F).wait = some (.sync 7 3 true) ∧ s.power.stopped = false ∧ s.obj 7 = 3) ∧
      (base.setThr 0 .F { wait := some (.sync 7 3 false) }).obj 7 < 3 ∧
      (let s := (vopRunning vopRun1).setThr 0 .F { running := true }
       (s.core 0).quiet .F = false) ∧
      (let s := { insnState (encodeInsn .endUnit) [] with units := [unit1] }
       s.issuing 0 .F = some .endUnit ∧ (s.core 0).quiet .F = true ∧ (s.core 0).jobs = [] ∧ s.remoteAdds = [] ∧
         s.units[(s.thr 0 .F).unit]? = some unit1 ∧ unit1.slotEnd = false ∧ plainB s unit1.signal = true ∧
         s.objReached (coreOrig unit1.core) unit1.signal = true) ∧
      (let s := { insnState (encodeInsn .endUnit) [] with remoteAdds := [⟨0, 0, 0, 1, 2⟩] }
       s.issuing 0 .F = some .endUnit ∧ ∃ r ∈ s.remoteAdds, r.core = 0 ∧ r.thread = thrIndex .F) ∧
      (let s := { insnState 0 [] with step := running.step }
       s.insn 0 .F = some none ∧ s.step.isSome = true) ∧
      (let r : UrgentRun := ⟨⟨⟨0, 0, 0, 0, 0⟩, 0, 3, []⟩, [0, 1], false⟩
       let s := { (base.putBytes 0x5000000000 (leBytes 4 0)).setThr 0 .U { running := true } with urgentRuns := [r] }
       s.insn 0 .U = some none ∧ s.urgentRuns.find? (fun x => x.cores.contains 0) = some r ∧ r.cores.erase 0 ≠ []) := by
  decide +kernel

/-- A region of two managed STATE pages from page 0 on, a pool with room, and a page. -/
def paged (x : Page) (m : TierSt) : State :=
  wrs ({ base with regions := [⟨0, 2, 4, 1, 5⟩], pages := if x = ({} : Page) then [] else [(0, x)] }.setTier 0 m)
    [(Reg.TIER_QUOTA_STATE 0, 1), (Reg.TIER_CFG_POOL_MIB 0, 1)]

def moveOut : PageMove := ⟨.stateOut, 0, 1⟩
def moveIn : PageMove := ⟨.stateIn, 0, 1⟩
def moveStage : PageMove := ⟨.stage, 1, 1⟩

theorem wit_ManagedPagesMove :
    (let s := paged { state := .resident } { queue := [moveStage, moveOut] }
     (s.tier 0).queue = [moveStage, moveOut] ∧ moveOut.kind.rank < moveStage.kind.rank ∧ s.moveStale moveStage = false ∧
       s.moveStale moveOut = false ∧ (s.page moveOut.page).state = .resident) ∧
      (let s := paged {} { queue := [moveStage, moveIn] }
       (s.tier 0).queue = [moveStage, moveIn] ∧ moveIn.kind.rank < moveStage.kind.rank ∧ s.moveStale moveStage = false ∧
         s.moveStale moveIn = false ∧ (s.page 0).state = .absent ∧ s.regionOf 0 = some ⟨0, 2, 4, 1, 5⟩ ∧
         s.freeFrame 0 4 = some 0) ∧
      (let s := paged { state := .arriving } {}
       canonB s = true ∧ s.pageHome 0 = (0, 0) ∧ s.failedBlocks 0 0 = [] ∧ s.movePathLost 0 0 = false ∧
         s.moveHeld 0 0 = false ∧ s.poison = []) ∧
      (let s := (paged { state := .arriving } {}).setTower 0 { cacheReset := true }
       (s.page 0).state = .arriving ∧ s.moveHeld 0 0 = true) ∧
      (let s := (paged { state := .leaving, dirty := true } {}).setTower 0 { horizonReset := [0] }
       (s.page 0).dirty = true ∧ s.moveHeld 0 0 = true) ∧
      (let s := (paged { state := .arriving } {}).setTower 0 { lost := [4, 5] }
       canonB s = true ∧ s.pageHome 0 = (0, 0) ∧ (s.page 0).state = .arriving ∧ s.movePathLost 0 0 = true) ∧
      (let s := (paged { state := .leaving, dirty := true } {}).setTower 0 { lost := [5] }
       (s.page 0).state = .leaving ∧ (s.page 0).dirty = true ∧ s.movePathLost 0 0 = true) ∧
      ((paged { state := .leaving, dirty := true } {}).page 0).dirty = true ∧
      (paged { state := .leaving, dirty := true } {}).movePathLost 0 0 = false ∧
      (paged { state := .leaving, dirty := true } {}).moveHeld 0 0 = false ∧
      (({} : TierSt).queue = [] ∧ ({ frames := [(0, .unzeroed)] } : TierSt).frames = (0, .unzeroed) :: []) ∧
      canonB (paged {} { frames := [(0, .unzeroed)] }) = true := by decide +kernel

theorem wit_TiersAreMaintained :
    (base.tower 3).horizonReset.contains ((319 : Fin 320).val / 64) = false ∧
      ((base.setTower 3 { horizonReset := [4] }).tower 3).horizonReset.contains ((319 : Fin 320).val / 64) = true ∧
      base.rd (Reg.TIER_CFG_SCRUB_EN 3) = 1 ∧ (base.tier 3).scrubDeep + 1 < 20 * 2 ^ 30 / 16 ∧
      (base.tier 3).failedChannels = [] ∧ (base.tower 3).lost = [] ∧
      (base.tower 3).cacheReset = false ∧ (base.tower 3).sleep = .awake ∧ base.poisoned (deepKey 3 0) = false ∧
      (base.tower 3).horizonReset = [] ∧ (base.tier 3).scrubDeep % 32 = 0 ∧
      ({ scrubDeep := 1, scrubInForce := false } : TierSt).scrubInForce = false ∧ (0 : Fin 36) ≠ 35 ∧ (15 : BitVec 4) ≠ 0 ∧
      base.storageHeld 3 0x30000000 = false ∧ (base.setTower 3 { cacheReset := true }).storageHeld 3 0 = true ∧
      base.reaches 0 (0x100000 + 3 * 0x1000) = true ∧ base.horizonHeld 3 0 = false ∧
      ((PathEnd.horizon 0).inner 3).any base.domainLost = false ∧ (base.setTower 3 { horizonReset := [0] }).horizonHeld 3 0 = true ∧
      (let m : TierSt := { rowUncorrectable := [2048 * 5 + 7], sparesUsed := [(5, 15)] }
       m.rowUncorrectable = (2048 * 5 + 7) :: [] ∧ Sparse.get 0 m.sparesUsed ((2048 * 5 + 7) / 2048) < 16) ∧
      16 ≤ Sparse.get 0 ({ sparesUsed := [(5, 16)] } : TierSt).sparesUsed 5 ∧
      (let x : LaneGroup := { failed := [0, 1, 2, 3] }
       x.failed.contains 147 = false ∧ x.takingOver = none ∧ x.failed.length = 4) ∧
      (({ failed := [0, 1, 2], takingOver := some 147 } : LaneGroup).takingOver = some 147) ∧ (319 : Nat) < 320 ∧ (320 : Nat) ≤ (543 : Fin 544).val ∧
      (wholeA 0x1003F).part = .whole ∧ base.reaches 1 (0x100000 + 3 * 0x1000) = true ∧ base.holds 0 = true ∧
      base.holds 1 = false ∧ (wholeB 0x10000).value % 64 ≠ base.rd (Reg.TIER_CFG_RATE 3) := by decide +kernel

/-- A plan entry of one element in tower 0: master, gradient and state in its near tier. -/
def planRec (rule contrib short params ncopy : Nat) (owner : Bool) : List Byte :=
  leBytes 8 0x4000000000 ++ leBytes 8 0x4000001000 ++ leBytes 8 0x4000002000 ++ leBytes 8 0x4000003000 ++
    leBytes 8 0x4000004000 ++ leBytes 8 0x4000005000 ++ leBytes 8 0x4000006000 ++ leBytes 8 0x4000007000 ++
    leBytes 4 1 ++ leBytes 4 params ++ List.replicate 24 0 ++ leBytes 2 contrib ++ leBytes 1 (rule + 32 * short) ++
    [0, 0, 0, 0] ++ leBytes 1 ncopy ++ List.replicate 6 0 ++ leBytes 1 (4 * owner.toNat) ++ List.replicate 9 0 ++
    leBytes 4 0x1FFFF ++ List.replicate 4 0

/-- The package with one plan entry in a sweep. -/
def planned (rec_ : List Byte) (x : EntrySt) : State :=
  { base with fabric := { plan := [rec_] }, entries := [(0, x)], upd := [(0, { sweeping := true })] }

def landed (n : Nat) : EntrySt := { landed := [(0, n + 1)], prepared := true, sweepT := 1 }

def chunkIs (s : State) (n : Nat) (f : PlanEntry → Bool) : Bool :=
  match s.planChunks 0 with
  | [(0, e, 0)] => s.staged e 0 && (s.entry 0).cnt 0 == some n && s.landedFor 0 0 && f e
  | _ => false

def readableB (s : State) (o : Orig) (a : Nat) (bs : List Byte) : Bool :=
  !s.accessFault a bs.length false && !s.inRegion a && !s.rangePathLost o a bs.length && s.failedWords a bs.length == [] &&
    s.rangeHolder o a bs.length == none &&
    s.readBytes a bs.length == bs.map some

def writableB (s : State) (o : Orig) (a n : Nat) : Bool :=
  !s.inRegion a && !s.accessFault a n true && !s.rangePathLost o a n && s.rangeHolder o a n == none &&
    !(s.openRange a n).rangePathLost o a n && (s.openRange a n).failedWords a n == []

theorem wit_SweepsTakeAndCommitChunks :
    (base.updUnit 3).sweeping = false ∧ ((planned (planRec 0 2 0 1 0 true) (landed 0)).updUnit 0).sweeping = true ∧
      chunkIs (planned (planRec 0 2 0 1 0 true) (landed 0)) 0 (fun _ => true) = true ∧
      chunkIs (planned (planRec 0 2 0 1 0 true) (landed 3)) 3 (fun e => decide (e.contrib < 3)) = true ∧
      chunkIs (planned (planRec 0 2 2 1 0 true) (landed 1)) 1 (fun e => decide (1 < e.contrib) && e.short == 2) = true ∧
      (let s := planned (planRec 0 2 0 1 0 true) (landed 2)
       chunkIs s 2 (fun e => e.contrib == 2 && e.rule == 0 && e.nrow == 1 && e.ncol == 1 &&
         readableB s (.update 0) e.gbuf [0, 0, 0, 0] && readableB s (.update 0) e.master [0, 0] &&
         (fMul (ofF32 e.gscale) (ofF32 0)).finite) = true) ∧
      ((planned (planRec 0 2 0 1 0 true) (landed 0)).updUnit 0).laneFree 31 = true ∧
      (let s := planned (planRec 0 2 0 1 0 true) { prepared := true }
       s.landedFor 0 0 = false ∧ (s.entry 0).taken.contains 0 = false ∧ s.planChunks 0 = s.planEntries.map fun e => (e.1, e.2, 0)) ∧
      (({ sweeping := true, runs := [⟨31, 0, 0, [], []⟩, ⟨31, 0, 1, [], []⟩] } : UpdSt).laneFree 31 = false) ∧
      (let s := planned (planRec 5 2 0 8193 0 true) { landed := [(1, 1)] }
       s.pages = [] ∧ (s.planEntries.all fun e => s.staged e.2 1) = true ∧ (s.entry 0).prepared = false ∧ (s.entry 0).measured = [] ∧ (s.planEntries.map (·.2.chunks)) = [2] ∧
         (s.planEntries.all fun e => e.2.lamb) = true) ∧
      (let s := planned (planRec 5 2 0 1 0 true) { landed := [(0, 1)] }
       s.planChunks 0 = (s.planEntries.map fun e => (e.1, e.2, 0)) ∧ (s.planEntries.all fun e => e.2.lamb && e.2.chunks == 1 && s.staged e.2 0 &&
         writableB s (.update 0) (e.2.srec + 12) 4) = true ∧ (s.entry 0).cnt 0 = some 0) ∧
      (let s := planned (planRec 7 2 0 1 0 true) { landed := [(0, 1)] }
       s.towerEntries 0 = s.planEntries ∧ (s.planEntries.all fun e => e.2.owner && e.2.factored && e.2.nrow == 1 &&
         e.2.ncol == 1 && readableB s (.update 0) e.2.m2 [0, 0, 0, 0] && readableB s (.update 0) e.2.m2s [0, 0, 0, 0] &&
         writableB s (.update 0) e.2.m2 4 && writableB s (.update 0) e.2.m2s 4) = true) ∧
      (let r : ChunkRun := ⟨0, 0, 0, [(0x4000000000, [some 1, some 2])], [0]⟩
       let s := { planned (planRec 0 2 0 8193 0 true) { taken := [0] } with upd := [(0, { sweeping := true, runs := [r] })] }
       ((s.updUnit 0).runs.find? fun x => x.entry == 0 && x.chunk == 0) = some r ∧ s.storesHeld (.update 0) r.stores = false ∧
         (s.planEntries.all fun e => decide ((s.entry e.1).committed.length + 1 < e.2.chunks)) = true) := by decide +kernel

theorem wit_CopiesDigestsAndRegeneration :
    (let s := planned (planRec 0 2 0 1 0 true) { copying := true }
     (s.entry 0).copying = true ∧ (s.entry 0).regen = false ∧ (s.planEntries.all fun e => e.2.owner && plainB s e.2.done && !s.digestHeld e.2 &&
         s.objReached (.update 0) e.2.done &&
       s.readBytes e.2.master (2 * e.2.params) == [some 0, some 0] && writableB s (.update 0) (e.2.srec + 16) 8) = true) ∧
      (let s := planned (planRec 0 2 0 1 0 false) { copying := true }
       (s.planEntries.all fun e => !e.2.owner && plainB s e.2.done && !s.digestHeld e.2 && s.objReached (.update 0) e.2.done) = true) ∧
      (let s := (planned (planRec 0 2 0 1 0 true) { copying := true }).setTower 0 { cacheReset := true }
       (s.planEntries.all fun e => s.digestHeld e.2) = true) ∧
      ({ complete := true } : EntrySt).regen = false ∧
      (planned (planRec 0 2 0 1 0 true) {}).planEntries.all (fun e => decide (0 < e.2.chunks)) = true ∧
      ({ regen := true } : EntrySt).copying = false ∧ ({ arrived := false } : EntrySt).arrived = false ∧
      (let s := planned (planRec 0 2 0 1 0 true) { regen := true }
       s.fabric.copies.getD 0 [] = []) ∧
      (let d : CopyDesc := ⟨0x4000007000, 0, 0, 0, 0x3F800000, 0, 0, 1, 0, 0, 0, 2, true⟩
       let s0 := planned (planRec 0 2 0 1 1 true) { regen := true }
       let s := { s0 with fabric := { s0.fabric with copies := [[d]] } }
       s.fabric.copies.getD 0 [] = [d] ∧ d.kind = 0 ∧ d.olist = 0 ∧ Fmt.ofCode d.fmt = some .bf16 ∧
         (s.planEntries.all fun e => e.2.nrow == 1 && e.2.ncol == 1 && readableB s (.update 0) e.2.master [0, 0]) = true ∧
         s.rangeHolder (.update 0) d.dst 2 = none) ∧ base.postedHolder 0 = none ∧
      base.rd Reg.RED_RECOVER_STATE ≠ 3 ∧ base.pages = [] ∧ (wholeA 1).part = .whole ∧ base.bar0Open 0x404008 = true ∧
      bit (wholeA 0).value 0 = false ∧ bit (wholeA 1).value 0 = true ∧ base.holds 0 = true ∧
      (∀ t < 4, base.rd (Reg.UPD_STATUS_PHASE t) = 0) ∧ base.holds 1 = false ∧
      (base.wr (Reg.UPD_STATUS_PHASE 3) 1).rd (Reg.UPD_STATUS_PHASE 3) ≠ 0 := by decide +kernel

/-- Links in a state. -/
def linked (l v : Nat) : State := base.wr (Reg.HB_LINK_STATUS_STATE l) v

def goodFrameB (s : State) (l ty : Nat) (frame : List Byte) : Bool :=
  frame.length == 2570 && crc32 (frame.take 2566) == fieldNat frame 2566 4 && frameType frame == ty &&
    bits (fieldNat frame 0 6) 14 3 == (s.link l).rxSeq && !bit (fieldNat frame 0 6) 27 &&
    bits (fieldNat frame 0 6) 44 33 == 0 && decide (((s.link l).ackTo (bits (fieldNat frame 0 6) 26 15)).replay.length < 512) &&
    (s.link l).waiting == []

/-- A header flit of a packet without payload, and a data frame that carries it. -/
def flit1 : List Byte := leBytes 2 3 ++ List.replicate 6 0 ++ [40, 0x11] ++ List.replicate 54 0
def frame0 : List Byte := mkFrame (frameCtl 0 0 4095 false 31 0) flit1

set_option maxRecDepth 20000 in
theorem wit_frame_data : goodFrameB (linked 13 8) 13 0 frame0 = true := by decide +kernel
set_option maxRecDepth 20000 in
theorem wit_frame_notice : goodFrameB (linked 13 7) 13 1 (mkFrame (frameCtl 1 0 4095 false 31 0) [1, 0, 2, 0, 2, 0, 0, 0]) = true := by
  decide +kernel
set_option maxRecDepth 20000 in
theorem wit_frame_fence : goodFrameB (linked 13 8) 13 2 (mkFrame (frameCtl 2 0 4095 false 31 0) []) = true := by decide +kernel
set_option maxRecDepth 20000 in
theorem wit_frame_out_of_sequence :
    (let f := mkFrame (frameCtl 0 1 4095 false 31 0) []
     f.length = 2570 ∧ crc32 (f.take 2566) = fieldNat f 2566 4 ∧ frameType f = 0 ∧
       bits (fieldNat f 0 6) 14 3 ≠ ((linked 13 8).link 13).rxSeq) := by decide +kernel

set_option maxRecDepth 20000 in
theorem wit_FramesAreTakenInSequence :
    (linked 13 8).linkActive 13 = true ∧ ((linked 13 8).link 13).replay.length < 512 ∧ ((linked 13 8).link 13).waiting = [] ∧
      (linked 13 11).linkState 13 = 11 ∧ (linked 13 8).linkUp 13 = true ∧
      ((linked 13 8).link 13).partialPkt = [] ∧ flit1.length = 64 ∧ flit1.all (· == 0) = false ∧
      fieldNat flit1 6 2 % 8192 = 0 ∧ (frame0.drop 6).take 2560 = flit1 ++ List.replicate 2496 0 ∧
      (linked 13 7).linkUp 13 = true ∧ ([1, 0, 2, 0, 2, 0, 0, 0] : List Byte).length = 8 ∧
      fieldNat [1, 0, 2, 0, 2, 0, 0, 0] 4 1 ≠ 0 ∧ (linked 13 9).linkUp 13 = false ∧ (linked 13 4).linkState 13 = 4 ∧
      (linked 13 5).linkState 13 = 5 ∧ (linked 13 8).linkState 13 ≠ 4 := by decide +kernel

/-- The package at coordinate 1 of a ring of four, with its two neighbours, held links and the partner's block. -/
def ringAt (x : Nat) : State :=
  wrs base [(Reg.HB_COORD_VALID, 1), (Reg.HB_COORD_COORD, x), (Reg.HB_PLANE_DIMX, 4), (Reg.HB_PLANE_DIMY, 1),
    (Reg.HB_PLANE_DIMZ, 1)]

def heldLink (pc : Nat) : State :=
  (wrs (ringAt 1) [(Reg.HB_LINK_STATUS_STATE 0, 5), (Reg.HB_PARTNER_COORD_VALID 0, 1), (Reg.HB_PARTNER_COORD 0, pc),
    (Reg.HB_PARTNER_LINK 0, 2)]).setLink 0 { partnerPlane := 0x10104 }

theorem wit_LinksComeUpInOrder :
    (linked 13 1).linkState 13 = 1 ∧ (linked 13 3).linkState 13 = 3 ∧ (linked 13 2).linkState 13 = 2 ∧ (1023 : Nat) < 1024 ∧
      0 < (base.wr Reg.HB_FAB_CFG_PERM 1).rd Reg.HB_FAB_CFG_PERM ∧ (linked 13 4).linkState 13 = 4 ∧
      (heldLink 2).linkState 0 = 5 ∧ (heldLink 2).coordsValid = true ∧ (heldLink 2).wiringOk 0 = true ∧
      (heldLink 3).wiringOk 0 = false ∧ (heldLink 2).rd Reg.SHP_STATUS_STATE = 0 ∧ base.coordsValid = false ∧
      ((heldLink 2).wr Reg.SHP_STATUS_STATE 3).rd Reg.SHP_STATUS_STATE ≠ 0 ∧ (linked 13 9).linkState 13 = 9 ∧
      (linked 13 9).refLost.contains (linkBrim 13) = false ∧ (linked 13 9).rd (Reg.HB_LINK_STATUS_ATTEMPTS 13) < 3 ∧
      3 ≤ ((linked 13 9).wr (Reg.HB_LINK_STATUS_ATTEMPTS 13) 3).rd (Reg.HB_LINK_STATUS_ATTEMPTS 13) ∧
      ({ linked 13 9 with refLost := [3] } : State).refLost.contains (linkBrim 13) = true := by decide +kernel

/-- A packet with its ECRC in place. -/
def sealed (p : Pkt) : Pkt := { p with hdr := setField p.hdr 28 (leBytes 4 p.ecrcOf) }
def remote (src cls kind addr : Nat) (kdata ext data : List Byte) : Pkt :=
  sealed (Pkt.make 1 src (2 * cls) kind false 0 addr kdata ext data)

/-- The package at coordinate 1 of the ring, its links ACTIVE, with a packet at link 0. -/
def routing (p : Pkt) : State :=
  (wrs (ringAt 1) ((List.range 4).map fun l => (Reg.HB_LINK_STATUS_STATE l, 8))).setLink 0 { ingress := [⟨p, 1, 0⟩] }

def transit (hops : Nat) : Pkt := { Pkt.make 3 0 0 0x11 false 0 0 [] [] [] with
  hdr := setField (Pkt.make 3 0 0 0x11 false 0 0 [] [] []).hdr 8 (leBytes 1 hops) }

theorem wit_LinkRegistersAndTheRouter :
    (wholeA 4).part ≠ .upper ∧ (⟨0, .upper, 4⟩ : RegAccess).part = .upper ∧ base.bar0Open (0x200000 + 13 * 0x1000) = true ∧ bit (wholeA 4).value 2 = true ∧
      base.postedHolder 0 = none ∧ base.postedHolder 1 = none ∧ base.holds 0 = true ∧ (linked 13 7).linkState 13 = 7 ∧ bit (wholeA 2).value 1 = true ∧
      bit (wholeA 2).value 2 = false ∧ bit (wholeA 4).value 1 = false ∧ (linked 13 8).linkState 13 ≠ 7 ∧
      (linked 13 10).linkState 13 = 10 ∧ (linked 13 11).linkState 13 = 11 ∧ base.holds 1 = false ∧
      base.bar0Open 0x20F000 = true ∧ base.bar0Open 0x20F008 = true ∧ shaped.rd Reg.SHP_STATUS_STATE ≠ 0 ∧
      (linked 13 8).linkActive 13 = true ∧ base.rd Reg.SHP_STATUS_STATE = 0 ∧ (∀ l < 14, base.linkActive l = false) ∧ (linked 13 5).linkState 13 = 5 ∧
      (∃ l < 14, (linked 13 8).linkActive l = true) ∧
      (let p := remote 0 0 0x11 0 [] [] []
       (((routing p).link 0).ingress.find? fun x => x.pkt.vc == 0) = some ⟨p, 1, 0⟩ ∧ vcClass p.vc ≠ 4 ∧ p.hdr.length = 64 ∧
         p.dst = (routing p).physSelf ∧ (routing p).deliveryWaits p none = false ∧ knownKind (vcClass p.vc) p.kind = true) ∧
      (let p := Pkt.make 1 0 0 0x55 false 0 0 [] [] []
       knownKind (vcClass p.vc) p.kind = false ∧ p.ecrcOk = false) ∧
      (let p := remote 2 3 0x42 0 [] (paramExt 0 0 7 0 0 1) []
       let q := remote 2 3 0x41 0 [] (paramExt 0 0 7 0 0 0) [1, 2]
       let s := (routing p).setLink 2 { ingress := [⟨q, 2, 0⟩] }
       ((s.link 0).ingress.find? fun x => x.pkt.vc == 6) = some ⟨p, 1, 0⟩ ∧ p.dst = s.physSelf ∧ p.hdr.length = 64 ∧
         vcClass p.vc ≠ 4 ∧ s.deliveryWaits p none = true) ∧
      (let p := transit 2
       let s := routing p
       p.dst ≠ s.physSelf ∧ p.detour = false ∧ cplane s.physSelf = cplane p.dst ∧
         s.torusHop false s.physSelf p.dst p.src = some (0, false) ∧
         s.dirLink (bits (let h := p.flow ^^^ p.src ^^^ p.dst; h ^^^ (h >>> 5) ^^^ (h >>> 10)) 0 0) 0 false = some 1 ∧
         1 < p.hops ∧ s.offers 1 = [⟨0, 0, p.flits⟩] ∧ s.servedNext 1 0 0 = some ⟨0, 0, p.flits⟩ ∧
         (s.setLink 1 { vcUsed := [(0, 128)], poolUsed := poolFlits }).servedNext 1 0 0 = none ∧
         s.brimCut (linkBrim 0) (linkBrim 1) = false ∧
         (let t := s.setTower 0 { lost := [0] }
          t.servedNext 1 0 0 = some ⟨0, 0, p.flits⟩ ∧ t.brimCut (linkBrim 0) (linkBrim 1) = true ∧ t.physSelf = s.physSelf)) ∧
      (transit 1).hops ≤ 1 := by decide +kernel

/-- A packet has reached the package at coordinate 1. -/
def ejectedAt (b : Nat) (p : Pkt) (f : FabricSt) : State := { ringAt 1 with fabric := { f with ejected := [(b, p)] } }

def arrivedB (s : State) (cls kind b : Nat) (p : Pkt) : Bool :=
  (s.fabric.ejected.find? fun e => vcClass e.2.vc == cls && e.2.kind == kind) == some (b, p) && p.ecrcOk

theorem wit_requests :
    (let p := remote 0 1 0x01 0x5000000000 [] [] []
     let q := remote 0 1 0x01 0x5000000000 [0, 0, 16, 0] [] []
     arrivedB (ejectedAt 3 q {}) 1 0x01 3 q = true ∧ q.addr % 16 = 0 ∧ fieldNat q.hdr 20 2 = 16 ∧
       readableB base (.router 3) q.addr (List.replicate 16 0) = true ∧
       p.hdr.length = 64 ∧ (let r := remote 0 1 0x01 0x5000000008 [] [] []
         arrivedB (ejectedAt 3 r {}) 1 0x01 3 r = true ∧ r.addr % 16 ≠ 0)) ∧
      (let p := remote 0 1 0x02 0x4000000000 [] [] (List.replicate 16 7)
       arrivedB (ejectedAt 0 p {}) 1 0x02 0 p = true ∧ p.addr % 16 = 0 ∧ p.data.length % 16 = 0 ∧ p.poison = false ∧
         writableB base (.router 0) p.addr p.data.length = true) ∧
      (let p := Pkt.make 1 0 2 0x01 false 0 0 [] [] []
       p.ecrcOk = false ∧ ((ejectedAt 0 p {}).fabric.ejected.find? fun e => vcClass e.2.vc == 1 && e.2.kind == 0x01) = some (0, p)) ∧
      (let p := remote 2 2 0x81 0 [5] [] (List.replicate 8 1)
       let s := ejectedAt 0 p { requests := [⟨5, 2, false, 8, .load 0 0 63⟩] }
       arrivedB s 2 0x81 0 p = true ∧ s.fabric.requests = [⟨p.tag, p.src, false, 8, .load 0 0 63⟩] ∧ p.poison = false ∧
         fieldNat p.hdr 22 1 = 0 ∧ (∀ r ∈ ({} : FabricSt).requests, r.tag ≠ p.tag)) ∧
      (let p := remote 2 2 0x82 0 [5] [] []
       let s := ejectedAt 0 p { requests := [⟨5, 2, true, 8, .store 0 0⟩] }
       arrivedB s 2 0x82 0 p = true ∧ s.fabric.requests = [⟨p.tag, p.src, true, 8, .store 0 0⟩]) := by decide +kernel

theorem wit_RequestsAndFailuresReachThePackage :
    (let s : State := { base with fabric := { requests := [⟨5, 2, true, 8, .store 0 1⟩] } }
     s.fabric.requests = [⟨5, 2, true, 8, .store 0 1⟩]) ∧
      (let n : List Byte := [2, 0, 3, 0, 1, 0, 0, 0]
       let s : State := { ringAt 1 with fabric := { noticeIn := [(2, n)] } }
       s.fabric.noticeIn = (2, n) :: [] ∧ s.fabric.notices.contains n = false ∧ s.fabric.notices.length < 64 ∧
         fieldNat n 4 1 ≠ 3 ∧ fieldNat n 0 2 % 16384 ≠ s.physSelf ∧ s.spareOf s.physSelf = none ∧
         s.spareOf (fieldNat n 0 2 % 16384) = none ∧ s.failureKnown (fieldNat n 0 2 % 16384) = false ∧
         s.rd Reg.RED_RECOVER_STATE ≠ 1 ∧ s.linkUp 3 = false ∧
         (let t := ({ s with fabric := { s.fabric with takenOver := some 1 } } : State).wr Reg.RED_RECOVER_STATE 1
          t.fabric.takenOver = some 1 ∧ t.rd Reg.RED_RECOVER_STATE = 1 ∧ t.mirrorTargetOf 1 = fieldNat n 0 2 % 16384 ∧
            t.failureKnown (fieldNat n 0 2 % 16384) = false) ∧
         ((s.wr (Reg.HB_LINK_STATUS_STATE 3) 8).linkUp 3 = true ∧ (s.link 3).replay.length < 512 ∧ (s.link 3).waiting = []) ∧
         ((List.range 32).find? fun i => !s.rdB (Reg.HB_FAIL_VALID i)) = some 0 ∧
         ({ s with fabric := { s.fabric with notices := [n] } } : State).fabric.notices.contains n = true) ∧
      (let n : List Byte := [1, 0, 3, 0, 1, 0, 0, 0]
       let s : State := { ringAt 1 with fabric := { noticeIn := [(2, n)] }, step := running.step }
       fieldNat n 0 2 % 16384 = s.physSelf ∧ s.step.isSome = true ∧ s.fabric.notices.contains n = false) ∧
      (let s := ringAt 1
       s.linkActive (linkNo 0 true 0) = false ∧ s.linkActive (linkNo 0 true 1) = false ∧ s.coordsValid = true ∧
         s.neighbour s.physSelf 0 true = 0 ∧ s.neighbour s.physSelf 0 true ≠ s.physSelf ∧ s.failureKnown 0 = false ∧
         s.fabric.notices.contains (noticeBytes 0 s.physSelf 2 0) = false ∧ s.fabric.notices.length < 64 ∧
         s.spareOf s.physSelf = none ∧ s.spareOf 0 = none ∧
         ((List.range 32).find? fun i => !s.rdB (Reg.HB_FAIL_VALID i)) = some 0) ∧
      ((ringAt 1).wr (Reg.HB_LINK_STATUS_STATE 3) 8).linkActive (linkNo 0 true 1) = true := by decide +kernel


/-! ### Reduction -/

/-- A piece of chunk 0 for an owner of the group that spans the ring, in BF16, from coordinate 0. Its payload is left empty,
which reads as zeros: the checks of a whole payload are slow to evaluate. -/
def piece (owner kind cnt : Nat) : Pkt :=
  sealed (Pkt.make owner 0 8 kind false 0 0 [] (redExt 0 0 0 0 0 0 cnt 0 owner 0 1 7 0) [])

/-- The ring's group, and a bucket of one chunk with one shard. -/
def ringGroup : List Byte := [0, 3, 0, 0, 0, 0, 1, 0] ++ List.replicate 16 0
def bucketRec (ready val : Nat) : List Byte :=
  [0, 1, 0, 0] ++ leBytes 4 0 ++ leBytes 4 1 ++ leBytes 4 ready ++ leBytes 4 val ++ leBytes 4 1 ++ leBytes 8 0x4000009000 ++
    leBytes 8 0x400000A000 ++ leBytes 8 1 ++ List.replicate 16 0

/-- Coordinate 1 of the ring in step 7 with a piece at link 0 and the bucket's owner given. -/
def reducing (p : Pkt) (owner : Nat) (store : List StoreEntry) : State :=
  { ringAt 1 with
    step := running.step
    fabric := { links := [(0, { ingress := [⟨p, 8, 20⟩] })], groups := [ringGroup], buckets := [bucketRec 0 0],
                shardMaps := [[⟨0, 1, owner, 0, 0⟩]],
                plan := [planRec 0 2 0 1 0 true], brims := if store.isEmpty then [] else [(1, { store })] } }

/-- The same piece at link 1, brim 1, with the row's brims 0 and 1 parted. -/
def cutPiece (p : Pkt) : State :=
  ((reducing p 2 []).setLink 1 { ingress := [⟨p, 8, 20⟩] }).setTower 0 { lost := [0] }

def arrives (s : State) (kind : Nat) (p : Pkt) : Bool := s.redHead 0 8 kind == some p && (s.checkPiece 0 p).isNone

set_option maxRecDepth 20000 in
theorem wit_reduction_inner :
    (let p := piece 2 0x01 1
     let s := reducing p 2 []
     let b := s.combineBrim (s.group 0) p.rChunk p.rOwner p.rEntry
     s.rd Reg.RED_CFG_MODE ≠ 2 ∧ arrives s 0x01 p = true ∧ p.rOwner ≠ s.logSelf ∧ s.isOlder b p = false ∧
       s.expected (s.group p.rGroup) s.logSelf p.rOwner = 2 ∧ p.rCnt < 2 ∧ (s.brimRed b).store = [] ∧
       s.brimCut (inputBrim 0) b = false ∧
       (let t := cutPiece p
        t.redHead 1 8 0x01 = some p ∧ t.checkPiece 1 p = none ∧ p.rOwner ≠ t.logSelf ∧
          t.brimCut (inputBrim 1) (t.combineBrim (t.group 0) p.rChunk p.rOwner p.rEntry) = true)) ∧
      (let p := { piece 2 0x01 1 with data := [1] }
       p.ecrcOk = false ∧ (reducing p 2 []).redHead 0 8 0x01 = some p) := by decide +kernel

/-- A store entry of the piece's key. -/
def held (cnt : Nat) : StoreEntry := ⟨(piece 2 0x01 1).key, 0, (piece 2 0x01 1).hdr, (piece 2 0x01 1).rElems, 1, cnt, 100⟩

set_option maxRecDepth 20000 in
theorem wit_reduction_store :
    (let p := piece 2 0x01 1
     let b := (reducing p 2 []).combineBrim ((reducing p 2 []).group 0) p.rChunk p.rOwner p.rEntry
     let s (c : Nat) : State := (reducing p 2 []).setBrimRed b { store := [held c] }
     arrives (s 1) 0x01 p = true ∧ ((s 1).brimRed b).store = [held 1] ∧ (held 1).key = p.key ∧ 1 ≤ (held 1).inputs ∧
       (held 1).hdr.length = 64 ∧ (s 1).isOlder b p = false ∧ 0 + p.rCnt < 2 ∧ 2 ≤ (held 1).cnt + p.rCnt ∧
       (held 1).hdr.length = 64) := by decide +kernel

theorem wit_reduction_full (x : StoreEntry) (h : x.key ≠ (piece 2 0x01 1).key) (b n : Nat) (hn : 1024 ≤ n) :
    let s : State := (reducing (piece 2 0x01 1) 2 []).setBrimRed b { store := List.replicate n x }
    (∀ y ∈ (s.brimRed b).store, y.key ≠ (piece 2 0x01 1).key) ∧ 1024 ≤ (s.brimRed b).store.length := by
  have e : ((reducing (piece 2 0x01 1) 2 []).setBrimRed b { store := List.replicate n x }).brimRed b =
      { store := List.replicate n x } := Sparse.get_put _ _ _ _
  simp only [e, List.length_replicate]
  exact ⟨fun y hy => by rw [(List.mem_replicate.mp hy).2]; exact h, hn⟩

set_option maxRecDepth 20000 in
theorem wit_reduction_guarded :
    (let p := piece 2 0x02 1
     let s := reducing p 2 []
     let b := s.combineBrim (s.group 0) p.rChunk p.rOwner p.rEntry
     arrives s 0x02 p = true ∧ p.rOwner ≠ s.logSelf ∧ s.brimCut (inputBrim 0) b = false ∧
       (cutPiece p).redHead 1 8 0x02 = some p ∧ (cutPiece p).checkPiece 1 p = none ∧ (cutPiece p).brimCut (inputBrim 1) b = true) ∧
      (let p := piece 1 0x03 1
       let s := reducing p 1 []
       arrives s 0x03 p = true ∧ p.rOwner = s.logSelf ∧ p.kind = 0x03 ∧ (s.bucketFor p).isSome = true ∧
         s.olderStep p.rStep = false ∧ s.restoring = false ∧ s.fabric.windows = [] ∧
         s.brimCut (inputBrim 0) (s.combineBrim (s.group 0) p.rChunk p.rOwner p.rEntry) = false) ∧
      (let p := piece 1 0x01 1
       let s := reducing p 1 []
       arrives s 0x01 p = true ∧ p.rOwner = s.logSelf ∧ p.kind = 0x01 ∧ (s.bucketFor p).isSome = true ∧
         s.olderStep p.rStep = false ∧ s.fabric.windows = [] ∧ s.restoring = false ∧
         s.brimCut (inputBrim 0) (s.combineBrim (s.group 0) p.rChunk p.rOwner p.rEntry) = false ∧
         ((s.wr Reg.RED_RECOVER_STATE 1).restoring = true ∧ arrives (s.wr Reg.RED_RECOVER_STATE 1) 0x01 p = true ∧
           ((s.wr Reg.RED_RECOVER_STATE 1).bucketFor p).isSome = true ∧
           (s.wr Reg.RED_RECOVER_STATE 1).olderStep p.rStep = false) ∧ 0 < s.expected (s.group 0) s.logSelf s.logSelf) := by decide +kernel

set_option maxRecDepth 20000 in
theorem wit_ReductionCombinesAndLands :
    (let s := (reducing (piece 2 0x01 1) 2 []).setBrimRed 1 { store := [held 1] }
     (s.brimRed 1).store[0]? = some (held 1)) ∧
      (let s := reducing (piece 2 0x01 1) 2 []
       let k := bucketOf (bucketRec 0 0) [⟨0, 1, 2, 0, 0⟩]
       s.bucketAt 0 = some k ∧ s.step.isSome = true ∧ s.fabric.injected = [] ∧ k.readyVal ≤ s.obj k.ready ∧
         k.nchunk = 1 ∧ 0 < k.nelem ∧ (s.group k.group).contains s.logSelf = true ∧ (s.group k.group).guards = [] ∧
         k.shardOf 0 = some ⟨0, 1, 2, 0, 0⟩ ∧
         (let b := s.combineBrim (s.group k.group) 0 2 0
          b < 4 ∧ readableB s (.router (Fin.ofNat 4 b)) k.src [0, 0] = true) ∧ k.efmt = 1 ∧
         s.obj (bucketOf (bucketRec 0 1) []).ready < (bucketOf (bucketRec 0 1) []).readyVal) ∧
      (let s0 := reducing (piece 1 0x01 1) 1 []
       let s := { s0 with fabric := { s0.fabric with windows := [{ bucket := 0, step8 := 7, dl := 100 }] } }
       let k := bucketOf (bucketRec 0 0) [⟨0, 1, 1, 0, 0⟩]
       s.bucketAt 0 = some k ∧ s.logSelf = 1 ∧ (∀ t < 4, (s.tower t).horizonReset = [] ∧ (s.tower t).cacheReset = false ∧ (s.tower t).sleep = .awake ∧
           (s.tower t).trained = true) ∧
         (s.group k.group).guards = [] ∧ ((s.planAt 0).map (·.contrib)) = some 2) := by decide +kernel

/-! ### Deliveries and mirrors -/

def param (kind step count : Nat) (data : List Byte) : Pkt := remote 2 3 kind 0 [] (paramExt 0 0 step 0 0 count) data
def told (kind : Nat) (data : List Byte) : Pkt := remote 2 0 kind 0 [] [] data

/-- A packet of a delivery or a mirror has reached the package, whose plan has one entry. -/
def receiving (p : Pkt) (owner : Bool) (f : FabricSt) (x : EntrySt) : State :=
  { ejectedAt 0 p { f with plan := [planRec 0 2 0 1 0 owner] } with entries := if x = ({} : EntrySt) then [] else [(0, x)] }

def grouped (d : List DeliverySt) : FabricSt := { groups := [ringGroup], buckets := [bucketRec 0 0], shardMaps := [[⟨0, 1, 2, 0, 0⟩]], deliveries := d }

theorem wit_deliveries :
    (let p := param 0x41 7 0 [1, 2]
     let s := receiving p false {} {}
     arrivedB s 3 0x41 0 p = true ∧ s.pieceHeld 0x41 = false ∧ (s.setTower 0 { cacheReset := true }).pieceHeld 0x41 = true ∧ p.hdr.length = 64 ∧ p.poison = false ∧ ((s.planAt p.pEntry).map (·.owner)) = some false ∧
       s.delivery p.pEntry = none ∧
       (s.memWrite (.router 0) 0x4000000000 (p.data.map some)).2.entryHome p.pEntry = none) ∧
      (let p := param 0x41 7 0 [1, 2]
       let s := receiving p false (grouped [⟨0, 7, 0, false, false⟩]) {}
       let m := (s.memWrite (.router 0) 0x4000000000 (p.data.map some)).2
       arrivedB s 3 0x41 0 p = true ∧ ((s.planAt 0).map (·.master)) = some 0x4000000000 ∧ m.entryHome 0 = some (0, 2) ∧
         m.childrenOf (m.group 0) m.logSelf 2 = [0] ∧ (∀ x < 4, s.brimCut 0 x = false) ∧ s.delivery 0 = some ⟨0, p.pStep, 0, false, false⟩) ∧
      (let p := param 0x43 7 0 [1, 2]
       arrivedB (receiving p false {} {}) 3 0x43 0 p = true ∧ (receiving p false {} {}).pieceHeld 0x43 = false ∧ p.pEntry = 0) ∧
      (let p := param 0x42 7 1 []
       let s := (receiving p false { deliveries := [⟨0, 7, 1, false, false⟩] } {}).wr Reg.UPD_CFG_DIG_INT 0
       arrivedB s 3 0x42 0 p = true ∧ s.endWaits = false ∧ (s.setTower 0 { cacheReset := true }).endWaits = true ∧ s.entryHome 0 = none ∧ s.delivery 0 = some ⟨0, p.pStep, p.pCount, false, false⟩ ∧
         (s.entry 0).complete = false ∧ (s.entry 0).copying = false ∧ (s.entry 0).sweepT ≠ p.pStep ∧
         s.rd Reg.UPD_CFG_DIG_INT = 0 ∧ s.rd Reg.RED_RECOVER_STATE = 0 ∧
         readableB s (updateOrig 0) 0x4000000000 [0, 0] = true ∧ (receiving p false {} {}).delivery 0 = none ∧ 0 < p.pCount ∧
         s.cutOff (updateOrig 0) = false ∧ (s.setTower 0 { lost := [3] }).cutOff (updateOrig 0) = true) := by
  decide +kernel

theorem wit_resends_and_digests :
    (let p := told 0x32 [0, 0, 0, 0]
     let s := receiving p true {} {}
     arrivedB s 0 0x32 0 p = true ∧ fieldNat p.data 0 3 = 0 ∧
       ((s.planAt 0).map fun e => (e.owner, e.pieces, 2 * e.params, e.tower)) = some (true, 1, 2, 0) ∧
       readableB s (.update 0) 0x4000000000 [0, 0] = true ∧ s.cutOff (updateOrig 0) = false ∧
       (s.setTower 0 { lost := [3] }).cutOff (updateOrig 0) = true) ∧
      (let s := receiving (told 0x32 []) false (grouped [⟨0, 7, 0, false, false⟩]) {}
       s.delivery 0 = some ⟨0, 7, 0, false, false⟩ ∧ (s.planAt 0).isSome = true ∧ s.entryHome 0 = some (0, 2)) ∧
      ((receiving (told 0x32 []) false { deliveries := [⟨0, 7, 1, false, true⟩] } {}).delivery 0).map (·.complete) =
        some true ∧
      (let d (t : Nat) : List Byte := [0, 0, 0, 1] ++ leBytes 4 t ++ leBytes 8 5
       let x (c : Bool) : EntrySt := { sweepT := 7, complete := c, digest := 5 }
       arrivedB (receiving (told 0x31 (d 7)) true {} (x false)) 0 0x31 0 (told 0x31 (d 7)) = true ∧
         arrivedB (receiving (told 0x31 (d 6)) true {} (x true)) 0 0x31 0 (told 0x31 (d 6)) = true ∧
         fieldNat (told 0x31 (d 7)).data 3 1 ≠ 0 ∧ fieldNat (told 0x31 (d 7)).data 4 4 = (x true).sweepT ∧
         fieldNat (told 0x31 (d 6)).data 4 4 ≠ (x true).sweepT ∧ (x true).digestValid = true ∧
         fieldNat (told 0x31 (d 7)).data 8 8 = (x true).digest ∧
         fieldNat (told 0x31 (d 7)).data 8 8 ≠ ({ x true with digest := 6 } : EntrySt).digest ∧
         (receiving (told 0x31 (d 7)) true {} (x true)).entry 0 = x true) := by
  decide +kernel

theorem wit_DeliveriesDigestsAndMirrors :
    (let p := param 0x44 7 0 [1, 2]
     let s := receiving p false { mirror := { base0 := 0x4000100000, base1 := 0x4000200000, size := 16 } } {}
     let m := s.fabric.mirror
     arrivedB s 3 0x44 0 p = true ∧ p.poison = false ∧ m.filled + p.data.length ≤ m.size ∧
       s.storesHeld (.router 0) [(m.base m.free + m.filled, p.data.map some)] = false ∧
       arrivedB (receiving p false {} {}) 3 0x44 0 p = true ∧ (0 : Nat) < ({} : MirrorSt).filled + p.data.length) ∧
      (let p := param 0x45 7 1 []
       let q := param 0x44 7 0 [1, 2]
       let s := receiving p false { mirror := { received := 1 } } {}
       let t := { s with fabric := { s.fabric with ejected := s.fabric.ejected ++ [(0, q)] } }
       let before (s : State) : Bool := s.fabric.ejected.any fun e => vcClass e.2.vc == 3 && e.2.kind == 0x44 && e.2.src == p.src
       arrivedB s 3 0x45 0 p = true ∧ before s = false ∧ arrivedB t 3 0x45 0 p = true ∧ before t = true ∧ 1 = p.pCount ∧
         (0 : Nat) ≠ p.pCount) ∧
      (let p := told 0x33 (leBytes 4 7 ++ [0, 0, 0, 0])
       let q := told 0x33 (leBytes 4 7 ++ [1, 0, 0, 0])
       arrivedB (receiving p true { mirror := { sending := [7, 8] } } {}) 0 0x33 0 p = true ∧
         arrivedB (receiving q true { mirror := { sending := [7, 8] } } {}) 0 0x33 0 q = true ∧ fieldNat p.data 0 4 ∈ [7, 8] ∧
         arrivedB (receiving p true {} {}) 0 0x33 0 p = true ∧ fieldNat p.data 0 4 ∉ ({} : MirrorSt).sending ∧
         fieldNat p.data 4 1 = 0 ∧ fieldNat q.data 4 1 ≠ 0) ∧
      base.fabric.partApplied = false ∧
      (let p := param 0x46 7 0 [1, 2]
       let s := receiving p true { partApplied := true } {}
       s.fabric.partApplied = true ∧ arrivedB s 3 0x46 0 p = true ∧
         ((s.planAt p.pEntry).bind fun e => e.regions.find? (·.1 == p.pRegion)) = some (0, 0x4000000000, 2) ∧
         p.poison = false ∧ s.storesHeld (.router 0) [(0x4000000000 + p.pOffset, (p.data.take (2 - p.pOffset)).map some)] = false ∧
         s.rd Reg.RED_RECOVER_STATE = 0) := by decide +kernel

/-! ### Shaping -/

theorem wit_ShapingAddressesAreFixedWhileShaped :
    shaped.rd Reg.SHP_STATUS_STATE ≠ 0 ∧ shaped.bar0Open 0x60008 = true ∧ shaped.bar0Open 0x60010 = true ∧ shaped.postedHolder 0 = none := by decide +kernel

/-- An image of 304 bytes for a ring of four, without its digest: one common section with one barrier, and an empty part for
coordinate 1. -/
def bareImage : List Byte :=
  [0x51, 0x52, 0x4E, 0x49] ++ leBytes 2 1 ++ leBytes 2 0xD032 ++ leBytes 2 0xFFFF ++ leBytes 2 1 ++ leBytes 4 1 ++
    leBytes 8 304 ++ leBytes 8 0 ++ [4, 1, 1, 0, 1, 0, 0, 0] ++ leBytes 8 256 ++ leBytes 8 272 ++ List.replicate 8 0 ++
    List.replicate 64 0 ++ List.replicate 128 0 ++
    leBytes 2 12 ++ leBytes 2 0 ++ leBytes 4 1 ++ leBytes 8 288 ++
    leBytes 2 1 ++ leBytes 2 0 ++ leBytes 4 0 ++ leBytes 8 288 ++
    leBytes 4 5 ++ leBytes 4 6 ++ leBytes 2 3 ++ [0xFF, 0, 0, 0, 0, 0]

/-- The image with the digest given. -/
def imageWith (d : List Byte) : List Byte := setField bareImage 64 d

/-- A package whose SHP_IMAGE and SHP_LEN name an image that memory holds. -/
def imaged (bs : List Byte) : State :=
  { wrs (ringAt 1) [(Reg.SHP_IMAGE_ADDR, 0x4000000), (Reg.SHP_LEN_LEN, 304)] with
    mem := (bs.zipIdx.map fun (b, i) => (0x4000000000 + i, b)).filter (·.2 != 0) }

/-- Its digest: SHAKE256 of the 304 bytes, worked out with another implementation of FIPS 202. -/
def goodDigest : List Byte := leBytes 64
  0xe2b40c522960c8aa3aa6986245fffa3bfd586a646a9d42d5d4d4087fb0494496581234e24b7af39b7bec6449a6bbc2df3566a3a39095a2f4ca8572bc184352de

def goodImage : List Byte := imageWith goodDigest

set_option maxRecDepth 20000 in
/-- R350. -/
theorem test_image_digest : imageDigest goodImage = goodDigest ∧ (goodImage.drop 64).take 64 = goodDigest := by decide +kernel

set_option maxRecDepth 20000 in
theorem test_image_digest_wrong : imageDigest bareImage = goodDigest ∧ (bareImage.drop 64).take 64 ≠ goodDigest := by
  decide +kernel

theorem wit_image_read :
    (let s := imaged goodImage
     canonB s = true ∧ s.rd Reg.SHP_STATUS_STATE = 0 ∧ (∀ t < 4, (s.tower t).sleep = .awake ∧ (s.tower t).trained = true) ∧
      s.pages = [] ∧ fieldNat goodImage 16 8 = goodImage.length ∧ 256 < goodImage.length ∧ goodImage.length ≤ 2 ^ 34 ∧
      readableB s .mgmt (s.rd Reg.SHP_IMAGE_ADDR * 4096) (goodImage.take 256) = true ∧
      readableB s .mgmt (s.rd Reg.SHP_IMAGE_ADDR * 4096 + 256) (goodImage.drop 256) = true) ∧
      (let s := imaged bareImage
       fieldNat bareImage 16 8 = bareImage.length ∧ readableB s .mgmt (s.rd Reg.SHP_IMAGE_ADDR * 4096) (bareImage.take 256) = true ∧
         readableB s .mgmt (s.rd Reg.SHP_IMAGE_ADDR * 4096 + 256) (bareImage.drop 256) = true) := by decide +kernel

/-- The package once its digest registers show the image's digest. -/
def digested : State := (List.range 8).foldl (fun d k => d.wr (Reg.SHP_DIGEST_DIGEST k) (fieldNat goodDigest (8 * k) 8)) (imaged goodImage)

theorem good_sects : sectsOf goodImage (imaged goodImage).logSelf = [⟨12, 1, 288, true⟩] := by decide +kernel

/-- The stepping is a free value; the image admits every one. -/
theorem good_check23 : digested.check23 goodImage (sectsOf goodImage digested.logSelf) = none := by
  unfold State.check23
  generalize Config.stepping = st
  revert st
  decide +kernel

theorem wit_image_checks : digested.imageChecks goodImage (goodImage.map some) = none := by
  unfold State.imageChecks
  simp only [good_check23]
  decide +kernel

theorem wit_ShapeUnshapeAndAbort :
    (wholeA 2).part = .whole ∧ base.bar0Open 0x60000 = true ∧ base.rd Reg.SHP_STATUS_STATE = 0 ∧ base.holds 0 = true ∧
      base.bar0Open 0x60008 = true ∧ base.bar0Open 0x60010 = true ∧ bit (wholeA 2).value 1 = true ∧
      base.standby = false ∧ base.postedHolder 0 = none ∧ base.postedHolder 1 = none ∧ (wholeA 2).part ≠ .upper ∧
      (⟨0, .upper, 2⟩ : RegAccess).part = .upper ∧ (∀ t < 4, (base.tower t).sleep = .awake ∧ (base.tower t).trained = true) ∧
      (asleep.tower 0).sleep = .asleep ∧ base.holds 1 = false ∧ base.rd Reg.MGT_STATUS_MODE ≠ 2 ∧
      shaped.rd Reg.SHP_STATUS_STATE ≠ 0 ∧ recordsOf goodImage (sectsOf goodImage (imaged goodImage).logSelf) 15 = [] ∧
      recordsOf goodImage (sectsOf goodImage (imaged goodImage).logSelf) 7 = [] ∧ bit (wholeA 4).value 2 = true ∧
      base.rd Reg.SHP_STATUS_STATE ≠ 3 ∧ running.step.isSome = true ∧ canonB shaped = true ∧ shaped.holds 0 = true ∧
      shaped.rd Reg.SHP_STATUS_STATE = 3 ∧ shaped.step = none ∧ shaped.pages = [] ∧ bit (wholeA 8).value 3 = true ∧
      base.step = none ∧ (linked 13 7).linkState 13 = 7 := by decide +kernel

/-! ### Synchronisation, steps and urgent work -/

theorem wit_HostSyncOperations :
    base.bar0Open 0x80000 = true ∧ base.postedHolder 0 = none ∧ base.postedHolder 1 = none ∧ (⟨1, .upper, 7⟩ : RegAccess).part ≠ .whole ∧ (wholeA 131071).part = .whole ∧
      plainB base 131071 = true ∧ base.objReached (.port 0) 131071 = true ∧
      ((List.range 4).foldl (fun s t => s.setTower t { lost := [0, 1, 2, 3, 4, 5] }) base).objReached (.port 0) 131071 = false ∧ (wholeA 131071).value / 2 ^ 17 % 2 = 0 ∧ (wholeB 0x1FFFFFFFF0003FFFF).value / 2 ^ 17 % 2 = 1 := by
  decide +kernel

def radd (op o v : Nat) : Pkt := remote 2 0 0x11 0 [] (leBytes 4 o ++ leBytes 4 v ++ leBytes 4 op) []

/-- A barrier packet at coordinate x of the ring, whose group's barrier releases object 6. -/
def gather (kind k n : Nat) : Pkt := remote 2 0 kind 0 [] (barrierExt 0 k n) []
def barred (x : Nat) (p : Pkt) (gens : List BarrierGen) : State :=
  { ringAt x with barriers := [⟨5, 6, 3, 0⟩], barrierGens := gens, fabric := { groups := [ringGroup], ejected := [(0, p)] } }

theorem wit_remote_adds :
    (let p := radd 9 131071 1
     arrivedB (ejectedAt 0 p {}) 0 0x11 0 p = true ∧ fieldNat p.hdr 32 4 = 131071 ∧ fieldNat p.hdr 40 4 = 9 ∧
       (p.src, 9) ∉ base.remoteSeen ∧ plainB base 131071 = true ∧ base.objReached (routerOrig 0) 131071 = true ∧
       (p.src, 9) ∈ ({ ejectedAt 0 p {} with remoteSeen := [(2, 9)] } : State).remoteSeen) ∧
      (let p := radd 9 131072 1
       arrivedB (ejectedAt 0 p {}) 0 0x11 0 p = true ∧ 131071 < fieldNat p.hdr 32 4) ∧
      (let p := remote 2 0 0x12 0 [] (leBytes 8 0 ++ leBytes 4 9) []
       arrivedB (ejectedAt 0 p {}) 0 0x12 0 p = true) ∧
      (let r : RemoteAdd := ⟨9, 3, 0, 2, 131071⟩
       (({ base with remoteAdds := [r] } : State).remoteAdds.find? fun x => x.op == r.op) = some r) := by decide +kernel

theorem wit_RemoteAddsAndBarriers :
    (let v := 0xA00000005
     base.postedHolder 0 = none ∧ base.bar0Open 0x80000 = true ∧ (wholeA v).part = .whole ∧ bit (wholeA v).value 17 = false ∧
       bit (wholeA (v + 0x20000)).value 17 = true ∧ asleep.objHolder (.port 0) 5 = some (.sleep 0) ∧
       (base.setTower 0 { lost := [0, 1, 2, 3, 4, 5] }).crownPathLost (.port 0) (bits 5 16 15) = true) ∧
      (let p := radd 9 5 1
       let s := (ejectedAt 0 p {}).setTower 0 { sleep := .asleep, trained := false }
       arrivedB s 0 0x11 0 p = true ∧ (p.src, 9) ∉ s.remoteSeen ∧ fieldNat p.hdr 32 4 = 5 ∧
         s.objHolder (routerOrig 0) 5 = some (.sleep 0) ∧ (ejectedAt 0 p {}).objHolder (routerOrig 0) 5 = none ∧
         (ejectedAt 0 p {}).objHolder (routerOrig 0) 131071 = none ∧
         ((List.range 4).foldl (fun s t => s.setTower t { lost := [0, 1, 2, 3, 4, 5] }) base).objReached (routerOrig 0) 131071 = false) ∧
      (let p := gather 0x14 7 4
       let s := (barred 1 p []).setTower 0 { sleep := .asleep, trained := false }
       arrivedB s 0 0x14 0 p = true ∧ s.remoteBarrier 0 = some ⟨5, 6, 3, 0⟩ ∧ s.obj 6 < 7 ∧
         s.objHolder .mgmt 6 = some (.sleep 0) ∧ (barred 1 p []).objHolder .mgmt 6 = none ∧
         (barred 0 p []).objHolder .mgmt 6 = none) ∧
      (let p := gather 0x13 7 3
     let s := barred 0 p []
     let g := s.group 0
     s.remoteBarrier 0 = some ⟨5, 6, 3, 0⟩ ∧ g.root = s.logSelf ∧ g.members.length = 4 ∧ arrivedB s 0 0x13 0 p = true ∧
       fieldNat p.hdr 32 4 % 64 = 0 ∧ fieldNat p.hdr 36 4 = 7 ∧ fieldNat p.hdr 40 4 = 3 ∧ s.obj 6 < 7 ∧ (3 : Nat) < 4 ∧
       s.parentOf g s.logSelf g.root = none ∧ plainB s 6 = true ∧ 7 ≤ ({ s with sync := [(6, 7)] } : State).obj 6) ∧
      (let p := gather 0x13 7 1
       let s := barred 1 p []
       let g := s.group 0
       g.root ≠ s.logSelf ∧ s.subtree g s.logSelf = 1 ∧ arrivedB s 0 0x13 0 p = true ∧
         s.parentOf g s.logSelf g.root = some 0 ∧ fieldNat p.hdr 40 4 = 1) ∧
      (let p := gather 0x13 7 1
       let x : BarrierGen := ⟨0, 7, 3, false⟩
       let s := barred 0 p [x]
       (s.barrierGens.find? fun x => x.group == 0 && x.gen == 7) = some x ∧ arrivedB s 0 0x13 0 p = true ∧ 4 ≤ x.count + 1) ∧
      (let p := gather 0x14 7 4
       let s := barred 1 p []
       arrivedB s 0 0x14 0 p = true ∧ s.obj 6 < 7 ∧ plainB s 6 = true ∧ s.barrierGens.find? (fun x => x.group == 0 && x.gen == 7) = none) := by
  decide +kernel

def stepCmd (image : Nat) : StepCmd := ⟨⟨0, 0, 0, 0, 0⟩, image, 8, 0, 0x1FFFF, [1, 2, 3, 4]⟩
def stepUnit (kind phase mb : Nat) : UnitDesc := { unit1 with kind, phase, mb }
def dispatching (r : StepRun) (u : UnitDesc) : State := { running.wr Reg.UPD_CFG_SWEEP_AT 65534 with step := some r, units := [u] }

theorem wit_StepsStartDispatchAndComplete :
    (let s : State := { shaped with stepQueue := [stepCmd 0], syncInit := [(131071, 4)], regions := [⟨0, 2, 2, 1, 5⟩] }
     let t : State := { shaped with stepQueue := [stepCmd 1] }
     s.step = none ∧ s.standby = false ∧ s.objHolder .mgmt 131071 = none ∧ s.rd Reg.SHP_STATUS_STATE = 3 ∧
       s.rd (Reg.SHP_DIGEST_DIGEST 0) = (stepCmd 0).image ∧ t.rd (Reg.SHP_DIGEST_DIGEST 0) ≠ (stepCmd 1).image ∧
       plainB s 131071 = true) ∧
      (let r : StepRun := { cmd := stepCmd 0 }
       let s := dispatching r (stepUnit 0 65534 0xFFFF)
       s.nextUnitAt r 0 0 = some (stepUnit 0 65534 0xFFFF, 0) ∧ r.failed = 0 ∧ (s.thr 0 .F).running = false ∧
         s.condHolds (stepUnit 0 65534 0xFFFF).wait0 = true ∧ s.optCondHolds (stepUnit 0 65534 0xFFFF).wait1 = true ∧
         s.optCondHolds ⟨131071 - 1, 1, false⟩ = false ∧ s.power.stopped = false ∧ s.standby = false ∧
         r.mark = none ∧ s.rd Reg.UPD_CFG_SWEEP_AT ≤ 65534 ∧ s.condHolds ⟨131071 - 1, 1, false⟩ = false ∧
         (dispatching { r with failed := 2 } unit1).step = some { r with failed := 2 } ∧
         (stepUnit 0 1 3).mb ≠ 0xFFFF ∧ (stepUnit 0 1 3).mb ∉ r.mbHeld ∧
         (({ s with step := running.step }).setThr 0 .F { running := true } |>.thr 0 .F).running = true) ∧
      (let r : StepRun := { cmd := stepCmd 0, mark := some 1 }
       (dispatching r (stepUnit 0 1 0xFFFF)).nextUnitAt r 0 0 = some (stepUnit 0 1 0xFFFF, 0) ∧ (stepUnit 0 1 0xFFFF).kind ≠ 4 ∧
         (dispatching r (stepUnit 4 0 0xFFFF)).nextUnitAt r 0 0 = some (stepUnit 4 0 0xFFFF, 0) ∧
         (stepUnit 4 0 0xFFFF).slotEnd = false ∧
         (dispatching r (stepUnit 4 0 0xFFFF)).objReached (.core 0) 5 = true ∧ plainB (dispatching r (stepUnit 4 0 0xFFFF)) 5 = true) ∧
      (let r : StepRun := { cmd := stepCmd 0 }
       (dispatching r unit1).unitsDone r = false ∧ ({ running with step := some r } : State).unitsDone r = true ∧
         running.sweepDone r = true ∧ (planned (planRec 0 2 0 1 0 true) {}).sweepDone { r with sweep := true } = false ∧
         running.standby = false ∧ (running.wr Reg.RED_CFG_MIRROR_EN 0).rd Reg.RED_CFG_MIRROR_EN = 0 ∧ r.sweep = false ∧
         plainB running 0x1FFFF = true ∧ running.objReached .mgmt 0x1FFFF = true) := by
  decide +kernel

/-- Queue 5 of port A takes urgent commands for unit 0, which core 0 runs. -/
def urgentQueue (role : Nat) : State :=
  { wrs base [(Reg.HQ_Q_CFG_EN 0 5, 1), (Reg.HQ_Q_CFG_CLASS 0 5, 1)] with
    urgents := [⟨0, 1, 0, 64, 0x1FFFF, 0, 1, 0, 1⟩, ⟨0, 1, 4, 0, 0x1FFFF, 0, 1, 0, 1⟩], roles := [(0, role)] }
def urgentBytes (r : Byte) : List Byte := [2, 0, r] ++ List.replicate 61 0
def urgentCmd1 : UrgentCmd := ⟨⟨0, 5, 0, 0, 0⟩, 0, 0, [0, 0, 0, 0, 0, 0]⟩

theorem wit_UrgentCommandsAndTheSparesPart :
    base.standby = false ∧ base.postedHolder 0 = none ∧ (4 : Fin 64) ≠ 0 ∧ (4 : Fin 64) ≠ 8 ∧ base.rd Reg.MGT_STATUS_MODE ≠ 3 ∧
      (base.wr Reg.MGT_STATUS_MODE 3).rd Reg.MGT_STATUS_MODE = 3 ∧ base.rd (Reg.HQ_Q_CFG_EN 0 5) = 0 ∧ (urgentQueue 2).rd (Reg.HQ_Q_CFG_EN 0 5) = 1 ∧
      (urgentQueue 2).rd (Reg.HQ_Q_CFG_CLASS 0 5) = 1 ∧ (urgentBytes 0).length = 64 ∧ fieldNat (urgentBytes 0) 0 1 = 2 ∧
      zeroAt (urgentBytes 1) 2 6 = false ∧ zeroAt (urgentBytes 0) 2 6 = true ∧ zeroAt (urgentBytes 0) 12 4 = true ∧
      ((urgentQueue 2).host 0).events = [] ∧ ((urgentQueue 2).host 1).events = [] ∧
      ((urgentQueue 2).urgents[fieldNat (urgentBytes 0) 1 1]?).map (·.cores) = some [0] ∧
      Sparse.get 0 (urgentQueue 2).roles 0 = 2 ∧ Sparse.get 0 (urgentQueue 1).roles 0 ≠ 2 ∧
      (urgentQueue 2).urgentBusy 0 = false ∧ ((urgentQueue 2).urgents.map (·.cores)) = [[0], [0]] ∧
      plainB (urgentQueue 2) 0 = true ∧ (urgentQueue 2).standby = false ∧
      ((urgentQueue 2).urgents.map (·.kind)) = [0, 4] ∧
      ((urgentQueue 2).setCore 0 { thrU := { running := true } }).urgentBusy 0 = true ∧
      ({ urgentQueue 2 with urgentHeld := [urgentCmd1] } : State).urgentHeld = urgentCmd1 :: [] ∧
      (let s : State := (({ imaged goodImage with imageBase := 0x4000000000 } : State).modFabric fun f =>
          { f with takenOver := some 1 }).wr Reg.SHP_STATUS_STATE 3
       s.fabric.takenOver.isSome = true ∧ s.fabric.partApplied = false ∧ s.rd Reg.SHP_STATUS_STATE = 3 ∧ s.step = none ∧
         s.rd Reg.SHP_LEN_LEN = goodImage.length ∧ readableB s .mgmt s.imageBase goodImage = true ∧
         (s.wr Reg.RED_RECOVER_STATE 1).rd Reg.RED_RECOVER_STATE = 1) ∧ running.step.isSome = true := by decide +kernel

/-! ### Power and temperature -/

/-- The package with its power state, and with one sample of an estimate in watts of crown 0. -/
def powered (p : PowerSt) : State := { base with power := p }
def drawing (w : Nat) : State := powered { samples := [⟨[Frac.ofNat w], [], []⟩] }
def changing (x : OpChange) (below : List Nat) : State := powered { crowns := [(3, { change := some x })], below }

theorem wit_OperatingPointsChange :
    (let s := changing ⟨7, true, false, false⟩ []
     (s.crownPower 3).change = some ⟨7, true, false, false⟩ ∧ (7 : Nat) < 8 ∧ 3 ∉ s.power.below ∧ 4 ∉ s.power.below) ∧
      ((changing ⟨0, false, true, false⟩ [3]).crownPower 3).change = some ⟨0, false, true, false⟩ ∧
      3 ∈ (changing ⟨0, false, true, false⟩ [3]).power.below ∧
      ((changing ⟨0, false, false, true⟩ [4]).crownPower 3).change = some ⟨0, false, false, true⟩ ∧
      base.rd Reg.PCAP_STATUS_UNMET_NOW = 0 ∧ (base.wr Reg.PCAP_CAP_EFF base.capNow).unmet = false ∧
      (base.wr Reg.PCAP_STATUS_UNMET_NOW 1).rd Reg.PCAP_STATUS_UNMET_NOW = 1 ∧
      (let s := wrs (drawing 25000000) ((List.range 4).map fun n => (Reg.PWR_OP_DUTY n, 4))
       s.rd Reg.PCAP_STATUS_UNMET_NOW = 0 ∧ (s.wr Reg.PCAP_CAP_EFF s.capNow).unmet = true) ∧
      (∀ n < 4, (base.crownPower n).thermDuty ≤ 64) ∧ (base.crownPower 0).change = none ∧
      base.poweringDown = false ∧ ({ base with recorder := { closed := true } } : State).poweringDown = true ∧
      (let s := changing ⟨0, false, false, true⟩ []
       (s.crownPower 3).change = some ⟨0, false, false, true⟩ ∧ 3 ∉ s.power.below) ∧
      (8 : Fin 10) ≠ 9 ∧ (8 : Nat) ∉ base.power.below ∧ (8 : Nat) ∈ (changing ⟨0, false, true, false⟩ [8]).power.below ∧
      (4 : Nat) ∈ (changing ⟨0, false, true, false⟩ [4]).power.below ∧
      ({ base with lstep := true } : State).lstep = true ∧ (∀ n < 4, base.releaseEnded n = true) ∧
      (∃ n < 4, (base.setCrown 2 { released := [300] }).releaseEnded n = false) ∧ base.lstep = false := by
  decide +kernel

/-- Crown 0 measured at 1,000 W, with an estimate of e W. -/
def measuring (e : Nat) (good bad : List (Nat × Nat)) : State := powered
  { samples := [⟨[Frac.ofNat (500 * e)], [], []⟩], crowns := [(0, { senseN := 1, senseSum := 1000000 })], good, bad }

theorem wit_EstimatesAreMeasuredAndCalibrated :
    ((Frac.ofNat 4400).lt (drawing 2200001).avg1 = true ∧ (Frac.ofNat 4400).lt (drawing 2200000).avg1 = false ∧
      (base.crownPower 0).pkgLimited = false) ∧
      base.measured 6 = none ∧
      (let s := (measuring 1000 [] [(0, 7)]).wr Reg.PWR_STATUS_MODE 0
       s.measured 0 = some ⟨1000, 1⟩ ∧ s.meanEst 500 0 = ⟨1000, 1⟩ ∧ s.rd Reg.PWR_STATUS_MODE = 0 ∧
         ((Frac.make 1 2).le ((⟨1000, 1⟩ : Frac).div ⟨1000, 1⟩) && ((⟨1000, 1⟩ : Frac).div ⟨1000, 1⟩).le ⟨2, 1⟩) = true) ∧
      (let s := (measuring 2001 [] [(0, 7)]).wr Reg.PWR_STATUS_MODE 0
       s.measured 0 = some ⟨1000, 1⟩ ∧ (Frac.make 1 2).le ((⟨1000, 1⟩ : Frac).div (s.meanEst 500 0)) = false ∧
         7 ≤ Sparse.get 0 s.power.bad 0 ∧ Sparse.get 0 (measuring 2001 [] [(0, 6)]).power.bad 0 < 7) ∧
      (let s := wrs (measuring 1000 ([0, 1, 2, 3, 4, 5, 6].map fun d => (d, if d = 0 then 99 else 100)) [])
          ((Reg.PWR_STATUS_MODE, 1) :: (List.range 10).map fun r => (Reg.PWR_RAIL_PRESENT r, 1))
       s.rd Reg.PWR_STATUS_MODE = 1 ∧ s.measured 0 = some ⟨1000, 1⟩ ∧ s.rd Reg.PWR_CFG_FORCE_FB = 0 ∧ s.allRails = true ∧
         100 ≤ Sparse.get 0 s.power.good 0 + 1 ∧ (∀ k < 7, k ≠ 0 → 100 ≤ Sparse.get 0 s.power.good k) ∧
         base.allRails = false) ∧
      Sparse.get 0 (powered { misses := [(9, 1)] }).power.misses 9 < 2 ∧
      2 ≤ Sparse.get 0 (powered { misses := [(9, 2)] }).power.misses 9 ∧ (base.wr Reg.PWR_STATUS_MODE 0).rd Reg.PWR_STATUS_MODE = 0 ∧
      ((powered { crowns := [(3, { readN := 63 })] }).crownPower 3).readN = 63 ∧ (base.crownPower 3).readN < 63 ∧
      base.bar0Open 0x50000 = true ∧ base.postedHolder 0 = none ∧ (wholeA 2).part ≠ .upper ∧ base.holds 0 = true ∧ (wholeA 2).value / 2 % 2 = 1 ∧ (wholeA 1).value / 2 % 2 = 0 ∧
      (let s := wrs (powered { good := [0, 1, 2, 3, 4, 5, 6].map fun d => (d, 100) })
          ((Reg.PWR_STATUS_MODE, 1) :: (List.range 10).map fun r => (Reg.PWR_RAIL_PRESENT r, 1))
       s.rd Reg.PWR_STATUS_MODE = 1 ∧ s.allRails = true ∧ ∀ d < 7, 100 ≤ Sparse.get 0 s.power.good d) := by
  decide +kernel

def heated (p : Nat) (x : Layer) : State := base.setLayer 3 p x
def warm (c : Int) : Layer := { te := some ⟨c, 1⟩ }

/-- Every sensor of a brim fails its calibration. -/
theorem wit_calibration :
    (base.layer 0 0).faulted = false ∧ sensorCount 0 = 8 ∧
      (∀ i < 8, ((0 : Tower), (0 : Pos), i) ∈ (List.range 8).map fun i => ((0 : Tower), (0 : Pos), i)) := by decide +kernel

theorem wit_TemperaturesThrottleAndTrip :
    (({ apart := 2500 } : Layer).apart ≤ 2500 ∧ ({ reported := true } : Layer).reported = true ∧
      ((heated 7 { apart := 2501 }).layer 3 7).reported = false ∧ 2500 < ((heated 7 { apart := 2501 }).layer 3 7).apart) ∧
      ((throttleLevel 1).le ⟨95, 1⟩ = true ∧ ((heated 1 (warm 95)).layer 3 1).te = some ⟨95, 1⟩) ∧
      ((∀ p, p < 8 → 1 ≤ p → ((Frac.add ⟨92, 1⟩ ⟨3, 1⟩).le (throttleLevel p)) = true) ∧
        (throttleLevel 1).le ⟨94, 1⟩ = false ∧ (Frac.add ⟨94, 1⟩ ⟨3, 1⟩).le (throttleLevel 1) = false) ∧
      ((tripLevel 7).le ⟨115, 1⟩ = true ∧ (tripLevel 7).le ⟨114, 1⟩ = false ∧ (tripLevel 1).le ⟨105, 1⟩ = true ∧
        ((heated 7 (warm 115)).layer 3 7).te = some ⟨115, 1⟩ ∧ (heated 7 (warm 115)).power.trip = false ∧
        (powered { trip := true }).power.trip = true) := by decide +kernel

theorem wit_TheCapAndTheCoolantLoop :
    base.bar0Open 0x50400 = true ∧ base.postedHolder 0 = none ∧ base.postedHolder 1 = none ∧ (wholeA 899).part ≠ .upper ∧ (⟨0, .lower, 3600⟩ : RegAccess).part = .lower ∧
      base.holds 0 = true ∧ base.holds 1 = false ∧ (wholeA 899).value % 65536 < 900 ∧ (3600 : Nat) ≤ 3600 ∧
      base.avg10.le (Frac.ofNat (base.rd Reg.PCAP_CAP_EFF)) = true ∧
      (drawing 25000000).avg10.le (Frac.ofNat ((drawing 25000000).rd Reg.PCAP_CAP_EFF)) = false ∧
      (base.wr Reg.MGT_STATUS_PHASE 5).rd Reg.MGT_STATUS_PHASE < 6 ∧ 6 ≤ base.rd Reg.MGT_STATUS_PHASE ∧
      base.power.trip = false ∧ 0 < base.rd Reg.THM_COOL_MODEL_TACH_K ∧ 0 < base.rd Reg.THM_COOL_MODEL_TAU ∧
      0 < base.rd Reg.THM_COOL_CFG_GFLOW ∧
      (let gflow := Frac.ofNat (base.rd Reg.THM_COOL_CFG_GFLOW)
       let set := Frac.ofNat (base.rd Reg.THM_COOL_CFG_OUT_SET)
       (gflow.mul ((set.sub (set.sub ⟨10, 1⟩)).max ⟨2, 1⟩)).isZero = false ∧
         (gflow.mul (base.power.coolant.dem.max (Frac.ofNat (base.rd Reg.THM_COOL_CFG_DMIN)))).isZero = false) ∧
      (base.wr Reg.THM_COOL_STATUS_OUT_PRESENT 1).rd Reg.THM_COOL_STATUS_OUT_PRESENT = 1 ∧
      base.rd Reg.THM_COOL_STATUS_OUT_PRESENT = 0 ∧
      Sparse.get 0 (powered { coolant := { held := [(0, 49)] } }).power.coolant.held (alarmKey .flow) < 50 ∧
      50 ≤ Sparse.get 0 (powered { coolant := { held := [(0, 50)] } }).power.coolant.held (alarmKey .flow) ∧
      100 ≤ Sparse.get 0 (powered { coolant := { held := [(2, 100)] } }).power.coolant.held (alarmKey .outlet) ∧
      .flow ∉ (powered { coolant := { held := [(0, 50)] } }).power.coolant.standing ∧
      Sparse.get 0 (powered { coolant := { absent := [(1, 599)] } }).power.coolant.absent (alarmKey .inlet) < 600 ∧
      600 ≤ Sparse.get 0 (powered { coolant := { absent := [(1, 600)] } }).power.coolant.absent (alarmKey .inlet) ∧
      base.bar0Open 0x50C00 = true ∧ base.bar0Open 0x50C08 = true ∧ (wholeA 0).part = .whole := by decide +kernel

/-! ### Ports, queues and DMA -/

def upPort : HostPort := { linkUp := true, memEnable := true }
def bothUp : State := (base.setHost 0 upPort).setHost 1 upPort

theorem wit_PortsAndTheControlToken :
    (bothUp.holds 0 = true ∧ bothUp.holds 1 = false ∧ bothUp.portAvailable 1 = true ∧ base.portAvailable 1 = false) ∧
      (base.host 0).resetAsserted = false ∧ (4 + 0 : Nat) ∉ base.refLost ∧
      ((base.setHost 1 { resetAsserted := true }).host 1).resetAsserted = true ∧
      (4 + 1 : Nat) ∈ ({ base with refLost := [5] } : State).refLost ∧
      (base.wr Reg.MGT_STATUS_PHASE 7).rd Reg.MGT_STATUS_PHASE ≠ 8 ∧ base.rd Reg.MGT_STATUS_MODE ≠ 3 ∧
      base.rd Reg.MGT_STATUS_PHASE = 8 ∧ (⟨0, .lower, 2⟩ : RegAccess).part = .lower ∧
      ((wholeA (base.rd Reg.MGT_TOKEN_TIMEOUT_MS * 2 ^ 32 + 8)).value / 2 ^ 32 % 65536 = base.rd Reg.MGT_TOKEN_TIMEOUT_MS ∧
        (wholeA (base.rd Reg.MGT_TOKEN_TIMEOUT_MS * 2 ^ 32 + 8)).value % 16 = 8) ∧
      (⟨0, .lower, 2⟩ : RegAccess).value % 16 = 2 ∧ (⟨0, .lower, 4⟩ : RegAccess).value % 16 = 4 ∧
      (⟨0, .lower, 1⟩ : RegAccess).value % 16 = 1 ∧ (base.wr Reg.MGT_TOKEN_HOLDER 0).rd Reg.MGT_TOKEN_HOLDER = 0 ∧
      (∀ n < 4, (base.tower n).sleep = .entering → base.sleepHeld n = false) ∧ base.postedHolder 0 = none ∧ base.postedHolder 1 = none ∧
      (base.host 0).msixPending = [] ∧
      (let s := base.setHost 0 { msixPending := [(2047, true)], msixTable := [(4 * 2047 + 3, 0)] }
       (s.host 0).d3hot = false ∧ (s.host 0).msixPending = [(2047, true)] ∧ (s.host 0).vectorMasked 2047 = false) ∧
      (base.wr Reg.MGT_STATUS_MODE 3).rd Reg.MGT_STATUS_MODE = 3 ∧ (base.wr Reg.MGT_STATUS_MODE 3).postedHolder 0 = none ∧
      base.rd Reg.MGT_TOKEN_HOLDER ≠ 0 ∧ (0 : Nat) = base.tokenTimer ∧ (1 : Nat) ≠ base.tokenTimer := by decide +kernel

/-- Port A's BAR2 window stands at a multiple of 1 GiB. -/
def windowAt (gib : Nat) : State := base.wr (Reg.HQ_BAR2_WIN_BASE 0) gib

def top : Nat := 16 * 2 ^ 30 - 2

theorem wit_bar2 :
    (let s := windowAt 256
     top + 2 ≤ (s.host 0).bar2Gib * 2 ^ 30 ∧ s.postedHolder 0 = none ∧ s.standby = false ∧ s.rd Reg.MGT_STATUS_PHASE = 8 ∧
       s.bar2Addr 0 0 = 0x4000000000 ∧
       readableB s (.port 0) 0x4000000000 [0, 0] = true ∧ writableB s (.port 0) 0x4000000000 2 = true ∧
       (s.wr Reg.MGT_STATUS_PHASE 7).rd Reg.MGT_STATUS_PHASE ≠ 8 ∧
       (s.setTower 0 { sleep := .asleep }).inRegion 0x4000000000 = false ∧
       (s.setTower 0 { sleep := .asleep }).rangeHolder (.port 0) 0x4000000000 2 = some (.sleep 0) ∧
       (let u := s.setTower 0 { lost := [0, 1, 2, 3, 4, 5, 6] }
        u.accessFault 0x4000000000 2 false = false ∧ u.rangePathLost (.port 0) 0x4000000000 2 = true)) ∧
      (let s := windowAt 384
       s.bar2Addr 0 0 = 0x6000000000 ∧ s.inRegion (s.bar2Addr 0 0) = true ∧ s.standby = false ∧ s.postedHolder 0 = none ∧ s.rd Reg.MGT_STATUS_PHASE = 8) ∧
      (let r : HeldReq := ⟨.sleep 0, .port 1, .hostRead 1 9, 0x4000000000, 2, []⟩
       let w : HeldReq := ⟨.sleep 0, .port 1, .hostWrite 1, 0x4000000000, 2, []⟩
       let x : HeldReq := ⟨.sleep 0, .core 0, .load 0 0 63, 0x4000000000, 8, []⟩
       ({ base with held := [r, w, x] } : State).held[0]? = some r ∧ ({ base with held := [r, w, x] } : State).held[1]? = some w ∧
         ({ base with held := [r, w, x] } : State).held[2]? = some x ∧ x.port = none ∧ w.port = some 1) := by decide +kernel

/-- Queue 1023 of port A with rings of 4 and 8 entries, a command waiting, and weight 1. -/
def queued (l : List (Fld × Nat)) : State :=
  wrs base ([(Reg.HQ_Q_CFG_EN 0 1023, 1), (Reg.HQ_Q_CFG_WEIGHT 0 1023, 1), (Reg.HQ_Q_CFG_SQSZM1 0 1023, 3),
    (Reg.HQ_Q_CFG_CQSZM1 0 1023, 7), (Reg.HQ_Q_STATUS_SQTAIL 0 1023, 1)] ++ l)

theorem wit_doorbells :
    (let s := (queued []).setHost 0 { queues := [(1023, { written := 7 })] }
     s.standby = false ∧ s.postedHolder 0 = none ∧ s.rd Reg.MGT_STATUS_MODE ≠ 3 ∧ (s.wr Reg.MGT_STATUS_MODE 3).postedHolder 0 = none ∧ (s.wr Reg.MGT_STATUS_MODE 3).rd Reg.MGT_STATUS_MODE = 3 ∧
       s.rd (Reg.HQ_Q_CFG_EN 0 1023) ≠ 0 ∧ s.rd (Reg.HQ_Q_CFG_CLASS 0 1023) = 0 ∧
       3 ≤ s.rd (Reg.HQ_Q_CFG_SQSZM1 0 1023) ∧ ¬ 4 ≤ s.rd (Reg.HQ_Q_CFG_SQSZM1 0 1023) ∧
       (let ring := s.rd (Reg.HQ_Q_CFG_CQSZM1 0 1023) + 1
        7 < ring ∧ (7 + ring - s.rd (Reg.HQ_Q_STATUS_CQHEAD 0 1023)) % ring ≤ ((s.host 0).queue 1023).written)) ∧
      (let s := wrs base [(Reg.HQ_EQ_CFG_EN 0 1023, 1), (Reg.HQ_EQ_CFG_LOG2SZ 0 1023, 4)]
       s.rd (Reg.HQ_EQ_CFG_EN 0 1023) ≠ 0 ∧ 15 < 2 ^ s.rd (Reg.HQ_EQ_CFG_LOG2SZ 0 1023)) ∧
      base.rd (Reg.HQ_Q_CFG_EN 0 1023) = 0 ∧ base.bar0Open (0x10010 + 32 * 1023) = true ∧
      base.bar0Open (0x18008 + 16 * 1023) = true ∧ (wholeA (2 ^ 63)).value / 2 ^ 63 % 2 = 1 ∧
      (wholeA (2 ^ 63)).value / 2 ^ 16 % 65536 = 0 ∧
      (let v := (wholeA (2 ^ 63 + 7 * 65536 + 3)).value
       ¬(v / 2 ^ 16 % 65536 = 0 ∨ (v / 2 ^ 62 % 2 = 0 ∧ (v % 65536 = 0 ∨ v / 2 ^ 16 % 65536 < v % 65536)))) ∧
      (let s := queued []
       [Reg.HQ_Q_CFG_CLASS 0 1023, Reg.HQ_Q_CFG_WEIGHT 0 1023, Reg.HQ_Q_CFG_CQSZM1 0 1023, Reg.HQ_Q_CFG_SQSZM1 0 1023].map s.rd =
         [0, 1, 7, 3]) ∧
      (wholeA (2 ^ 63 + 3 * 2 ^ 53)).value / 2 ^ 53 % 32 < 4 ∧ (wholeA (2 ^ 63 + 16 * 2 ^ 53)).value / 2 ^ 53 % 32 ≤ 16 := by
  decide +kernel

def stepBytes : List Byte := padBytes 64 ([1] ++ List.replicate 7 0)
def dmaBytes (dir : Byte) : List Byte :=
  padBytes 64 ([3, dir] ++ List.replicate 6 0 ++ leBytes 8 16 ++ leBytes 8 0x4000000000 ++ leBytes 4 1 ++ leBytes 8 (0x1FFFF * 2 ^ 47) ++
    leBytes 4 0x1FFFF)
def tick0 : Ticket := ⟨0, 1023, 0, 1, 0⟩
def dma0 (toHost started : Bool) : DmaJob :=
  { ticket := tick0, toHost, haddr := 16, daddr := 0x4000000000, len16 := 1, wait := ⟨0x1FFFF, 0, false⟩, signal := 0x1FFFF, started }

theorem wit_commands :
    (queued []).postedHolder 0 = none ∧ (queued []).queueReady 0 1023 = true ∧ base.queueReady 0 1023 = false ∧
      ((queued []).host 0).queue 1023 = {} ∧ ({} : QueueSt).round < (queued []).rd (Reg.HQ_Q_CFG_WEIGHT 0 1023) ∧
      fieldNat stepBytes 0 1 = 1 ∧ zeroAt stepBytes 1 7 = true ∧ zeroAt stepBytes 28 4 = true ∧
      (queued []).stepQueue.length < 64 ∧ (queued []).lastStepPort ≠ 0 ∧
      fieldNat (dmaBytes 1) 0 1 = 3 ∧ dmaOf tick0 (dmaBytes 1) = some (dma0 true false) ∧
      ((queued []).host 0).freeDma = some 0 ∧
      ({ dma := (List.range 8).map fun c => (c, some (dma0 true false)) } : HostPort).freeDma = none ∧
      dmaOf tick0 (dmaBytes 2) = none ∧ fieldNat (List.replicate 64 (4 : Byte)) 0 1 ≠ 1 ∧
      (queued []).rd (Reg.HQ_Q_CFG_WEIGHT 0 1023) ≠ 0 ∧ (queued []).roundOver 0 1023 false [] = true ∧
      ((queued []).host 0).queues.Pairwise (fun a b => a.1 < b.1) ∧
      -- queue 2 has a command waiting and its turn still to come
      (let s := (queued [(Reg.HQ_Q_CFG_EN 0 2, 1), (Reg.HQ_Q_CFG_WEIGHT 0 2, 1), (Reg.HQ_Q_CFG_SQSZM1 0 2, 3),
          (Reg.HQ_Q_CFG_CQSZM1 0 2, 7), (Reg.HQ_Q_STATUS_SQTAIL 0 2, 1)]).setHost 0
            { linkUp := true, queues := [(2, { epoch := 1 }), (1023, { epoch := 1, round := 1 })] }
       s.queueReady 0 1023 = true ∧ s.queueReady 0 2 = true ∧ s.stepQueue.length < 64 ∧ (s.host 0).freeDma ≠ none ∧
         s.roundOver 0 1023 false [(2, 1)] = false ∧
         (2 : Nat) ≠ 1023 ∧ ((s.host 0).queue 2).round < s.rd (Reg.HQ_Q_CFG_WEIGHT 0 2) ∧
         [(2, 3)].lookup 2 = some 3 ∧ ({ s with lastStepPort := 0 } : State).roundOver 0 1023 true [(2, 1)] = true ∧
         s.rd (Reg.HQ_Q_CFG_WEIGHT 0 1023) ≤ ((s.host 0).queue 1023).round) := by decide +kernel

theorem wit_HostMemoryAccessesQueuesAndDma :
    (let s := base.setHost 0 { dma := [(7, some (dma0 true false))] }
     Sparse.get none (s.host 0).dma 7 = some (dma0 true false) ∧ s.optCondHolds (dma0 true false).wait = true ∧
       s.standby = false ∧ (List.replicate 16 (0 : Byte)).length = 16 * (dma0 true false).len16 ∧
       s.rangeHolder (.dma 0 7) 0x4000000000 16 = none ∧ readableB s (.dma 0 7) 0x4000000000 (List.replicate 16 0) = true ∧
       writableB s (.dma 0 7) 0x4000000000 16 = true ∧ s.optCondHolds ⟨5, 1, false⟩ = false) ∧
      (let s := base.setHost 0 { dma := [(7, some (dma0 true true))] }
       Sparse.get none (s.host 0).dma 7 = some (dma0 true true) ∧ plainB s 0x1FFFF = true ∧
         s.objReached (.dma 0 7) 0x1FFFF = true) ∧
      (let t := ({ cold with held := [postedReq] } : State)
       (Instr.readClear 0 0x300008 8 1).accessPort = some 0 ∧ t.postedHolder 0 ≠ none ∧ (t.portTurn 0).postedHolder 0 = none) ∧
      (base.postedHolder 0 = none ∧ base.bar0Open 0x100000 = true ∧
        (base.setTower 0 { lost := [3] }).regPathLost (.port 0) 0x100000 = true ∧ cold.regPathLost (.port 0) 0x100000 = false ∧
        cold.regHolder (.port 0) 0x100000 = some (.cacheDie 0)) ∧
      ((base.host 0).queue 1023).unsignalled = false ∧
      (let h : HostPort := { queues := [(1023, { unsignalled := true })], msixOn := true, msixTable := [(4 * 1023 + 3, 0)] }
       (h.queue 1023).unsignalled = true ∧ h.vectorMasked 1023 = false ∧ h.msixMasked = false ∧ h.d3hot = false ∧
         ({ h with msixTable := [] } : HostPort).vectorMasked 1023 = true ∧ ({ h with d3hot := true } : HostPort).d3hot = true ∧
         ({} : HostPort).msixOn = false) := by decide +kernel

/-! ### Firmware, messages and debug access -/

/-- SEC_UPD_ADDR and SEC_UPD_LEN name five bytes of the near tier. -/
def stageable (bs : List Byte) : State :=
  wrs (base.putBytes 0x4000000000 bs) [(Reg.SEC_UPD_ADDR_ADDR, 0x400000000), (Reg.SEC_UPD_LEN_LEN, bs.length)]
def booted (b : BootSt) : State := { base with boot := b }

theorem wit_FirmwareIsStagedActivatedAndCommitted :
    (let s := stageable [0, 0, 0, 0, 1]
     (wholeA 0x101).part ≠ .upper ∧ s.postedHolder 0 = none ∧ s.postedHolder 1 = none ∧ s.holds 0 = true ∧ s.rd Reg.SEC_UPD_STATUS_BUSY = 0 ∧ s.holds 1 = false ∧
       (wholeA 0x101).value % 8 = 1 ∧ s.rd Reg.SEC_UPD_LEN_LEN = 5 ∧ s.rd Reg.MGT_STATUS_MODE ≠ 3 ∧
       readableB s .mgmt (s.rd Reg.SEC_UPD_ADDR_ADDR * 16) [0, 0, 0, 0, 1] = true ∧ s.imageResult 0 true [0, 0, 0, 0, 1] = 1 ∧
       fieldNat [0, 0, 0, 0, 1] 4 1 = 1 ∧ base.rd Reg.SEC_UPD_LEN_LEN = 0 ∧ fieldNat [0, 0, 0, 0, 4] 4 1 = 4 ∧
       bit ({ s with boot := { revoked := 1 } } : State).boot.revoked (mKeySlot [0, 0, 0, 0, 1]) = true) ∧
      (wholeA 0x302).value % 8 = 2 ∧ (wholeA 0x302).value / 256 % 4 = 3 ∧ bit (base.rd Reg.SEC_UPD_STATUS_STAGED) 2 = false ∧
      bit ((base.wr Reg.SEC_UPD_STATUS_STAGED 4).rd Reg.SEC_UPD_STATUS_STAGED) 2 = true ∧ (wholeA 3).value % 8 = 3 ∧
      (wholeA 0xF05E0004).value % 8 = 4 ∧ (wholeA 0xF05E0004).value / 65536 % 65536 = 0xF05E ∧
      (wholeA 0xF05D0004).value / 65536 % 65536 ≠ 0xF05E ∧ base.rd Reg.MGT_STATUS_MODE = 1 ∧
      (∀ k < 3, (base.fwType k).pending = false ∧ (base.fwType k).trial = false) ∧
      ((booted { types := [(2, { trial := true })] }).fwType 2).trial = true ∧
      base.boot.op = none ∧ (booted { op := some { op := 1, type := 2, result := 0 } }).boot.op = some { op := 1, type := 2, result := 0 } ∧
      (base.fwType 0).inUse = none ∧ ((booted { types := [(0, { inUse := some 1 })] }).fwType 0).inUse = some 1 ∧
      base.boot.standbyTimer = 0 ∧ (base.setB Reg.MGT_STATUS_STBY_OK).rd Reg.MGT_STATUS_STBY_OK ≠ 0 ∧
      4 ≤ base.rd Reg.MGT_STATUS_PHASE ∧ (booted { types := [(0, { inUse := some 1 })] }).chooseBank 1 0 = none ∧
      (booted { types := [(0, { inUse := some 1 })] }).imageResult 0 true
        ((booted { types := [(0, { inUse := some 1 })] }).bank_ 0 0 1) ≠ 0 := by decide +kernel

theorem wit_ManagementMessagesAreAnswered :
    ((1 : Fin 3) ≠ 0 ∧ (base.wr Reg.SEC_CFG_VDM_EN 0).rd Reg.SEC_CFG_VDM_EN = 0 ∧ ¬((0 : Fin 3) ≠ 0)) ∧
      base.rd Reg.MGT_STATUS_MODE = 1 ∧ (base.wr Reg.MGT_STATUS_MODE 3).rd Reg.MGT_STATUS_MODE = 3 ∧
      (List.replicate 39 (0 : Byte)).length ≠ 40 ∧ (List.replicate 40 (0 : Byte)).length = 40 ∧ base.boot.signing.length < 5 ∧
      (let w : MctpFrom × List Byte := (⟨0, 2, 3⟩, List.replicate 40 1)
       ({ base with boot := { signing := [w] }, pending := [] } : State).boot.signing = w :: [] ∧
         5 ≤ (booted { signing := List.replicate 5 w }).boot.signing.length ∧ base.boot.signing = []) ∧
      (0x501001 : Nat) % 8 ≠ 0 ∧ (0x501008 : Nat) % 8 = 0 := by decide +kernel

def bmc : State := base.wr Reg.SEC_CFG_BMC_UPD 1
def session1 : UpdSession := { type := 2, len := 1, data := [(0, some 5)] }

theorem wit_UpdateSessionsAndDebugAccess :
    ((0 : Fin 3) = 0 ∧ (base.wr Reg.SEC_CFG_BMC_UPD 0).rd Reg.SEC_CFG_BMC_UPD = 0 ∧ bmc.rd Reg.SEC_CFG_BMC_UPD = 1 ∧
      (bmc.wr Reg.SEC_UPD_STATUS_BUSY 1).rd Reg.SEC_UPD_STATUS_BUSY ≠ 0 ∧ bmc.rd Reg.SEC_UPD_STATUS_BUSY = 0 ∧
      bmc.rd Reg.MGT_STATUS_MODE = 1 ∧ (bmc.wr Reg.MGT_STATUS_MODE 2).rd Reg.MGT_STATUS_MODE ≠ 1) ∧
      ((1 ≤ (3 : Byte).toNat ∧ (3 : Byte).toNat ≤ 3) ∧ ¬((4 : Byte).toNat ≤ 3) ∧ 1 ≤ bankSize 2 ∧
        bankSize 2 < bankSize 2 + 1) ∧
      bmc.boot.session = none ∧
      (let s : State := { bmc with boot := { session := some session1 } }
       s.boot.session = some session1 ∧ session1.len < 1 + 1 ∧ 0 + 1 ≤ session1.len ∧ (1 : Nat) ≤ 1024 ∧
         ([5] : List Byte).length = session1.len ∧ (∀ i < session1.len, Sparse.get none session1.data i = ([5] : List Byte)[i]?) ∧
         (s.fwType 2).active < 2 ∧ s.imageResult 2 true [5] ≠ 0) ∧
      bit (bmc.rd Reg.SEC_UPD_STATUS_STAGED) 0 = false ∧
      bit ((bmc.wr Reg.SEC_UPD_STATUS_STAGED 1).rd Reg.SEC_UPD_STATUS_STAGED) 0 = true ∧
      (∀ j < 3, (bmc.fwType j).pending = false ∧ (bmc.fwType j).trial = false) ∧
      base.rd Reg.SEC_FUSE_DEBUG = 0 ∧ (base.wr Reg.SEC_FUSE_DEBUG 1).rd Reg.SEC_FUSE_DEBUG ≠ 0 := by decide +kernel

/-- A token of n + 8 bytes that names this device, whose serial number is a free value, and a challenge of zeros. -/
def bindingToken (n : Nat) : List Byte := leBytes 8 Config.serial.toNat ++ List.replicate n 0

theorem leBytes_length (n v : Nat) : (leBytes n v).length = n := by
  induction n generalizing v with
  | zero => rfl
  | succ n ih => simp only [leBytes, List.length_cons, ih]

theorem wit_debug_token (n : Nat) (hn : n = 29828) :
    (bindingToken n).length = 29836 ∧ fieldNat (bindingToken n) 0 8 = Config.serial.toNat ∧
      ((bindingToken n).drop 8).take 32 = List.replicate 32 0 := by
  have h : ∀ v : BitVec 64, leNat (leBytes 8 v.toNat) = v.toNat := fun v => by
    have := v.isLt
    simp only [leBytes, leNat, BitVec.toNat_ofNat]
    omega
  have l := leBytes_length 8 Config.serial.toNat
  refine ⟨by rw [bindingToken, List.length_append, l, List.length_replicate, hn], ?_, ?_⟩
  · rw [fieldNat, bindingToken, List.drop_zero, List.take_left' l, h]
  · rw [bindingToken, List.drop_left' l, List.take_replicate, Nat.min_eq_left (by omega)]

/-- With every key slot revoked no key is good. -/
theorem wit_debug_key_refused (slot : Nat) (key : List Byte) : (booted { revoked := 15 }).keyOk slot key = false := by
  by_cases h : slot < 4
  · have : bit (booted { revoked := 15 }).boot.revoked slot = true := by
      have hb : ∀ k < 4, bit 15 k = true := by decide
      exact hb slot h
    simp [State.keyOk, this]
  · simp [State.keyOk, h]

/-! ### The recorder -/

def recorded (r : Recorder) : State := { base with recorder := r }
def rec5 : Record := ⟨5, 9, 2, 0, 0, 0x0301, [7]⟩

theorem wit_TheRecorderKeepsFlushesAndClears :
    (base.recorder.suppressed = [] ∧ (recorded { suppressed := [(0x0301, 3)] }).recorder.suppressed = [(0x0301, 3)] ∧
      (recorded { suppressed := [(0x0301, 3)] }).recorder.closed = false) ∧
      (base.rd Reg.EVR_CFG_BURST ≤ Sparse.get 64 base.recorder.buckets 65535 ∧
        Sparse.get 64 (recorded { buckets := [(65535, 63)] }).recorder.buckets 65535 < base.rd Reg.EVR_CFG_BURST) ∧
      base.rd Reg.EVR_STATUS_FLUSHING = 0 ∧ base.postedHolder 0 = none ∧ base.postedHolder 1 = none ∧
      (let s := (recorded { unflushed := [5], ring := [(5, some rec5)], clearing := some 0 }).wr Reg.EVR_STATUS_FLUSHING 1
       s.rd Reg.EVR_STATUS_FLUSHING = 1 ∧ s.recorder.clearing = some 0 ∧ s.recorder.closed = false ∧ s.recorder.unflushed = 5 :: []) ∧
      (let s := (recorded { unflushed := [5], ring := [(5, some { rec5 with seq := 65541 })] }).wr Reg.EVR_STATUS_FLUSHING 1
       (Sparse.get none s.recorder.ring 5).all fun r => r.seq != 5) ∧
      (let area : RecorderArea := { reserve := 1024 }
       let s := (recorded { areaA := area, areaB := area }).wr Reg.EVR_STATUS_NEXT_SEQ 1024
       s.reserve ≤ s.rd Reg.EVR_STATUS_NEXT_SEQ ∧ s.recorder.waiting = [] ∧ s.recorder.closed = false) ∧
      (let s := (recorded { unflushed := [5, 6], ring := [(5, some rec5)] }).wr Reg.EVR_STATUS_FLUSHING 1
       s.rd Reg.EVR_STATUS_FLUSHING = 1 ∧ s.recorder.unflushed = 5 :: [6] ∧ s.recorder.clearing = none ∧
         Sparse.get none s.recorder.ring (5 % 65536) = some rec5 ∧ rec5.seq = 5 ∧
         Sparse.get none ({ ring := [] } : Recorder).ring (5 % 65536) = none) ∧
      (let area : RecorderArea := { reserve := 1024 }
       let s := (recorded { areaA := area, areaB := area }).wr Reg.EVR_STATUS_NEXT_SEQ 1023
       s.rd Reg.EVR_STATUS_NEXT_SEQ < s.reserve ∧ s.recorder.closed = false ∧ s.rd Reg.EVR_STATUS_NEXT_SEQ + 1 < 2 ^ 48) ∧
      (let area : RecorderArea := { reserve := 1024 }
       let w : WaitingEvent := ⟨0x0301, 2, 0, [7]⟩
       let s := (recorded { areaA := area, areaB := area, waiting := [w] }).wr Reg.EVR_STATUS_NEXT_SEQ 1024
       s.reserve = s.rd Reg.EVR_STATUS_NEXT_SEQ ∧ s.reserve + 1 < 2 ^ 48 ∧ s.recorder.waiting = [w]) ∧
      (recorded { closed := true }).recorder.closed = true ∧
      (let s := wrs (recorded { ring := [(7, some { rec5 with seq := 7 })] }) [(Reg.EVR_STATUS_NEXT_SEQ, 8), (Reg.EVR_CURSOR_AUTO 0, 1)]
       s.rd (Reg.EVR_CURSOR_AUTO 0) ≤ 1 ∧ s.rd Reg.EVR_OLDEST_OLDEST ≤ s.rd (Reg.EVR_CURSOR_SEQ 0) + 7 ∧
         s.rd (Reg.EVR_CURSOR_SEQ 0) + 7 < s.rd Reg.EVR_STATUS_NEXT_SEQ ∧
         Sparse.get none s.recorder.ring ((s.rd (Reg.EVR_CURSOR_SEQ 0) + 7) % 65536) = some { rec5 with seq := 7 } ∧
         ¬ base.rd (Reg.EVR_CURSOR_SEQ 0) + 7 < base.rd Reg.EVR_STATUS_NEXT_SEQ) ∧
      ((wholeA 0xC1EA0001).part ≠ .upper ∧ (wholeA 0xC1EA0001).value % 2 = 1 ∧
        (wholeA 0xC1EA0001).value / 65536 % 65536 = 0xC1EA ∧ (wholeA 0xC1EB0001).value / 65536 % 65536 ≠ 0xC1EA ∧
        base.holds 0 = true ∧ base.holds 1 = false) := by decide +kernel

/-! ### Ill-formed operands, which the check refuses -/

def badHit : EccHit := ⟨281474976710656, 1, true, false⟩
def badCut : Cut := ⟨.mgmt, 281474976710656, [1], .old, .none⟩
def noRails : BootFacts := ⟨List.replicate 9 none, true, true, [], none, .newer, [], []⟩
def tenRails : BootFacts := ⟨List.replicate 10 none, true, true, [], none, .newer, [], []⟩

theorem test_wf_halves : RegAccess.wf ⟨0, .lower, 4294967296⟩ = false ∧ RegAccess.wf ⟨0, .upper, 4294967296⟩ = false ∧
    RegAccess.wf ⟨0, .upper, 4294967295⟩ = true ∧ RegAccess.wf (wholeA 18446744073709551615) = true := by decide

theorem test_wf_refuses_1 :
    (([.registerWrite (0) (67108864) (0) (0),
     .registerWrite (0) (0) (4) (4294967296),
     .readClear (0) (0) (67108864) (0),
     .throughDomainLost (0) (0) ([badCut]),
     .siltRegisterRead (0) (0) (.up) (List.replicate 71 0),
     .siltRegisterWrite (0) (0) (.up) (List.replicate 71 0),
     .siltReadResponse (0) (0) (.up) (List.replicate 71 0),
     .siltBulkData (0) (0) (.up) (List.replicate 71 0),
     .siltLogRecord (0) (0) (.up) (List.replicate 71 0),
     .siltAcknowledge (0) (0) (.up) (List.replicate 71 0),
     .load (0) (.F) ([badHit]),
     .transposeFill ⟨0, .F⟩ [badHit],
     .arrayPreemption ⟨0, .F⟩ 0 ([badHit]),
     .workRow (0) (.F) ([badHit]) ([]),
     .workRow (0) (.F) ([]) ([badHit]),
     .crnFullerCfgWrite (0) (wholeA 18446744073709551616),
     .slotDescriptorWrite (0) (.F) (0) (wholeA 18446744073709551616),
     .drain (0) (.F) ([badHit]),
     .drainComplete (0) (.F) ([badHit]) ([]),
     .drainComplete (0) (.F) ([]) ([badHit])] : List Instr).all fun i => !i.wf) = true := by decide +kernel

theorem test_wf_refuses_2 :
    (([.accumulatorSave (0) (.F) ([badHit]),
     .accumulatorRestore (0) (.F) ([badHit]),
     .vop (0) ([badHit]) ([]),
     .chainDescriptorWrite (0) (0) (none) (wholeA 18446744073709551616),
     .cntSel (.core 0) (wholeA 18446744073709551616),
     .clrAll (.core 0) (wholeA 18446744073709551616),
     .clrSel (.core 0) (wholeA 18446744073709551616),
     .flexPost (0) (.host 0) (18446744073709551616),
     .ld (0) (.F) ([badHit]),
     .stageInCommit ⟨16777216, []⟩,
     .writeBackCommit ⟨16777216, []⟩,
     .stageInCommit ⟨0, [badHit]⟩,
     .writeBackCommit ⟨0, [badHit]⟩,
     .tierCfgWrite (0) (wholeA 18446744073709551616),
     .chunkTaken ⟨0, 0⟩ ([badHit]),
     .measuringPrePass (0) ([badHit]),
     .statisticsPrePass (0) ([badHit]),
     .copyRegeneration (0) ([badHit]),
     .regen (wholeA 18446744073709551616),
     .dataFrame (0) (true) (0) (List.replicate 2569 0)] : List Instr).all fun i => !i.wf) = true := by decide +kernel

theorem test_wf_refuses_3 :
    (([.noticeFrame (0) (true) (0) (List.replicate 2569 0),
     .fenceFrame (0) (true) (0) (List.replicate 2569 0),
     .linkActivate (0) (wholeA 18446744073709551616),
     .retrain (0) (wholeA 18446744073709551616),
     .linkEn (0) (wholeA 18446744073709551616),
     .hbCoordWrite (wholeA 18446744073709551616),
     .hbPlaneWrite (wholeA 18446744073709551616),
     .readRequest ([badHit]),
     .bucketRelease (0) ([badHit]),
     .shape (wholeA 18446744073709551616) ([]) (true),
     .unshape (wholeA 18446744073709551616),
     .abort (wholeA 18446744073709551616),
     .shpImageWrite (wholeA 18446744073709551616),
     .shpLenWrite (wholeA 18446744073709551616),
     .urgentCommand (0) ⟨0, 0⟩ (List.replicate 65 0),
     .synOpAdd (wholeA 18446744073709551616),
     .synOpSet (wholeA 18446744073709551616),
     .forceFb (wholeA 18446744073709551616)] : List Instr).all fun i => !i.wf) = true := by decide +kernel

theorem test_wf_refuses_4 :
    (([.pcapCap (wholeA 18446744073709551616),
     .supplyBelowResetLevel (0) (noRails),
     .sensorSample (0) (List.replicate 9 []),
     .thmCoolCfgWrite (true) (wholeA 18446744073709551616),
     .bar2Read (0) (0) (0) (0) ([badHit]),
     .bar2Read (0) (0) (0) (0) ([]),
     .bar2Write (0) (0) ([]),
     .sqTailDoorbell (0) (0) (4) (4294967296),
     .cqHeadDoorbell (0) (0) (4) (4294967296),
     .eqHeadDoorbell (0) (0) (4) (4294967296),
     .commandFetch (0) (0) (List.replicate 63 0) ⟨true, []⟩ (true),
     .dmaStart (0) (0) ([some 0]) ([badHit]),
     .hqQCfgWrite (0) (wholeA 18446744073709551616),
     .hqEqCfgWrite (0) (wholeA 18446744073709551616),
     .claim (wholeA 18446744073709551616),
     .release (wholeA 18446744073709551616),
     .give (wholeA 18446744073709551616),
     .beat (wholeA 18446744073709551616)] : List Instr).all fun i => !i.wf) = true := by decide +kernel

theorem test_wf_refuses_5 :
    (([.powerOnReset (noRails),
     .stage (wholeA 18446744073709551616) (true),
     .firmwareActivate (wholeA 18446744073709551616),
     .cancel (wholeA 18446744073709551616),
     .commit (wholeA 18446744073709551616),
     .trialWatchdog (noRails),
     .readReg (0) (0) (4294967296),
     .updBegin (0) (0) (1) (4294967296),
     .updData (0) (0) (4294967296) ([]),
     .updCommit (0) (0) (65536),
     .failover (0) (noRails),
     .pwrfailNDeassert (noRails),
     .clear (wholeA 18446744073709551616),
     .warmReset (wholeA 18446744073709551616) (tenRails),
     .warmReset (wholeA 0) (noRails),
     .towerReset (wholeA 18446744073709551616),
     .jobReset (wholeA 18446744073709551616),
     .packageStandbyEntry (wholeA 18446744073709551616)] : List Instr).all fun i => !i.wf) = true := by decide +kernel

theorem test_wf_refuses_6 :
    (([.packageStandbyExit (wholeA 18446744073709551616),
     .configurationRequest 0 0 (.read 4096),
     .configurationRequest 0 0 (.read 2),
     .configurationRequest 0 0 (.bar 0 18446744073709551616),
     .configurationRequest 0 0 (.tableWrite 2047 3 4294967296),
     .reservedTypeFrame (0) (0) (.up) (List.replicate 71 0)] : List Instr).all fun i => !i.wf) = true := by decide +kernel

/-- A term of each kind that the check takes. -/
theorem test_wf_takes :
    (([.registerWrite 0 67108863 4 4294967295, .siltAcknowledge 0 0 .up (List.replicate 72 0), .dataFrame 0 true 0 (List.replicate 2570 0),
      .bar2Read 0 0 0 1 [], .powerOnReset tenRails, .updCommit 0 0 65535, .stageInCommit ⟨16777215, []⟩, .urgentCommand 0 ⟨0, 0⟩ (List.replicate 64 0),
      .sqTailDoorbell 0 0 4 4294967295, .commandFetch 0 0 (List.replicate 64 0) ⟨true, []⟩ false,
      .configurationRequest 0 0 (.bar 2 (2 ^ 64 - 1)), .configurationRequest 0 0 (.read 4092)] : List Instr).all Instr.wf) = true := by
  decide +kernel

/-! ### Words of the manual's layouts, written bit by bit -/

/-- R358: opcode 31:24, RD 23:18, RA 17:12, then RB 11:6 and FN 5:0, IMM 11:0, IMM 17:0, COND 11:9 and OFF 8:0, or OFF 23:0. -/
theorem test_words_control_core :
    decodeInsn 0b00000001_000011_000001_000010_000001 = some (.alu 3 1 2 1) ∧
      decodeInsn 0b00000001_000011_000001_000010_001010 = none ∧
      decodeInsn 0b00000010_111111_000100_111111111111 = some (.addi 63 4 4095) ∧
      decodeInsn 0b00000011_000101_100000000000000001 = some (.lix 5 131073) ∧
      decodeInsn 0b00000100_000110_000111_000000000010 = some (.ld 6 7 2) ∧
      decodeInsn 0b00000101_000110_000111_100000000000 = some (.st 6 7 2048) ∧
      decodeInsn 0b00000110_001000_001001_101_111111111 = some (.br 8 9 5 511) ∧
      decodeInsn 0b00000110_001000_001001_110_000000000 = none ∧
      decodeInsn 0b00000111_100000000000000000000000 = some (.jmp 8388608) ∧
      decodeInsn 0b00001000_000000_001010_000000_000001 = some (.acmd 10 1) ∧
      decodeInsn 0b00001001_000000_001010_000000_000000 = some (.vcmd 10) ∧
      decodeInsn 0b00001010_000000_001010_001011_000000 = some (.sadd 10 11) ∧
      decodeInsn 0b00001011_000000_001010_001011_000000 = some (.sset 10 11) ∧
      decodeInsn 0b00001100_000000_001010_001011_000001 = some (.swait 10 11 1) ∧
      decodeInsn 0b00001101_000000_001010_001011_000000 = some (.radd 10 11) ∧
      decodeInsn 0b00001110_000000_000000_000000_000000 = some .fence ∧
      decodeInsn 0b00001111_000000_000000_000000_000000 = some .endUnit ∧ decodeInsn 0 = none ∧
      decodeInsn 0b00010000_000000_000000_000000_000000 = none := by decide +kernel

/-- R93: OP, ARR, FMT, PART, TRANS, three reserved bits, a reserved bit with CROWS and a reserved bit, CCOLS in two parts with a
reserved bit between, BASE, STRIDE, MXS. -/
theorem test_words_arrays :
    decodeArr 0b0001_1_00001_10_1_0000_1000000_0_1000_000_00_000011_000100_000101_000000000000 =
        some (.load 1 1 2 1 64 64 3 4 5) ∧
      decodeArr 0b0001_1_00001_10_1_0000_1000000_1_1000_000_00_000011_000100_000101_000000000000 = none ∧
      decodeArr 0b0010_0_00000000000000000000000000000000000000000000000000000000000 = some (.swap 0) ∧
      decodeArr 0b0010_0_00000000000000000000000000000000000000000000000000000000001 = none ∧
      decodeArr 0b0011_0_00010_01_0_1_0_1_100000000_0110_0111_1_000011_000100_000101_000000000000 =
        some (.stream 0 2 1 0 1 0 1 256 6 7 1 3 4 5) ∧
      decodeArr 0b0100_1_1111_10_01_00001_0011_000000000000_000011_000100_000000000000000000 =
        some (.drain 1 15 2 1 1 3 3 4) ∧
      decodeArr 0b0101_0_1_0_0_11111111_00000001_0000000000000000000000000000000000000000 = some (.qparam 0 1 0 255 1) ∧
      decodeArr 0b0110_000000000000000000000000000000000000000000000000000000000000 = none := by decide +kernel

/-- R172. -/
theorem test_words_vop :
    decodeVop 0b1000_1111_00001_00000000000001_11111111111111_000010_000011_1_0000000000 = some ⟨15, 1, 2, 16384, 2, 3, true⟩ ∧
      decodeVop 0b1000_1111_00001_00000000000001_11111111111111_000010_000011_1_0000000001 = none ∧
      decodeVop 0b1001_1111_00001_00000000000001_11111111111111_000010_000011_1_0000000000 = none := by decide +kernel

/-! ### The manual's worked examples -/

/-- Rounding to E4M3 (02): 200, 455, 464, -1,000 and infinity. -/
theorem test_e4m3 :
    ([.ofInt 200, .ofInt 455, .ofInt 464, .ofInt (-1000), .inf false].map fun x => convert .e4m3 ⟨7, 0, false⟩ .even x) =
      [(0x74, none), (0x7E, none), (0x7E, some .overflow), (0xFE, some .overflow), (0x7E, some .overflow)] := by decide +kernel

/-- One MXFP4 block (02): 3.9, -0.7, 0.2 and 2.5, written to 12 fraction bits. -/
theorem test_mx_block :
    convertBlock .mxfp4 (fun _ => .even) [.fin false 15974 (-12), .fin true 2867 (-12), .fin false 819 (-12), .fin false 10240 (-12)] =
      (0x7F, [(6, none), (9, none), (0, some .vanish), (4, none)]) := by decide +kernel

/-- Pouncing 0.999 (02), written to 20 fraction bits, with the draws 20,000 and 10,000. -/
theorem test_pounce :
    convert .bf16 ⟨0, 0, true⟩ (.pounce 20000) (.fin false 1047527 (-20)) = (0x3F80, none) ∧
      convert .bf16 ⟨0, 0, true⟩ (.pounce 10000) (.fin false 1047527 (-20)) = (0x3F7F, none) := by decide +kernel

/-- The three-pass FP32 product (03): b = 3 + 2^-6 + 2^-15 has b_hi = 3.015625 = 193 x 2^-6 and b_lo = 2^-15. -/
theorem test_split :
    splitHi (.fin false (3 * 2 ^ 15 + 2 ^ 9 + 1) (-15)) = .fin false 193 (-6) ∧
      splitLo .fp32 (.fin false (3 * 2 ^ 15 + 2 ^ 9 + 1) (-15)) = .fin false 128 (-22) := by decide +kernel

/-- A deep-tier address (08). -/
theorem test_deep_address :
    deepTa 0 0x34A6C1234 = (3, 3532395060) ∧ deepPlace 3532395060 = ⟨0, 9, 14, 336, 52⟩ := by decide +kernel

/-- One addition with its residues (11). -/
theorem test_reduction_addition :
    residueOf 0x40400000 = 12 ∧ residueOf 0x3E000005 = 13 ∧ addElem (0x40400000, 12) (0x3E000005, 13) = (0x40480000, 5) := by
  decide +kernel

/-- A route across a full plane (10): negative in x, positive in y and z, and the index bits. -/
theorem test_route :
    (let s := wrs base [(Reg.HB_PLANE_DIMX, 16), (Reg.HB_PLANE_DIMY, 16), (Reg.HB_PLANE_DIMZ, 32)]
     let src := mkCoord 3 14 30 0
     let dst := mkCoord 12 2 5 0
     src = 0x1EE3 ∧ dst = 0x052C ∧ s.torusDir 0 src dst src = some true ∧ s.torusDir 1 src dst src = some false ∧
       s.torusDir 2 src dst src = some false ∧ (s.torusRoute false src dst 66 src).length = 18) := by decide +kernel

/-! ### Single commands -/

/-- s3 = s1 + s2 modulo 2^64; ADDI of -1; LIX shifts in 18 bits (R358). -/
theorem test_alu : after (.alu 0 .F) (insnState (encodeInsn (.alu 3 1 2 0)) [(1, 2 ^ 64 - 1), (2, 2)]) (fun t => (t.thr 0 .F).reg 3) =
    some 1 := by decide +kernel
theorem test_addi : after (.addi 0 .F) (insnState (encodeInsn (.addi 3 1 4095)) [(1, 5)]) (fun t => (t.thr 0 .F).reg 3) =
    some 4 := by decide +kernel
theorem test_lix : after (.lix 0 .F) (insnState (encodeInsn (.lix 3 5)) [(3, 1)]) (fun t => (t.thr 0 .F).reg 3) =
    some 262149 := by decide +kernel
/-- s0 reads as zero (R78). -/
theorem test_s0 : after (.addi 0 .F) (insnState (encodeInsn (.addi 0 1 1)) [(1, 5)]) (fun t => (t.thr 0 .F).reg 0) =
    some 0 := by decide +kernel
/-- A store puts the register's eight bytes at RA + 8 x IMM, the least significant first. -/
theorem test_st : after (.st 0 .F) (insnState (encodeInsn (.st 3 1 1)) [(1, 0x5000000100), (3, 0x1122)])
    (fun t => (t.byteAt 0x5000000108, t.byteAt 0x5000000109)) = some (0x22, 0x11) := by decide +kernel
/-- SYN_OP with bit 17 zero adds, modulo 2^32 (R382). -/
theorem test_syn_op : after (.synOpAdd (wholeB (0xFFFFFFFF * 2 ^ 32 + 7))) { base with sync := [(7, 3)] } (·.obj 7) = some 2 := by
  decide +kernel
/-- A free token is claimed; a held one is not (R435). -/
theorem test_claim : after (.claim ⟨1, .lower, 2⟩) (base.wr Reg.MGT_TOKEN_HOLDER 0) (·.rd Reg.MGT_TOKEN_HOLDER) = some 2 := by
  decide +kernel
theorem test_claim_held : after (.claim ⟨1, .lower, 2⟩) base (·.rd Reg.MGT_TOKEN_HOLDER) = some 1 := by decide +kernel
/-- 600 written to REQ: EFF is 900 W, and CLAMPED is set (13, the cap lowered at OP0). -/
theorem test_cap : after (.pcapCap (wholeA 600)) base (fun t => (t.rd Reg.PCAP_CAP_EFF, t.rd Reg.PCAP_CAP_CLAMPED)) =
    some (900, 1) := by decide +kernel
/-- A doorbell of a queue that is not enabled sets DB_BAD (R427). -/
theorem test_doorbell : after (.sqTailDoorbell 0 1023 4 1) base (·.rd (Reg.HQ_ERR_DB_BAD 0)) = some 1 := by decide +kernel
/-- A read through BAR2 gives the bytes of the window (R423). -/
theorem test_bar2 : after (.bar2Read 0 7 2 2 []) { windowAt 256 with mem := [(0x4000000002, 9)] } (·.outbox) =
    some [.completion 0 7 [some 9, some 0] 0] := by decide +kernel
/-- A write of TIER_CFG by the port without the token changes nothing and is recorded; the record waits for RESERVE (R7, R474). -/
theorem test_rejected : after (.tierCfgWrite 0 (wholeB 0)) base (fun t => (t.rd (Reg.TIER_CFG_SCRUB_EN 0), t.recorder.waiting.length)) =
    some (1, 1) := by decide +kernel
/-- The front of the queue runs, on the state with the queue's rest; the empty queue idles. -/
theorem test_step : (match step { base with pending := [.capUnmetHoldEnd, .fence 0 .F] } with
    | .next t => decide (t.pending = [.fence 0 .F])
    | _ => false) = true := by decide +kernel
theorem test_step_idle : step base = .next base := rfl
theorem wit_PowerOnResetBoots : noRails.hangs = none ∧ ({ noRails with record := .neither } : BootFacts).record = .neither := by
  decide
/-- The older copy of the boot state record serves where the newer one fails its CRC; where both fail, bank A is active (R442). -/
theorem test_boot_record :
    let s := base.setFwType 1 { active := 1, pending := true }
    ((s.readBootRecord .newer).fwType 1).pending = true ∧ ((s.readBootRecord .older).fwType 1).pending = false ∧
      ((s.readBootRecord .neither).fwType 1).active = 0 ∧ ((s.readBootRecord .neither).fwType 1).pending = false :=
  ⟨by decide +kernel, by decide +kernel,
    by simp [State.readBootRecord, State.drawWord, State.modBoot, State.fwType, Sparse.get_put_ne],
    by simp [State.readBootRecord, State.drawWord, State.modBoot, State.fwType, Sparse.get_put_ne]⟩

/-- The storage code (R235, R236): one symbol in error is corrected and two are not; the poison encoding has the check field
0x9C35, and one more symbol in error makes it uncorrectable. -/
theorem test_code : decode144 false 5 0 = .clean 5 ∧ decode144 false 5 (symbolError 35 9) = .corrected 5 ∧
    decode144 false 5 (symbolError 0 1 ^^^ symbolError 7 15) = .uncorrectable ∧ decode144 true 0 0 = .poison ∧
    decode144 true 0 (symbolError 3 2) = .uncorrectable ∧ wordCheck poisonWord = 0x9C35 := by decide +kernel
/-- An integer column sum is exact, and saturates at 2^39 - 1 (R126). -/
theorem test_integer_sum : sumStep 1 true false 0 [columnSum [.ofInt 5, .ofInt (-3)]] = (2, false) ∧
    sumStep 1 false false (2 ^ 39 - 2) [columnSum [.ofInt 127, .ofInt 3]] = (2 ^ 39 - 1, true) := by decide +kernel

end Sys2Proof.Tests
end

section
/-! PROOFS. The statements of 12_structure_images_and_scheduling.md: SHP_IMAGE and SHP_LEN while STATE is not 0 (R381), and the
host's writes of SYN_OP (R382). -/

namespace Sys2Proof.Machine

/-! ### Accesses of a port -/

/-- An access waits for nothing where no earlier posted write of its port is held (R424). -/
theorem State.portTurn_of_none {s : State} {p : Nat} (h : s.postedHolder p = none) : s.portTurn p = s := by
  simp only [State.portTurn, State.waitFor, h]

/-- What `rejectWrite` leaves behind is a rejected write: the one event, and nothing else (R469). -/
theorem State.rejectWrite_rejected (s : State) (p : Port) (off : Nat) : Rejected s (s.rejectWrite p.val off) p off :=
  ⟨s.record_frame .., s.record_logs _ _ _⟩

/-! ### The addresses of an image (R381) -/

/-- A write of SHP_IMAGE or SHP_LEN that BAR0 serves is rejected while STATE is not 0. -/
theorem State.shapeWrite_rejected {s : State} {off : Nat} {acc : RegAccess} (hp : s.postedHolder acc.port.val = none)
    (ho : s.bar0Open off = true) (hs : s.rd Reg.SHP_STATUS_STATE ≠ 0) : Rejected s (s.shapeWrite off acc) acc.port off := by
  have hrej : s.shapeWrite off acc = s.rejectWrite acc.port.val off := by
    simp [State.shapeWrite, State.portTurn_of_none hp, ho, hs]
  rw [hrej]
  exact s.rejectWrite_rejected ..

/-- Settles O45: both writes come to `rejectWrite`, which records the one event. -/
theorem shapingAddressesAreFixedWhileShaped : Obligations.ShapingAddressesAreFixedWhileShaped := by
  unfold Obligations.ShapingAddressesAreFixedWhileShaped
  intro acc s hs hp
  exact ⟨fun ho => ⟨_, rfl, State.shapeWrite_rejected hp ho hs⟩, fun ho => ⟨_, rfl, State.shapeWrite_rejected hp ho hs⟩⟩

/-! ### Objects on which nothing depends (R369) -/

/-- Where neither port has an event queue, a change of an object fires no watch. -/
theorem State.fireWatches_of_no_queues {s : State} (o : Nat) (h0 : (s.host 0).events = []) (h1 : (s.host 1).events = []) :
    s.fireWatches o = s := by
  simp [State.fireWatches, h0, h1]

/-- A change of an object on which no barrier and no event queue depends changes the table of objects alone. -/
theorem State.setObj_of_plainObj {s : State} {o : Nat} (v : Nat) (h : s.plainObj o) :
    s.setObj o v = { s with sync := Sparse.put 0 s.sync o (v % 2 ^ 32) } := by
  obtain ⟨hb, h0, h1⟩ := h
  have hstore : s.storeObj o v = { s with sync := Sparse.put 0 s.sync o (v % 2 ^ 32) } :=
    State.fireWatches_of_no_queues o h0 h1
  have hnone : ({ s with sync := Sparse.put 0 s.sync o (v % 2 ^ 32) } : State).barriersAt o = [] := hb
  simp only [State.setObj, State.setObjFuel, hstore, hnone, List.foldl_nil]

/-- The same change, as a claim says it: the object has the value modulo 2^32, and nothing else has changed. -/
theorem State.setObj_objSet {s : State} {o : Nat} (v : Nat) (h : s.plainObj o) :
    s.setObj o v = { s with sync := (s.setObj o v).sync } ∧ ObjSet s (s.setObj o v) o v := by
  rw [State.setObj_of_plainObj v h]
  exact ⟨rfl, Sparse.get_put .., fun _ hq => Sparse.get_put_ne _ _ _ _ _ hq⟩

/-- A change that reaches its crown at once is made. -/
theorem State.reachObj_of_reached {s : State} {orig : Orig} {o : Nat} (kind : SyncKind) (v : Nat) (make : State → State)
    (h : s.objReached orig o = true) : s.reachObj orig kind o v make = make s := if_pos h

/-! ### SYN_OP (R382) -/

/-- A 32-bit write of SYN_OP, to either half, sets OP_ERR. -/
theorem State.synOp_of_half {s : State} {acc : RegAccess} (set : Bool) (ho : s.bar0Open 0x80000 = true)
    (hw : acc.part ≠ .whole) : s.synOp acc set = s.setB Reg.SYN_STATUS_OP_ERR := by
  simp [State.synOp, ho, hw]

/-- Setting OP_ERR changes no other field and nothing else. -/
theorem State.setB_opErr (s : State) : OnlyFields s (s.setB Reg.SYN_STATUS_OP_ERR) [Reg.SYN_STATUS_OP_ERR] ∧
    (s.setB Reg.SYN_STATUS_OP_ERR).rd Reg.SYN_STATUS_OP_ERR = 1 :=
  ⟨⟨rfl, SameFields.wr s _ 1 _ (List.mem_singleton_self _)⟩, s.rd_wr _ 1⟩

/-- One 64-bit write of SYN_OP, with bit 17 as the command has it: bits 16:0 name the object and bits 63:32 are the operand. -/
theorem State.synOp_of_whole {s : State} {acc : RegAccess} {set : Bool} (ho : s.bar0Open 0x80000 = true)
    (hw : acc.part = .whole) (hb : bit acc.value 17 = set) :
    s.synOp acc set =
      if set then s.setObjFrom (.port acc.port) (acc.value % 2 ^ 17) (acc.value / 2 ^ 32 % 2 ^ 32)
      else s.addObjFrom (.port acc.port) (acc.value % 2 ^ 17) (acc.value / 2 ^ 32 % 2 ^ 32) := by
  have hobj : bits acc.value 16 0 = acc.value % 2 ^ 17 := rfl
  have hval : bits acc.value 63 32 = acc.value / 2 ^ 32 % 2 ^ 32 := by rw [bits, Nat.shiftRight_eq_div_pow]
  simp [State.synOp, ho, hw, hb, hobj, hval]

/-- Where no earlier posted write of its port is held, SYN_OP_ADD is the write itself, and so is SYN_OP_SET. -/
theorem exec_synOpAdd {s : State} {acc : RegAccess} (hp : s.postedHolder acc.port.val = none) :
    exec (.synOpAdd acc) s = .next (s.synOp acc false) := by
  change Host.Outcome.next ((s.portTurn acc.port.val).synOp acc false) = _
  rw [State.portTurn_of_none hp]

theorem exec_synOpSet {s : State} {acc : RegAccess} (hp : s.postedHolder acc.port.val = none) :
    exec (.synOpSet acc) s = .next (s.synOp acc true) := by
  change Host.Outcome.next ((s.portTurn acc.port.val).synOp acc true) = _
  rw [State.portTurn_of_none hp]

/-- Settles O47: a half sets OP_ERR alone, and a whole write makes its change of the object, on which nothing depends. -/
theorem hostSyncOperations : Obligations.HostSyncOperations := by
  unfold Obligations.HostSyncOperations
  intro acc s ho hp
  have hadd := exec_synOpAdd hp
  have hset := exec_synOpSet hp
  refine ⟨fun hw => ⟨⟨_, hadd, ?_⟩, _, hset, ?_⟩, fun hw hplain hr => ⟨fun hb => ⟨_, hadd, ?_⟩, fun hb => ⟨_, hset, ?_⟩⟩⟩
  · rw [State.synOp_of_half false ho hw]
    exact s.setB_opErr
  · rw [State.synOp_of_half true ho hw]
    exact s.setB_opErr
  · have hbit : bit acc.value 17 = false := by rw [bit, Nat.testBit_eq_decide_div_mod_eq, hb]; rfl
    rw [State.synOp_of_whole ho hw hbit, if_neg Bool.false_ne_true, State.addObjFrom, State.reachObj_of_reached _ _ _ hr]
    exact State.setObj_objSet _ hplain
  · have hbit : bit acc.value 17 = true := by rw [bit, Nat.testBit_eq_decide_div_mod_eq, hb]; rfl
    rw [State.synOp_of_whole ho hw hbit, if_pos rfl, State.setObjFrom, State.reachObj_of_reached _ _ _ hr]
    exact State.setObj_objSet _ hplain

end Sys2Proof.Machine
end
